-- ==== Sys2Proof/Word.lean ====
section
/-! DEFINITION. The words of the module (spec/00 R6, spec/04 R110) and the type of sparse tables. -/

namespace Sys2Proof

/-- A byte of a memory, register or packet. -/
abbrev Byte := BitVec 8

/-- A 16-bit, 32-bit and 64-bit word. -/
abbrev W16 := BitVec 16
abbrev W32 := BitVec 32
abbrev W64 := BitVec 64

/-- A sparse table: keys rising, one entry for each key that is listed. What an
unlisted key reads as is stated where the table is read. -/
abbrev SMap (α : Type) := List (Nat × α)

end Sys2Proof
end

