-- ==== Sys2Proof/Syntax.lean ====
section
/-! DEFINITION. The commands of the block: one constructor of `Instr` for each row of
spec/opcode_table.json, with the operands the row's rule gives it. -/

namespace Sys2Proof

/-- A Lumfy operand specifier, decoded (spec/05 R138). -/
inductive Operand where
  | none
  | sreg (n : Nat)
  | treg (n : Nat)
  | preg (n : Nat)
  | creg (n : Nat)
  | imm
  | const (n : Nat)
  deriving DecidableEq, Repr

/-- The fields of a Lumfy word beside its OPCODE (spec/05 R137). -/
structure Args where
  ty   : Nat
  pred : Nat
  mod  : Byte
  d    : Operand
  a    : Operand
  b    : Operand
  imm  : BitVec 48
  deriving DecidableEq, Repr

/-- The operators of SCAN and SEGSCAN (spec/05 R159, opcodes 0x1C8 and 0x1D0 on). -/
inductive ScanOp where
  | add | max | min | mul | and | or | xor
  deriving DecidableEq, Repr

/-- The operators of SEGRED (spec/05 R159, opcodes 0x1E0 to 0x1E6). -/
inductive RedOp where
  | add | max | min | mul | mean | and | or
  deriving DecidableEq, Repr

/-- A command packet as the sorting office read it (spec/03 R72, R73, R82, R83): the
function whose ring held it, its header fields, its parameter bytes and, where
PARAM_LEN is 4 or more, the extended block. -/
structure Packet where
  fn       : Nat
  flags    : Byte
  paramLen : Byte
  context  : W32
  seq      : W64
  params   : List Byte
  block    : List Byte
  deriving DecidableEq, Repr

/-- The path by which a signed request reaches the postmaster (spec/16 R459, spec/20 R530). -/
inductive ReqPath where
  | packet
  | i3c
  deriving DecidableEq, Repr

/-- The header and payload of an unscheduled frame (spec/14 R382). -/
structure Frame where
  destPostcode : W16
  destEpoch    : W16
  srcPostcode  : W16
  srcEpoch     : W16
  cls          : Byte
  hops         : Byte
  kind         : Byte
  flags        : Byte
  status       : W16
  flowSeq      : W32
  context      : W32
  postmark     : W64
  payload      : List Byte
  deriving DecidableEq, Repr

/-- A mailbag: the 32-byte header of spec/14 R389 and its payload. -/
structure Mailbag where
  destPostcode   : W16
  destEpoch      : W16
  originPostcode : W16
  originEpoch    : W16
  version        : W16
  slot           : W16
  channel        : W16
  chanSeq        : W32
  collective     : W32
  index          : W32
  round          : W32
  payload        : List Byte
  deriving DecidableEq, Repr

/-- A time frame of the link framing (spec/02 R48), with the offset that the port measured
against it in units of 2^-16 ns (R51, R67) and whether its sender claims to be primary (R50). -/
structure TimeFrame where
  postmark       : W64
  masterPostcode : W16
  hops           : Nat
  version        : W16
  offset         : Int
  primary        : Bool
  deriving DecidableEq, Repr

/-- What a role advertisement says of a postcode (spec/14 R381, spec/15 R422, R423). -/
structure Advert where
  postcode : W16
  epoch    : W16
  hops     : Nat
  lost     : Bool
  covered  : Bool
  deriving DecidableEq, Repr

/-- The release of a commit barrier (spec/12 R339): STEP, G2 and N. -/
structure Release where
  step : W64
  g2   : W32
  n    : W32
  deriving DecidableEq, Repr

/-- The kinds of BAR0 access that R511 tells apart (spec/19). -/
inductive AccessKind where
  | read
  | write
  | atomic
  deriving DecidableEq, Repr

/-- Why the postmark unit loses lock (spec/02 R57). -/
inductive LossCause where
  | noFrame
  | offset
  deriving DecidableEq, Repr

/-- Which external reference times out (spec/20 R528). -/
inductive RefCause where
  | tenMegahertz
  | pulse
  deriving DecidableEq, Repr

/-- How a port's training ends (spec/14 R374): UP with its calibrated delay and what the
neighbour advertises, or DOWN. -/
inductive TrainResult where
  /-- `own`: whether the partner is another port of this module (R378). -/
  | up (delay : W16) (peerPostcode : W16) (peerPort : Byte) (own : Bool)
  | down
  deriving DecidableEq, Repr

/-- The faults of a stack that end its service (spec/15 R412 class 4). -/
inductive StackCause where
  | secondChannel
  | interface
  deriving DecidableEq, Repr

/-- A retirement made by self-test at start-up (spec/18 R498). -/
inductive Retired where
  | core (team core : Nat)
  | cluster (team : Nat)
  | lane (port lane : Nat)
  | channel (stack : Nat)
  | stack (stack : Nat)
  deriving DecidableEq, Repr

/-- What a PCIe configuration write changes (spec/19 R510, R514). -/
inductive CfgWrite where
  | msixEnable (on : Bool)
  | msixMask (on : Bool)
  | numVFs (n : Nat)
  deriving DecidableEq, Repr

/-- The lifecycle events of the placement loop's choice (spec/10 R297): rows to promote
and to demote, each a table number and a row. -/
structure PlaceChoice where
  promote : List (Nat × Nat)
  demote  : List (Nat × Nat)
  deriving DecidableEq, Repr

/-- The commands (spec/opcode_table.json, one constructor a row).
A Lumfy row is the issue of that instruction by the sequencer of `team` (spec/04 R104). -/
inductive Instr where
  /-- NOP (R88): Command 0x0001: accepted, journalled and completed with no effect. -/
  | nop (p : Packet)
  /-- LOAD_PROGRAM (R129): Command that translates a Lumfy container and writes the native image into one bank of each named team. -/
  | loadProgram (p : Packet)
  /-- LAUNCH (R102): Command that runs a stream of a loaded bank on each named team. -/
  | launch (p : Packet)
  /-- TABLE_CREATE (R287): Command that creates a table or its pending version and fills it from INIT or with zeros, block-marked. -/
  | tableCreate (p : Packet)
  /-- TABLE_REPLACE (R306): Command that pauses a table's requests, optionally copies a packed image and flips the table to a new version. -/
  | tableReplace (p : Packet)
  /-- GRAPH_LOAD (R253): Command that checks a graph image, builds PREFIX, writes the header results and registers the graph. -/
  | graphLoad (p : Packet)
  /-- CONTEXT_CREATE (R446): Command that creates a working context as RUNNING or PREEMPTED and allocates its save areas. -/
  | contextCreate (p : Packet)
  /-- CONTEXT_PREEMPT (R450): Command that places a pre-emption point for a target context, which is then quiesced and saved. -/
  | contextPreempt (p : Packet)
  /-- CONTEXT_RESUME (R452): Command that restores a pre-empted context once its AT has passed and its teams are free. -/
  | contextResume (p : Packet)
  /-- CONTEXT_DESTROY (R370): Command that applies the reset steps to a target context, frees its hub objects and ends it. -/
  | contextDestroy (p : Packet)
  /-- CONTEXT_RESET (R369): Command that stops a target context at once, poisons its objects and abandons its uncompleted commands. -/
  | contextReset (p : Packet)
  /-- SNAPSHOT (R418): Command that places a snapshot of the context at a round boundary and writes the image to DEST. -/
  | snapshot (p : Packet)
  /-- RESTORE (R420): Command that writes a snapshot image back into a context and clears FAULTED. -/
  | restore (p : Packet)
  /-- SCHEDULE_LOAD (R61): Command that checks and copies a schedule image and makes it the pending schedule. -/
  | scheduleLoad (p : Packet)
  /-- ROLE_ASSIGN (R379): Command that binds a postcode with an epoch and a port mask to a fabric context. -/
  | roleAssign (p : Packet)
  /-- SPARE_ARM (R422): Command that arms or disarms the module as hot spare for a postcode after a recovery audit. -/
  | spareArm (p : Packet)
  /-- TAKEOVER (R424): Command that takes over a role on demand with a new epoch and joins it by copying state. -/
  | takeover (p : Packet)
  /-- FRANK_READ (R456): Command that writes a 64-byte franking record of a tenant and period to host memory. -/
  | frankRead (p : Packet)
  /-- SELFTEST (R499): Command that runs self-test vectors at a level on free teams and retires failing units. -/
  | selftest (p : Packet)
  /-- UNLISTED_OPCODE_PACKET (R86): A packet whose OPCODE is not in the opcode table is answered REJECTED with BAD_OPCODE. -/
  | unlistedOpcodePacket (opcode : W16) (p : Packet)
  /-- SET_LAYOUT (R442): Signed postmaster request that changes the partition layout when no working context exists. -/
  | setLayout (path : ReqPath) (p : Packet) (verified : Bool)
  /-- SET_ISO (R444): Signed postmaster request that writes ISO_A and ISO_B of a virtual function. -/
  | setIso (path : ReqPath) (p : Packet) (verified : Bool)
  /-- SET_POOL (R448): Signed postmaster request that sets the save pool size of one die. -/
  | setPool (path : ReqPath) (p : Packet) (verified : Bool)
  /-- SET_LIMITS (R461): Signed postmaster request that sets TJ_LIMIT, VIN_MIN and VIN_MAX at once. -/
  | setLimits (path : ReqPath) (p : Packet) (verified : Bool)
  /-- SET_TIME (R461): Signed postmaster request that sets the time role, source and epoch for later resets. -/
  | setTime (path : ReqPath) (p : Packet) (verified : Bool)
  /-- SET_KEY (R461): Signed postmaster request that installs an operator key with rights in slot 1 to 3 and zeroes its counter. -/
  | setKey (path : ReqPath) (p : Packet) (verified : Bool)
  /-- REVOKE_KEY (R461): Signed postmaster request that clears VALID of an operator key slot. -/
  | revokeKey (path : ReqPath) (p : Packet) (verified : Bool)
  /-- STAGE_FIRMWARE (R501): Signed postmaster request that verifies and writes a firmware image to the bank not running. -/
  | stageFirmware (path : ReqPath) (p : Packet) (verified : Bool)
  /-- UNKNOWN_POSTMASTER_OP (R461): A verified postmaster request with an unknown OP or wrong BODY_LEN completes with result code 1. -/
  | unknownPostmasterOp (path : ReqPath) (p : Packet) (verified : Bool)
  /-- COMMAND_START (R93): An accepted command starts once the earlier commands of its context have started or completed, as SERIAL requires. -/
  | commandStart (ctx : W32) (seq : W64)
  /-- COMMAND_COMPLETE (R94): A command's completion is recorded in the ledger and its COMPLETE reply is written in SEQ order. -/
  | commandComplete (ctx : W32) (seq : W64)
  /-- TRANSLATION_COMPLETE (R135): Loading of a bank ends; a LAUNCH that waited for it is checked and proceeds or completes with BAD_PARAM. -/
  | translationComplete (ctx : W32) (seq : W64)
  /-- KERNEL_END (R123): A team's kernel ends when END has issued and every unit of every core has drained. -/
  | kernelEnd (team : Nat)
  /-- SQ_CFG_ENABLE (R77): Write of SQ_CFG.ENABLE that starts intake with SQ_HEAD at 0 or stops it after the packet in hand. -/
  | sqCfgEnable (fn : Nat) (value : W64)
  /-- SQ_DOORBELL (R78): Write of the host's tail index that announces packets or sets SQ_ERROR and clears ENABLE. -/
  | sqDoorbell (fn : Nat) (value : W64)
  /-- RQ_CFG_ENABLE (R77): Write of RQ_CFG.ENABLE that starts reply writing and writes held replies, or stops it. -/
  | rqCfgEnable (fn : Nat) (value : W64)
  /-- RQ_CONSUMED (R78): Write of the host's reply consumption index that frees reply entries or sets RQ_ERROR. -/
  | rqConsumed (fn : Nat) (value : W64)
  /-- LB_STATUS_READ (R77): Read of LB_STATUS that returns and clears the RC error flags. -/
  | lbStatusRead (fn : Nat)
  /-- SC_SELECT (R201): Write of SC_SELECT that latches the eight status counters of the named context at one instant. -/
  | scSelect (who : Nat) (value : W64)
  /-- PEND_WRITE (R471): Write of PEND g that stores each bit from the value, or from the value or the latched set under a mask. -/
  | pendWrite (fn g : Nat) (value : W32)
  /-- MASK_WRITE (R469): Write of MASK g that can turn the summary from 0 to 1 and send a message. -/
  | maskWrite (fn g : Nat) (value : W32)
  /-- REARM (R470): Write of 1 to REARM that sends a message when the destination's summary is 1. -/
  | rearm (fn : Nat) (value : W64)
  /-- SRC_STATE_READ (R474): Read of SRC_STATE g that returns and clears the STORM and STUCK flags. -/
  | srcStateRead (who g : Nat)
  /-- DLQ_POP (R410): Write of 1 to DLQ_POP that removes the oldest dead-letter queue entry. -/
  | dlqPop (who : Nat) (value : W64)
  /-- PWR_STATUS_READ (R506): Read of PWR_STATUS that returns and clears SLEEP_REFUSED. -/
  | pwrStatusRead (who : Nat)
  /-- SLEEP_REQUEST (R490): Write of PWR_CTRL.SLEEP: 1 requests SLEEP and 0 requests wake. -/
  | sleepRequest (who : Nat) (value : W64)
  /-- RESET (R505): Write of PWR_CTRL.RESET with KEY 0xD1 that starts an orderly module reset. -/
  | reset (who : Nat) (value : W64)
  /-- REGISTER_WRITE (R10): Write to a register field without behaviour of its own, stored, clamped or ignored by access code. -/
  | registerWrite (who offset width : Nat) (value : W64)
  /-- LOW_HALF_READ (R14): 32-bit read of bits [31:0] that copies bits [63:32] into the requester's shadow. -/
  | lowHalfRead (who offset : Nat)
  /-- HIGH_HALF_READ (R14): 32-bit read of bits [63:32] that returns and uses up the shadow or returns the live upper half. -/
  | highHalfRead (who offset : Nat)
  /-- BAR0_INVALID_ACCESS (R511): A BAR0 access of bad length, alignment, AtomicOp or outside the view is dropped and counted. -/
  | bar0InvalidAccess (who offset len : Nat) (kind : AccessKind)
  /-- BAR2_READ (R515): Host read through BAR2 translated to STACK addresses, with zeros for unreachable bytes. -/
  | bar2Read (fn offset len : Nat)
  /-- BAR2_WRITE (R516): Host write through BAR2 translated to STACK addresses, dropping unreachable bytes. -/
  | bar2Write (fn offset : Nat) (data : List Byte)
  /-- FUNCTION_LEVEL_RESET (R95): A PCIe function level reset disables the function's rings, resets its contexts and its bank. -/
  | functionLevelReset (fn : Nat)
  /-- READ64 (R530): I3C vendor message that reads a 64-bit register in the I3C column. -/
  | read64 (offset : Nat)
  /-- WRITE64 (R530): I3C vendor message that writes a 64-bit register in the I3C column. -/
  | write64 (offset : Nat) (value : W64)
  /-- READ32 (R530): I3C vendor message that reads one 32-bit half of a register using the I3C shadow. -/
  | read32 (offset : Nat)
  /-- MCTP_CONTROL (R529): MCTP control message for endpoint discovery and identification. -/
  | mctpControl (request : List Byte)
  /-- PLDM (R529): PLDM message for discovery or numeric sensor monitoring. -/
  | pldm (kind : Byte) (sensor : Nat)
  /-- DYNAMIC_ADDRESS_ASSIGN (R529): I3C SETDASA or ENTDAA that gives the target a dynamic address. -/
  | dynamicAddressAssign (address : BitVec 7)
  /-- NOP_INSTRUCTION (R150): Lumfy NOP with no effect. -/
  | nopInstruction (team : Nat) (x : Args)
  /-- END (R123): Lumfy END that ends the stream in the team. -/
  | endI (team : Nat) (x : Args)
  /-- BR (R150): Unconditional branch to a target index. -/
  | br (team : Nat) (x : Args)
  /-- BR_ANY (R108): Branch taken when the predicate is true in at least one active core. -/
  | brAny (team : Nat) (x : Args)
  /-- BR_ALL (R108): Branch taken when the predicate is true in every active core. -/
  | brAll (team : Nat) (x : Args)
  /-- LOOP (R109): Counted loop entry that sets the team trip count from the count registers. -/
  | loop (team : Nat) (x : Args)
  /-- ENDLOOP (R109): End of a loop body that starts the next iteration or leaves the loop. -/
  | endloop (team : Nat) (x : Args)
  /-- STATPTR (R144): Loads the core's status record pointer. -/
  | statptr (team : Nat) (x : Args)
  /-- PMREAD (R150): Reads the postmark at issue into a scalar register. -/
  | pmread (team : Nat) (x : Args)
  /-- MOV (R150): Scalar move. -/
  | mov (team : Nat) (x : Args)
  /-- MOVHI (R150): Sets bits [63:48] of a scalar register. -/
  | movhi (team : Nat) (x : Args)
  /-- LDC (R150): Loads a u64 from the bank's constants. -/
  | ldc (team : Nat) (x : Args)
  /-- LD (R151): Loads a scalar from CORE memory. -/
  | ld (team : Nat) (x : Args)
  /-- ST (R151): Stores a scalar to CORE memory. -/
  | st (team : Nat) (x : Args)
  /-- ADD (R150): Scalar add mod 2^64. -/
  | add (team : Nat) (x : Args)
  /-- SUB (R150): Scalar subtract mod 2^64. -/
  | sub (team : Nat) (x : Args)
  /-- MUL (R150): Low 64 bits of a scalar product. -/
  | mul (team : Nat) (x : Args)
  /-- MULHI_S (R150): High 64 bits of a signed scalar product. -/
  | mulhiS (team : Nat) (x : Args)
  /-- MULHI_U (R150): High 64 bits of an unsigned scalar product. -/
  | mulhiU (team : Nat) (x : Args)
  /-- DIV_U (R150): Unsigned scalar division. -/
  | divU (team : Nat) (x : Args)
  /-- REM_U (R150): Unsigned scalar remainder. -/
  | remU (team : Nat) (x : Args)
  /-- AND (R150): Scalar bitwise AND. -/
  | andI (team : Nat) (x : Args)
  /-- OR (R150): Scalar bitwise OR. -/
  | orI (team : Nat) (x : Args)
  /-- XOR (R150): Scalar bitwise XOR. -/
  | xorI (team : Nat) (x : Args)
  /-- SHL (R150): Scalar shift left. -/
  | shl (team : Nat) (x : Args)
  /-- SHR (R150): Scalar logical shift right. -/
  | shr (team : Nat) (x : Args)
  /-- SAR (R150): Scalar arithmetic shift right. -/
  | sar (team : Nat) (x : Args)
  /-- MIN_S (R150): Signed scalar minimum. -/
  | minS (team : Nat) (x : Args)
  /-- MIN_U (R150): Unsigned scalar minimum. -/
  | minU (team : Nat) (x : Args)
  /-- MAX_S (R150): Signed scalar maximum. -/
  | maxS (team : Nat) (x : Args)
  /-- MAX_U (R150): Unsigned scalar maximum. -/
  | maxU (team : Nat) (x : Args)
  /-- CMP_EQ (R150): Sets a predicate on scalar equality. -/
  | cmpEq (team : Nat) (x : Args)
  /-- CMP_NE (R150): Sets a predicate on scalar inequality. -/
  | cmpNe (team : Nat) (x : Args)
  /-- CMP_LT (R150): Sets a predicate on signed less-than. -/
  | cmpLt (team : Nat) (x : Args)
  /-- CMP_LE (R150): Sets a predicate on signed less-or-equal. -/
  | cmpLe (team : Nat) (x : Args)
  /-- CMP_LTU (R150): Sets a predicate on unsigned less-than. -/
  | cmpLtu (team : Nat) (x : Args)
  /-- CMP_LEU (R150): Sets a predicate on unsigned less-or-equal. -/
  | cmpLeu (team : Nat) (x : Args)
  /-- FADD (R151): Scalar floating-point add. -/
  | fadd (team : Nat) (x : Args)
  /-- FSUB (R151): Scalar floating-point subtract. -/
  | fsub (team : Nat) (x : Args)
  /-- FMUL (R151): Scalar floating-point multiply. -/
  | fmul (team : Nat) (x : Args)
  /-- FMA (R151): Scalar fused multiply-add with one rounding. -/
  | fma (team : Nat) (x : Args)
  /-- FMIN (R151): Scalar floating-point minimum. -/
  | fmin (team : Nat) (x : Args)
  /-- FMAX (R151): Scalar floating-point maximum. -/
  | fmax (team : Nat) (x : Args)
  /-- ITOF (R151): Converts a signed 64-bit integer to float. -/
  | itof (team : Nat) (x : Args)
  /-- FTOI (R150): Converts a float to a saturated signed 64-bit integer. -/
  | ftoi (team : Nat) (x : Args)
  /-- FCMP_EQ (R150): Sets a predicate on floating-point equality. -/
  | fcmpEq (team : Nat) (x : Args)
  /-- FCMP_LT (R150): Sets a predicate on floating-point less-than. -/
  | fcmpLt (team : Nat) (x : Args)
  /-- FCMP_LE (R150): Sets a predicate on floating-point less-or-equal. -/
  | fcmpLe (team : Nat) (x : Args)
  /-- PAND (R150): Predicate AND. -/
  | pand (team : Nat) (x : Args)
  /-- POR (R150): Predicate OR. -/
  | por (team : Nat) (x : Args)
  /-- PXOR (R150): Predicate XOR. -/
  | pxor (team : Nat) (x : Args)
  /-- PNOT (R150): Predicate NOT. -/
  | pnot (team : Nat) (x : Args)
  /-- PSET (R150): Sets a predicate from a scalar being non-zero. -/
  | pset (team : Nat) (x : Args)
  /-- PGET (R150): Reads a predicate into a scalar as 1 or 0. -/
  | pget (team : Nat) (x : Args)
  /-- CSET (R150): Sets a count register from a scalar. -/
  | cset (team : Nat) (x : Args)
  /-- CGET (R150): Reads a count register into a scalar. -/
  | cget (team : Nat) (x : Args)
  /-- DESC (R153): Loads a bank tile descriptor into a tile register. -/
  | desc (team : Nat) (x : Args)
  /-- TSETBASE (R153): Sets a descriptor's BASE. -/
  | tsetbase (team : Nat) (x : Args)
  /-- TADDBASE (R153): Adds to a descriptor's BASE. -/
  | taddbase (team : Nat) (x : Args)
  /-- TSETDIM (R153): Sets a descriptor's rows and columns. -/
  | tsetdim (team : Nat) (x : Args)
  /-- TSETSTRIDE (R153): Sets a descriptor's STRIDE. -/
  | tsetstride (team : Nat) (x : Args)
  /-- TSETTYPE (R153): Sets a descriptor's TYPE. -/
  | tsettype (team : Nat) (x : Args)
  /-- TGETBASE (R152): Reads a descriptor's BASE into a scalar. -/
  | tgetbase (team : Nat) (x : Args)
  /-- TFLIP (R153): Makes a transposed descriptor of the same bytes. -/
  | tflip (team : Nat) (x : Args)
  /-- TCOPY (R153): Tile mover copy of a tile between memory spaces. -/
  | tcopy (team : Nat) (x : Args)
  /-- TFILL (R153): Tile mover fill of every element of a tile. -/
  | tfill (team : Nat) (x : Args)
  /-- MMA (R156): Matrix product into a D tile, replacing or accumulating. -/
  | mma (team : Nat) (x : Args)
  /-- MMA_DRV (R315): Matrix product with a derivative applied in the drain. -/
  | mmaDrv (team : Nat) (x : Args)
  /-- MMA_ACS (R156): Matrix product added into A40 words of the accumulation store. -/
  | mmaAcs (team : Nat) (x : Args)
  /-- ACS_READ (R156): Reads accumulation store words into a tile, optionally clearing them. -/
  | acsRead (team : Nat) (x : Args)
  /-- ACS_ZERO (R156): Zeroes a range of accumulation store words. -/
  | acsZero (team : Nat) (x : Args)
  /-- TILE_QUEUE_DRAIN (R207): A matrix result's last element reaches CORE and its tile queue entry leaves, releasing waiting readers. -/
  | tileQueueDrain (team core : Nat)
  /-- VADD (R229): Element-wise vector add. -/
  | vadd (team : Nat) (x : Args)
  /-- VSUB (R229): Element-wise vector subtract. -/
  | vsub (team : Nat) (x : Args)
  /-- VMUL (R229): Element-wise vector multiply. -/
  | vmul (team : Nat) (x : Args)
  /-- VDIV (R229): Element-wise vector divide in the transcendental unit. -/
  | vdiv (team : Nat) (x : Args)
  /-- VMAX (R231): Element-wise vector maximum. -/
  | vmax (team : Nat) (x : Args)
  /-- VMIN (R231): Element-wise vector minimum. -/
  | vmin (team : Nat) (x : Args)
  /-- VFMA (R229): Element-wise vector fused multiply-add. -/
  | vfma (team : Nat) (x : Args)
  /-- VAND (R232): Element-wise bitwise AND. -/
  | vand (team : Nat) (x : Args)
  /-- VOR (R232): Element-wise bitwise OR. -/
  | vor (team : Nat) (x : Args)
  /-- VXOR (R232): Element-wise bitwise XOR. -/
  | vxor (team : Nat) (x : Args)
  /-- VSHL (R232): Element-wise integer shift left. -/
  | vshl (team : Nat) (x : Args)
  /-- VSHR (R232): Element-wise integer shift right. -/
  | vshr (team : Nat) (x : Args)
  /-- VNEG (R232): Element-wise negation. -/
  | vneg (team : Nat) (x : Args)
  /-- VABS (R232): Element-wise absolute value. -/
  | vabs (team : Nat) (x : Args)
  /-- VSQRT (R236): Element-wise square root. -/
  | vsqrt (team : Nat) (x : Args)
  /-- VRSQRT (R236): Element-wise reciprocal square root. -/
  | vrsqrt (team : Nat) (x : Args)
  /-- VRCP (R236): Element-wise reciprocal. -/
  | vrcp (team : Nat) (x : Args)
  /-- VEXP (R236): Element-wise exponential. -/
  | vexp (team : Nat) (x : Args)
  /-- VLOG (R236): Element-wise natural logarithm. -/
  | vlog (team : Nat) (x : Args)
  /-- VTANH (R236): Element-wise hyperbolic tangent. -/
  | vtanh (team : Nat) (x : Args)
  /-- VSIGMOID (R236): Element-wise logistic sigmoid. -/
  | vsigmoid (team : Nat) (x : Args)
  /-- VGELU (R236): Element-wise GELU in the erf form. -/
  | vgelu (team : Nat) (x : Args)
  /-- VSILU (R236): Element-wise SiLU. -/
  | vsilu (team : Nat) (x : Args)
  /-- VRELU (R236): Element-wise rectifier. -/
  | vrelu (team : Nat) (x : Args)
  /-- VLRELU (R236): Element-wise leaky rectifier with a binary32 slope. -/
  | vlrelu (team : Nat) (x : Args)
  /-- VCVT (R184): Element-wise conversion, including quantisation to block types. -/
  | vcvt (team : Nat) (x : Args)
  /-- VCMP_EQ (R231): Element-wise equality into a MASK1 tile. -/
  | vcmpEq (team : Nat) (x : Args)
  /-- VCMP_LT (R231): Element-wise less-than into a MASK1 tile. -/
  | vcmpLt (team : Nat) (x : Args)
  /-- VCMP_LE (R231): Element-wise less-or-equal into a MASK1 tile. -/
  | vcmpLe (team : Nat) (x : Args)
  /-- VSEL (R160): Element-wise select between two tiles by a mask tile. -/
  | vsel (team : Nat) (x : Args)
  /-- VRAND (R261): Fills a tile with generator words or unit floats from a user stream. -/
  | vrand (team : Nat) (x : Args)
  /-- VDROPOUT (R239): Applies dropout with stream 0x002 and writes the kept mask. -/
  | vdropout (team : Nat) (x : Args)
  /-- VRED_ADD (R246): Column sum reduction into a 1 x n tile. -/
  | vredAdd (team : Nat) (x : Args)
  /-- VRED_MAX (R246): Column maximum reduction into a 1 x n tile. -/
  | vredMax (team : Nat) (x : Args)
  /-- VRED_MIN (R246): Column minimum reduction into a 1 x n tile. -/
  | vredMin (team : Nat) (x : Args)
  /-- SCAN (R241): Column scan with an operator, carry-in and carry-out. -/
  | scan (op : ScanOp) (team : Nat) (x : Args)
  /-- SEGSCAN (R241): Segmented column scan reset at head rows. -/
  | segscan (op : ScanOp) (team : Nat) (x : Args)
  /-- SEGRED (R246): Segmented column reduction over offset ranges, including MEAN. -/
  | segred (op : RedOp) (team : Nat) (x : Args)
  /-- GATHER_ROWS (R212): Gathers rows of a CORE tile through an index tile. -/
  | gatherRows (team : Nat) (x : Args)
  /-- GATHER_STAGED (R212): Gathers staged row slices through local indices and a row handle. -/
  | gatherStaged (team : Nat) (x : Args)
  /-- GATHER_EDGE (R214): Walks a parcel layer's edge list and gathers staged endpoint rows with heads and offsets. -/
  | gatherEdge (team : Nat) (x : Args)
  /-- GATHER_ROUTE (R215): Walks a layer's return route and gathers window rows in source order. -/
  | gatherRoute (team : Nat) (x : Args)
  /-- MERGE_BSR (R225): Produces a DENSE, VALUES or SLOTMASK tile for the chunk at a block cursor. -/
  | mergeBsr (team : Nat) (x : Args)
  /-- MASK_BIND (R219): Binds a block-sparse mask description to a mask slot and builds its indices. -/
  | maskBind (team : Nat) (x : Args)
  /-- SAMPLE_UNIFORM (R265): Team request to draw a parcel by uniform sampling without replacement. -/
  | sampleUniform (team : Nat) (x : Args)
  /-- SAMPLE_WEIGHTED (R266): Team request to draw a parcel by weighted sampling with replacement. -/
  | sampleWeighted (team : Nat) (x : Args)
  /-- SAMPLE_RECENT (R267): Team request to draw a parcel of the latest events before TIME. -/
  | sampleRecent (team : Nat) (x : Args)
  /-- SAMPLE_WALK (R268): Team request to draw random walks into a walk table. -/
  | sampleWalk (team : Nat) (x : Args)
  /-- PARCEL_INFO (R275): Returns a field of a parcel selected by IMM. -/
  | parcelInfo (team : Nat) (x : Args)
  /-- PARCEL_FREE (R276): Frees a parcel slot once earlier gathers complete, or when the parcel completes. -/
  | parcelFree (team : Nat) (x : Args)
  /-- TBL_PREFETCH (R289): Team request to stage row slices of a table into cluster memory and return a row handle. -/
  | tblPrefetch (team : Nat) (x : Args)
  /-- TBL_RELEASE (R293): Releases a row handle once earlier gathers and its staging complete. -/
  | tblRelease (team : Nat) (x : Args)
  /-- TBL_VERSION (R305): Returns a table's version, stripe count and mirror state. -/
  | tblVersion (team : Nat) (x : Args)
  /-- UPD_TENSOR (R332): Team request to apply an optimiser rule to a state tensor. -/
  | updTensor (team : Nat) (x : Args)
  /-- UPD_ROWS (R302): Team request that joins an update set of coalesced embedding-row updates. -/
  | updRows (team : Nat) (x : Args)
  /-- UPD_NORM (R338): Computes the squared norm of a gradient shard. -/
  | updNorm (team : Nat) (x : Args)
  /-- SIGNAL_ADD (R355): Adds n to a counter object and evaluates its watches. -/
  | signalAdd (team : Nat) (x : Args)
  /-- SIGNAL_SUB (R355): Subtracts n from a counter object and evaluates its watches. -/
  | signalSub (team : Nat) (x : Args)
  /-- SYNC_INIT (R356): Sets a counter value or a barrier count, clears poisoning, and claims a free hub object. -/
  | syncInit (team : Nat) (x : Args)
  /-- WATCH_GE (R358): Registers a watch released when the counter is at least n. -/
  | watchGe (team : Nat) (x : Args)
  /-- WATCH_EQ (R358): Registers a watch released when the counter equals n. -/
  | watchEq (team : Nat) (x : Args)
  /-- WATCH_CLAIM (R358): Registers a claim that takes n units in registration order. -/
  | watchClaim (team : Nat) (x : Args)
  /-- FENCE_LOCAL (R364): Waits until earlier writes of the core are visible within the core. -/
  | fenceLocal (team : Nat) (x : Args)
  /-- FENCE_MODULE (R364): Waits until earlier writes of the core are visible within the module. -/
  | fenceModule (team : Nat) (x : Args)
  /-- FENCE_FABRIC (R364): Waits until earlier writes of the core are visible across the fabric context. -/
  | fenceFabric (team : Nat) (x : Args)
  /-- COMMIT_ARRIVE (R361): Sends an arrival with its record to the commit barrier's home and waits for the release. -/
  | commitArrive (team : Nat) (x : Args)
  /-- COLL_REDSCAT (R402): Starts a reduce-scatter collective. -/
  | collRedscat (team : Nat) (x : Args)
  /-- COLL_ALLGATHER (R402): Starts an all-gather collective. -/
  | collAllgather (team : Nat) (x : Args)
  /-- COLL_ALLREDUCE (R402): Starts an all-reduce collective. -/
  | collAllreduce (team : Nat) (x : Args)
  /-- COLL_BCAST (R402): Starts a broadcast collective. -/
  | collBcast (team : Nat) (x : Args)
  /-- COLL_HALO (R404): Starts a halo exchange of listed transfers. -/
  | collHalo (team : Nat) (x : Args)
  /-- COLLECTIVE_COMPLETE (R403): A collective ends, its result or status is written to D and a waiting collective may begin. -/
  | collectiveComplete (role : W16) (number : W32)
  /-- SAMPLER_TAKE_REQUEST (R263): The sampler takes the next queued request, checks it and begins a parcel or does not act. -/
  | samplerTakeRequest (team : Nat)
  /-- PARCEL_COMPLETE (R274): A parcel's arrays and header are written and DONE is signalled. -/
  | parcelComplete (team : Nat)
  /-- STAGING_START (R294): The row engine takes the prefetch request with the earliest deadline and starts staging. -/
  | stagingStart (team : Nat)
  /-- STAGING_COMPLETE (R292): Staging of a row handle ends; drops are counted and DONE is signalled. -/
  | stagingComplete (team slot : Nat)
  /-- UPDATE_REQUEST_BEGIN (R341): An update request begins once taken and its release or update set is in hand, computing its scale. -/
  | updateRequestBegin (team : Nat)
  /-- UPDATE_REQUEST_COMPLETE (R303): An update request or set has written every range and had mirror writes acknowledged, and signals DONE. -/
  | updateRequestComplete (team : Nat)
  /-- PLACEMENT_WINDOW_END (R297): A cluster's lookup window count expires and the placement loop selects promotions and demotions. -/
  | placementWindowEnd (team : Nat) (choice : PlaceChoice)
  /-- MIGRATION_DRAINED (R298): In-flight slot writes of a migrating row complete and the copy begins. -/
  | migrationDrained (team : Nat)
  /-- MIGRATION_SWAPPED (R298): A migration's copy ends, the address entry flips and queued writes are applied or discarded. -/
  | migrationSwapped (team : Nat)
  /-- TABLE_REPLACE_FLIP (R306): After started requests drain and any copy ends, a table flips to its new version and queued requests resume. -/
  | tableReplaceFlip (ctx : W32) (table : Nat)
  /-- TIME_FRAME (R48): A time frame received on a port drives the discipline loop, lock, slewing and master choice. -/
  | timeFrame (port : Nat) (frame : TimeFrame)
  /-- TIME_FRAME_SEND (R48): Every 1,024 ns the module sends a time frame with role advertisements on each port. -/
  | timeFrameSend
  /-- LOCK_LOSS (R57): No valid time frame for 10 µs, or excess offset, takes the unit into HOLDOVER. -/
  | lockLoss (cause : LossCause)
  /-- MASTER_TIMEOUT (R50): A backup master hearing no primary frame for 20 µs takes over as master. -/
  | masterTimeout
  /-- PPS_EDGE (R49): A pulse-per-second rising edge sets the counter on an EXTERNAL master and latches PPS. -/
  | ppsEdge
  /-- REFERENCE_LOSS (R528): The 10 MHz or pulse-per-second reference times out and REF_PRESENT clears. -/
  | referenceLoss (cause : RefCause)
  /-- ROUND_BOUNDARY (R60): A round of the active schedule begins. -/
  | roundBoundary
  /-- SCHEDULE_ACTIVATE (R62): At START the pending schedule becomes active, or a late one completes with NO_TIME. -/
  | scheduleActivate
  /-- SLOT_SEND (R390): A SEND entry's slot begins and the oldest queued mailbag of its channel is sent. -/
  | slotSend (entry : Nat)
  /-- BARRIER_RELEASE (R363): At the release postmark every arrival of the release completes with G2 and N. -/
  | barrierRelease (index : Nat)
  /-- PREFETCH_DEADLINE (R294): A staging deadline passes; an incomplete staging counts a late event. -/
  | prefetchDeadline (team slot : Nat)
  /-- SNAPSHOT_START (R418): A snapshot starts at its round boundary and stops the context. -/
  | snapshotStart (ctx : W32)
  /-- SNAPSHOT_COMPLETE (R419): A snapshot image is complete, a record is made and fabric covers receive the header. -/
  | snapshotComplete (ctx : W32)
  /-- FRANKING_BOUNDARY (R455): At each hour boundary every function's counts are closed into a period record written to flash. -/
  | frankingBoundary
  /-- PREEMPTION_POINT (R450): At the pre-emption point issue stops in the target's teams. -/
  | preemptionPoint (ctx : W32)
  /-- QUIESCE_TIMEOUT (R368): A fabric context reaches no quiescent boundary within TIMEOUT_US; the pre-emption completes NOT_QUIESCENT. -/
  | quiesceTimeout (ctx : W32)
  /-- PREEMPT_SAVE_COMPLETE (R450): Quiesce ends, saved state is written, the context becomes PREEMPTED and its teams free. -/
  | preemptSaveComplete (ctx : W32)
  /-- RESUME_RESTORE (R452): Once AT has passed and the teams are free, the saved state is restored and issue continues. -/
  | resumeRestore (ctx : W32)
  /-- FRAME_FORWARD (R383): An unscheduled frame arrives at a hop and is forwarded toward its destination postcode. -/
  | frameForward (port : Nat) (frame : Frame)
  /-- SYNC_OPERATION_FRAME (R354): A sync operation frame is applied at the object's unit on the holding module. -/
  | syncOperationFrame (port : Nat) (frame : Frame)
  /-- SYNC_REPLY_FRAME (R363): A sync reply or barrier release frame reaches the issuing module and completes the operation. -/
  | syncReplyFrame (port : Nat) (frame : Frame)
  /-- BARRIER_ARRIVAL (R362): An arrival reaches the barrier's home, joins the tally and at E triggers check and release placement. -/
  | barrierArrival (index : Nat)
  /-- FABRIC_WRITE_FRAME (R115): A FABRIC write frame is written into the destination context's region. -/
  | fabricWriteFrame (port : Nat) (frame : Frame)
  /-- FABRIC_READ_REQUEST (R115): A FABRIC read request is served from the destination region. -/
  | fabricReadRequest (port : Nat) (frame : Frame)
  /-- FABRIC_READ_DATA (R115): FABRIC read data returns to the issuing core. -/
  | fabricReadData (port : Nat) (frame : Frame)
  /-- MIRROR_WRITE (R304): A mirror write is written at the same row of the buddy's mirror table. -/
  | mirrorWrite (port : Nat) (frame : Frame)
  /-- MIRROR_WRITE_ACK (R304): A mirror write acknowledgement arrives, releasing held arrivals and update completions. -/
  | mirrorWriteAck (port : Nat) (frame : Frame)
  /-- DIVERTED_MAILBAG_PART (R396): A part of a diverted mailbag arrives and is reassembled and delivered. -/
  | divertedMailbagPart (port : Nat) (frame : Frame)
  /-- MAILBAG_ACKNOWLEDGEMENT (R394): A mailbag acknowledgement or negative acknowledgement frees retention or triggers a resend. -/
  | mailbagAcknowledgement (port : Nat) (frame : Frame)
  /-- COLLECTIVE_CONTROL (R399): A collective control message arrives and is matched, including the parameter CRC check. -/
  | collectiveControl (port : Nat) (frame : Frame)
  /-- RETURNED_FRAME (R386): A returned frame reaches its sender and the original operation is resolved. -/
  | returnedFrame (port : Nat) (frame : Frame)
  /-- FLOW_BREAK (R384): A flow gap unfilled for 1 ms breaks the flow and parks held frames. -/
  | flowBreak (src dest : W16)
  /-- MAILBAG_ARRIVE (R391): A scheduled mailbag arrives and is delivered, cut through, or diverted. -/
  | mailbagArrive (port : Nat) (bag : Mailbag) (corrected damaged : Bool)
  /-- MAILBAG_RESEND_TIMEOUT (R394): A mailbag still unacknowledged 4 rounds after sending is resent as diverted. -/
  | mailbagResendTimeout (channel : W16) (chanSeq : W32)
  /-- ROLE_ADVERTISEMENT (R381): A role advertisement is received, updating routes and any LOST or covered state. -/
  | roleAdvertisement (port : Nat) (advert : Advert)
  /-- ROLE_LOSS_TIMEOUT (R423): A neighbour hears nothing from a holder for 2L or 16 µs and declares its roles LOST. -/
  | roleLossTimeout (postcode : W16)
  /-- AUTO_TAKEOVER (R424): A covering module, once LOCKED, takes a lost role with epoch e + 1. -/
  | autoTakeover (postcode : W16)
  /-- JOIN_RELEASE_RECEIVED (R426): A new holder receives its join release and begins copying its ranges. -/
  | joinReleaseReceived (postcode : W16) (release : Release)
  /-- TAKEOVER_COPY_COMPLETE (R426): The new holder's copy ends and it enters JOINED with J and CURSOR_J. -/
  | takeoverCopyComplete (copies : List (List Byte)) (failed : Bool)
  /-- HOME_RELAY_WINDOW_END (R430): The 100 µs relay window of a new barrier home ends and it adopts a release or issues VOID. -/
  | homeRelayWindowEnd (index : Nat)
  /-- SNAPSHOT_RECORD_RECEIVED (R421): An armed module receives a snapshot header and stream table for a covered postcode. -/
  | snapshotRecordReceived (postcode : W16) (header streams : List Byte)
  /-- PORT_PARTNER_DETECT (R374): A link partner appears on a port and training begins. -/
  | portPartnerDetect (port : Nat)
  /-- TRAINING_COMPLETE (R374): Port training ends in UP with delay calibrated, or fails to DOWN. -/
  | trainingComplete (port : Nat) (result : TrainResult)
  /-- PORT_PARTNER_LOSS (R376): A port leaves UP and its traffic is retried, rerouted or diverted. -/
  | portPartnerLoss (port : Nat)
  /-- ROUTE_CHANGE (R376): Recomputed routes take effect and waiting frames proceed. -/
  | routeChange (postcode : W16) (port : Nat)
  /-- LANE_RETIRE (R375): A lane exceeding its error ratio or losing signal is retired, swapped to the spare or the port goes OUT. -/
  | laneRetire (port lane : Nat)
  /-- SWAP_COMPLETE (R375): The spare lane carries the retired lane's traffic and the port returns to UP. -/
  | swapComplete (port : Nat)
  /-- CARTRIDGE_FAIL (R377): A laser cartridge fails or is removed and the other takes all the light. -/
  | cartridgeFail (cartridge : Nat)
  /-- CARTRIDGE_INSERT (R377): A laser cartridge is inserted and its check begins. -/
  | cartridgeInsert (cartridge : Nat)
  /-- CARTRIDGE_READY (R377): An inserted cartridge reaches half load and CARTn_OK is set. -/
  | cartridgeReady (cartridge : Nat)
  /-- CORE_FAULT (R36): An uncorrectable core error leads to a recovery audit and the spare core taking the name. -/
  | coreFault (team core : Nat)
  /-- CLUSTER_FAULT (R37): A cluster is taken out of service after a second core fault or an uncorrectable cluster error. -/
  | clusterFault (team : Nat)
  /-- RECOVERY_AUDIT_COMPLETE (R414): A recovery audit ends; the spare enters service or the cluster goes out of service. -/
  | recoveryAuditComplete (team : Nat) (passed : Bool)
  /-- PSEUDO_CHANNEL_FAULT (R413): A failed pseudo-channel is rebuilt from check bits and its spare fill begins. -/
  | pseudoChannelFault (stack : Nat)
  /-- SPARE_FILL_COMPLETE (R413): The spare pseudo-channel fill ends and the spare is in service. -/
  | spareFillComplete (stack : Nat)
  /-- STACK_FAULT (R412): A stack is taken out of service and its contexts and journal copy are handled. -/
  | stackFault (stack : Nat) (cause : StackCause)
  /-- JOURNAL_REBUILD_COMPLETE (R97): A rebuilt journal copy is complete and intake resumes. -/
  | journalRebuildComplete
  /-- MC_HEARTBEAT_MISS (R412): A management core misses its heartbeat for 100 µs and its work moves to another core. -/
  | mcHeartbeatMiss (core : Nat)
  /-- JOURNAL_REPLAY (R100): After a fault or reset the sorting office replays uncompleted journal records per context. -/
  | journalReplay (ctx : W32)
  /-- FAULT_IN_ASSERT (R415): FAULT_IN_N registered low latches FAULT_IN and, after 1 µs, fences the module. -/
  | faultInAssert (heldNs : Nat)
  /-- STORM_WINDOW_END (R474): A millisecond window ends and sources whose edge count exceeded STORM_LIMIT set STORM. -/
  | stormWindowEnd
  /-- STUCK_TIMEOUT (R474): A condition source asserted longer than STUCK_US sets STUCK. -/
  | stuckTimeout (source : Nat)
  /-- POWER_ON (R493): 24 V applied after a loss of supply starts a type 1 reset at start-up step 1. -/
  | powerOn
  /-- PWR_EN_RISE (R492): PWR_EN going high resumes start-up at step 3. -/
  | pwrEnRise
  /-- PWR_EN_FALL (R492): PWR_EN going low performs the orderly reset steps and enters OFF. -/
  | pwrEnFall
  /-- MOD_RESET_ASSERT (R494): MOD_RESET_N registered low starts an orderly or fenced module reset. -/
  | modResetAssert
  /-- MOD_RESET_RELEASE (R494): 1 ms after MOD_RESET_N returns high, start-up resumes at step 3. -/
  | modResetRelease
  /-- PERST (R494): PERST_N applies a function level reset to all 64 functions. -/
  | perst
  /-- STARTUP_STEP_COMPLETE (R496): A start-up step ends and the next one begins, up to READY. -/
  | startupStepComplete (retired : List Retired) (failed : Bool)
  /-- SUPPLY_OUT_OF_RANGE (R481): The input leaves VIN_MIN to VIN_MAX; SUPPLY asserts and ALERT_N goes low. -/
  | supplyOutOfRange (vin : W16)
  /-- SUPPLY_UNDERVOLTAGE (R481): Input below 20 V for 10 µs turns every rail off as a loss of supply. -/
  | supplyUndervoltage
  /-- SUPPLY_OVERVOLTAGE (R481): Input above 28 V for 1 µs opens the input stage as a loss of supply. -/
  | supplyOvervoltage
  /-- THERMAL_TRIP (R487): A junction reaching 110 °C drives THERM_TRIP_N low and fences the module. -/
  | thermalTrip (die : Nat)
  /-- FREQUENCY_ADJUST (R484): A die's frequency loop changes f from margin monitors and temperature, with its voltage loop. -/
  | frequencyAdjust (die mhz millivolts tj : Nat)
  /-- DROOP_DETECT (R486): A droop sensor below 94 % of setpoint stretches the die's clock. -/
  | droopDetect (die : Nat)
  /-- STRETCH_END (R486): Sixteen cycles within 3 % of setpoint end a clock stretch. -/
  | stretchEnd (die : Nat)
  /-- DOZE_ENTRY (R489): Idle for IDLE_US with AUTO_DOZE set gates the cluster clocks. -/
  | dozeEntry
  /-- SLEEP_ENTRY (R490): Once no context runs and no command executes, the module saves interrupt state and enters SLEEP. -/
  | sleepEntry
  /-- SLEEP_REFUSAL (R490): A SLEEP request not met within 100 ms lapses and sets SLEEP_REFUSED. -/
  | sleepRefusal
  /-- WAKE (R477): A wake from SLEEP restores interrupt state, ORs caught bits and resumes evaluation. -/
  | wake
  /-- ENERGY_INTERVAL (R454): Each 1 ms the measured input energy is shared among functions' ENERGY counts. -/
  | energyInterval (dieMillijoules : List Nat) (restMillijoules : Nat)
  /-- TELEMETRY_REFRESH (R507): Each 1 ms PWR_TELEM, stack temperatures and FRANK_CUR are refreshed. -/
  | telemetryRefresh (vin iin pin pinPeak : W16) (temps : List Nat) (hubTj : Nat)
  /-- REFERENCE_ACQUIRE (R528): The 10 MHz input has met its level and frequency for 10 ms with two valid pulse-per-second edges, and REF_PRESENT becomes 1. -/
  | referenceAcquire
  /-- UPD_NORM_COMPLETE (R338): The update engine finishes the squared-norm sum of an UPD.NORM, writes OUT_NORM2 and D, and the scoreboard releases D. -/
  | updNormComplete (team : Nat)
  /-- FABRIC_WRITE_ACK (R404): The acknowledgement of a FABRIC write reaches the issuing module, satisfying FENCE.FABRIC and HALO completion. -/
  | fabricWriteAck (port : Nat) (frame : Frame)
  /-- COLLECTIVE_DATA_FRAME (R401): An unscheduled DATA frame carrying collective data arrives at a member and is matched to its collective by number. -/
  | collectiveDataFrame (port : Nat) (frame : Frame)
  /-- RELEASE_RELAY (R430): A survivor's relayed release from a lost home reaches the new barrier home within its 100 µs window and is recorded. -/
  | releaseRelay (index : Nat) (release : Release)
  /-- LINK_LEVEL_RESEND (R383): A hop that received an uncorrectable frame causes the previous hop to send it again, and after 8 failed attempts the port goes to DOWN. -/
  | linkLevelResend (port : Nat) (failed : Bool)
  /-- DIE_LINK_FAULT (R415): A Skomi die link or the hub die fails, a whole-module fault on which the module fences itself. -/
  | dieLinkFault (die : Nat)
  /-- RAIL_FAULT (R498): A supply rail leaves regulation, PWRGD goes low and the module fences and stops with FAILED_STEP. -/
  | railFault
  /-- SUPPLY_IN_RANGE (R481): The input voltage returns inside VIN_MIN to VIN_MAX, SUPPLY stops asserting and ALERT_N is released. -/
  | supplyInRange (vin : W16)
  /-- TJ_LIMIT_CROSSING (R463): A die's junction temperature crosses PM_LIMITS.TJ_LIMIT, asserting or deasserting THERMAL and ALERT_N. -/
  | tjLimitCrossing (die tj : Nat)
  /-- FAULT_IN_RELEASE (R466): FAULT_IN_N is registered high again and the FAULT_IN condition source stops asserting. -/
  | faultInRelease
  /-- CONFIGURATION_WRITE (R510): A PCIe configuration write changes MSI-X enable or mask, or SR-IOV NumVFs, creating or removing virtual functions and enabling messages. -/
  | configurationWrite (fn : Nat) (what : CfgWrite)
  deriving DecidableEq, Repr

end Sys2Proof
end

