-- ==== Sys2Proof/Machine/Maps.lean ====
section
/-! DEFINITION. Sparse tables and byte memories as plain lists, little-endian words (spec/00 R6). -/

namespace Sys2Proof.Machine

open Sys2Proof

/-- The entry listed for a key. -/
def mapGet {α : Type} : SMap α → Nat → Option α
  | [], _ => none
  | (k, v) :: r, j => if k = j then some v else mapGet r j

/-- The entry of a key, or `d` where the key is not listed. -/
def mapGetD {α : Type} (m : SMap α) (d : α) (j : Nat) : α := (mapGet m j).getD d

/-- Writes one entry and keeps the keys rising. -/
def mapPut {α : Type} : SMap α → Nat → α → SMap α
  | [], k, v => [(k, v)]
  | (j, w) :: r, k, v =>
    if j = k then (k, v) :: r
    else if k < j then (k, v) :: (j, w) :: r
    else (j, w) :: mapPut r k v

/-- Drops every entry of a key. -/
def mapDrop {α : Type} (m : SMap α) (k : Nat) : SMap α := m.filter fun x => x.1 != k

/-- Changes the entry of a key, which reads as `d` where it is not listed. -/
def mapMod {α : Type} (m : SMap α) (d : α) (k : Nat) (f : α → α) : SMap α :=
  mapPut m k (f (mapGetD m d k))

/-- The values of a table in rising key order. -/
def mapVals {α : Type} (m : SMap α) : List α := m.map Prod.snd

/-- A byte memory: rising addresses, no entry that equals the byte 0 that an unlisted
address reads as (notes/assumptions/6.md). -/
abbrev Memory := SMap Byte

/-- The byte at an address. -/
def memGet (m : Memory) (a : Nat) : Byte := mapGetD m 0 a

/-- Writes one byte and keeps the canonical form. -/
def memSet (m : Memory) (a : Nat) (b : Byte) : Memory :=
  if b = 0 then mapDrop m a else mapPut m a b

/-- The canonical form of a memory: addresses strictly rising, no entry equal to 0. -/
def Memory.wf : Memory → Bool
  | [] => true
  | [(_, b)] => b != 0
  | (a, b) :: (a', b') :: r => b != 0 && decide (a < a') && Memory.wf ((a', b') :: r)

/-- The bytes at `n` addresses from `a`. -/
def memRead (m : Memory) (a n : Nat) : List Byte :=
  (List.range n).map fun i => memGet m (a + i)

/-- Writes a list of bytes from an address on. -/
def memWrite (m : Memory) (a : Nat) : List Byte → Memory
  | [] => m
  | b :: r => memWrite (memSet m a b) (a + 1) r

/-- The little-endian number of a list of bytes (R6). -/
def leNat : List Byte → Nat
  | [] => 0
  | b :: r => b.toNat + 256 * leNat r

/-- The `n` little-endian bytes of a number (R6). -/
def leBytes : Nat → Nat → List Byte
  | 0, _ => []
  | n + 1, x => BitVec.ofNat 8 x :: leBytes n (x / 256)

/-- The bytes of a list from an offset on, `n` of them, zero past its end. -/
def bytesAt (l : List Byte) (off n : Nat) : List Byte :=
  (List.range n).map fun i => (l.getD (off + i) 0)

/-- A little-endian field of a list of bytes. -/
def fieldAt (l : List Byte) (off n : Nat) : Nat := leNat (bytesAt l off n)

/-- A little-endian number in memory. -/
def memNat (m : Memory) (a n : Nat) : Nat := leNat (memRead m a n)

/-- Writes an `n`-byte little-endian number. -/
def memPutNat (m : Memory) (a n x : Nat) : Memory := memWrite m a (leBytes n x)

/-- One byte of the CRC-32 (R6). -/
def crcByte (c : W32) (b : Byte) : W32 :=
  (List.range 8).foldl (fun (c : W32) _ => if c.getLsbD 0 then (c >>> 1) ^^^ 0xEDB88320 else c >>> 1)
    (c ^^^ b.setWidth 32)

/-- CRC-32: reflected polynomial 0xEDB88320, initial value and final XOR 0xFFFFFFFF. -/
def crc32 (l : List Byte) : W32 := l.foldl crcByte 0xFFFFFFFF ^^^ 0xFFFFFFFF

/-- Sets `n` bytes from an address on to 0. -/
def memZero (m : Memory) (a n : Nat) : Memory :=
  m.filter fun x => !(decide (a ≤ x.1) && decide (x.1 < a + n))

/-- Bits [lo + w - 1 : lo] of a number. -/
def bits (x lo w : Nat) : Nat := x / 2 ^ lo % 2 ^ w

/-- Whether bit `i` of a number is 1. -/
def bitOf (x i : Nat) : Bool := x / 2 ^ i % 2 == 1

/-- A Boolean as a number. -/
def natOf (b : Bool) : Nat := if b then 1 else 0

/-- The two's complement value of the low `w` bits of a number (R6). -/
def signed (w x : Nat) : Int :=
  let y := x % 2 ^ w
  if 2 * y < 2 ^ w then (y : Int) else (y : Int) - (2 ^ w : Nat)

/-- The low `w` bits of an integer as two's complement (R6). -/
def unsignedOf (w : Nat) (z : Int) : Nat := (z % ((2 ^ w : Nat) : Int)).toNat

/-- The smaller of a count and its saturation bound. -/
def satTo (bound x : Nat) : Nat := min bound x

/-- Rounds down to a multiple. -/
def floorTo (k x : Nat) : Nat := x / k * k

/-- ⌈x / k⌉. -/
def ceilDiv (x k : Nat) : Nat := (x + k - 1) / k

/-- Removes the first element that satisfies a test. -/
def eraseFirst {α : Type} (p : α → Bool) : List α → List α
  | [] => []
  | x :: r => if p x then r else x :: eraseFirst p r

/-- Inserts an element after those whose key is not greater. -/
def insertOn {α : Type} (key : α → Nat) (x : α) : List α → List α
  | [] => [x]
  | y :: r => if key x < key y then x :: y :: r else y :: insertOn key x r

/-- Sorts by a key; elements of one key keep their order. -/
def sortOn {α : Type} (key : α → Nat) (l : List α) : List α := l.foldl (fun m x => insertOn key x m) []

/-- Changes every element that satisfies a test. -/
def modWhere {α : Type} (p : α → Bool) (f : α → α) (l : List α) : List α :=
  l.map fun x => if p x then f x else x

/-- Changes the element at an index. -/
def modIdx {α : Type} (l : List α) (i : Nat) (f : α → α) : List α := l.modify i f

end Sys2Proof.Machine
end

