-- ==== Sys2Proof/Machine/Numbers.lean ====
section
/-! DEFINITION. Number formats, exact values, rounding and conversion (spec/06 R170 to R187, R192, R193). -/

namespace Sys2Proof.Machine

open Sys2Proof

/-- A value of any of the formats: NaN, an infinity, or (-1)^neg × m × 2^e exactly. -/
inductive FVal where
  | nan
  | inf (neg : Bool)
  | fin (neg : Bool) (m : Nat) (e : Int)
  deriving DecidableEq, Repr

/-- +0. -/
def FVal.zero : FVal := .fin false 0 0

/-- Whether a value is NaN. -/
def FVal.isNan : FVal → Bool
  | .nan => true
  | _ => false

/-- Whether a value is a zero. -/
def FVal.isZero : FVal → Bool
  | .fin _ m _ => m == 0
  | _ => false

/-- Whether a value is an infinity. -/
def FVal.isInf : FVal → Bool
  | .inf _ => true
  | _ => false

/-- The sign bit of a value. -/
def FVal.sign : FVal → Bool
  | .nan => false
  | .inf n => n
  | .fin n _ _ => n

/-- Negation; a NaN stays NaN. -/
def FVal.neg : FVal → FVal
  | .nan => .nan
  | .inf n => .inf (!n)
  | .fin n m e => .fin (!n) m e

/-- The magnitude. -/
def FVal.abs : FVal → FVal
  | .nan => .nan
  | .inf _ => .inf false
  | .fin _ m e => .fin false m e

/-- An integer as a value. -/
def FVal.ofInt (z : Int) : FVal := .fin (decide (z < 0)) z.natAbs 0

/-- m × 2^(e - f) as a natural number, for f ≤ e. -/
def scaleUp (m : Nat) (e f : Int) : Nat := m * 2 ^ (e - f).toNat

/-- The signed integer of a finite value in units of 2^f, for f at most its exponent. -/
def finInt (neg : Bool) (m : Nat) (e f : Int) : Int :=
  let x : Int := scaleUp m e f
  if neg then -x else x

/-- The exact product (IEEE 754 signs); 0 × ∞ is NaN. -/
def FVal.mul : FVal → FVal → FVal
  | .nan, _ => .nan
  | _, .nan => .nan
  | .inf a, .inf b => .inf (a != b)
  | .inf a, .fin b m _ => if m = 0 then .nan else .inf (a != b)
  | .fin a m _, .inf b => if m = 0 then .nan else .inf (a != b)
  | .fin a m e, .fin b n f => .fin (a != b) (m * n) (e + f)

/-- The exact sum (IEEE 754 signs of zero under round to nearest); ∞ - ∞ is NaN. -/
def FVal.add : FVal → FVal → FVal
  | .nan, _ => .nan
  | _, .nan => .nan
  | .inf a, .inf b => if a = b then .inf a else .nan
  | .inf a, .fin _ _ _ => .inf a
  | .fin _ _ _, .inf b => .inf b
  | .fin a m e, .fin b n f =>
    if m = 0 ∧ n = 0 then .fin (a && b) 0 0
    else
      let g := min e f
      let z := finInt a m e g + finInt b n f g
      .fin (decide (z < 0)) z.natAbs g

/-- The exact difference. -/
def FVal.sub (x y : FVal) : FVal := x.add y.neg

/-- The order of two values that are not NaN, zeros equal. -/
def FVal.lt : FVal → FVal → Bool
  | .nan, _ => false
  | _, .nan => false
  | .inf a, .inf b => a && !b
  | .inf a, .fin _ _ _ => a
  | .fin _ _ _, .inf b => !b
  | .fin a m e, .fin b n f =>
    let g := min e f
    decide (finInt a m e g < finInt b n f g)

/-- Equality of two values that are not NaN, zeros equal. -/
def FVal.eqv : FVal → FVal → Bool
  | .nan, _ => false
  | _, .nan => false
  | .inf a, .inf b => a == b
  | .fin a m e, .fin b n f =>
    let g := min e f
    decide (finInt a m e g = finInt b n f g)
  | _, _ => false

/-- Multiplies by 2^k exactly. -/
def FVal.scale (k : Int) : FVal → FVal
  | .fin n m e => .fin n m (e + k)
  | x => x

/-- ⌊log2 |v|⌋ of a non-zero finite value m × 2^e. -/
def log2Of (m : Nat) (e : Int) : Int := (Nat.log2 m : Int) + e

/-- How a rounding breaks off: to nearest with ties to even, stochastically with a 32-bit draw
(R185), or to the magnitude above or below, as functions bounded by 1 ulp may (R237). -/
inductive Rounding where
  | nearest
  | stochastic (r : Nat)
  | away (up : Bool)
  deriving DecidableEq, Repr

/-- Rounds m × 2^e to an integer number of 2^q (R184, R185). -/
def roundTo (mode : Rounding) (m : Nat) (e q : Int) : Nat :=
  if q ≤ e then scaleUp m e q
  else
    let d := (q - e).toNat
    let lo := m / 2 ^ d
    let rem := m % 2 ^ d
    match mode with
    | .nearest =>
      if 2 * rem < 2 ^ d then lo
      else if 2 ^ d < 2 * rem then lo + 1
      else if lo % 2 = 0 then lo else lo + 1
    | .stochastic r =>
      if rem = 0 then lo
      else if 2 ^ 32 ≤ rem * 2 ^ 32 / 2 ^ d + r then lo + 1 else lo
    | .away up => if rem = 0 then lo else if up then lo + 1 else lo

/-- Rounds a magnitude to `prec` significand bits with the least unit 2^emin: the integer and its unit. -/
def roundPrec (mode : Rounding) (prec : Nat) (emin : Int) (m : Nat) (e : Int) : Nat × Int :=
  if m = 0 then (0, emin)
  else
    let q := max (log2Of m e - (prec : Int) + 1) emin
    (roundTo mode m e q, q)

/-- A floating-point format (R170, R171): exponent bits, fraction bits, bias, whether it
has infinities and NaN, and the largest finite value as a code without its sign. -/
structure Fmt where
  eb   : Nat
  fb   : Nat
  bias : Nat
  hasInf : Bool
  hasNan : Bool
  maxCode : Nat
  nanCode : Nat
  deriving DecidableEq, Repr

/-- binary32, bfloat16, binary16, E4M3, E5M2 and the block elements (R170 to R172). -/
def fmtF32  : Fmt := ⟨8, 23, 127, true, true, 0x7F7FFFFF, 0x7FC00000⟩
def fmtBF16 : Fmt := ⟨8, 7, 127, true, true, 0x7F7F, 0x7FC0⟩
def fmtF16  : Fmt := ⟨5, 10, 15, true, true, 0x7BFF, 0x7E00⟩
def fmtE4M3 : Fmt := ⟨4, 3, 7, false, true, 0x7E, 0x7F⟩
def fmtE5M2 : Fmt := ⟨5, 2, 15, true, true, 0x7B, 0x7E⟩
def fmtE3M2 : Fmt := ⟨3, 2, 3, false, false, 0x1F, 0⟩
def fmtE2M3 : Fmt := ⟨2, 3, 1, false, false, 0x1F, 0⟩
def fmtE2M1 : Fmt := ⟨2, 1, 1, false, false, 0x7, 0⟩
/-- A40 (R178), whose subnormals are zeros. -/
def fmtA40  : Fmt := ⟨8, 31, 127, true, true, 0x7F7FFFFFFF, 0x7FC0000000⟩

/-- The exponent of the least subnormal's unit. -/
def Fmt.emin (f : Fmt) : Int := 1 - (f.bias : Int) - (f.fb : Int)

/-- The code of infinity, for a format that has one. -/
def Fmt.infCode (f : Fmt) : Nat := (2 ^ f.eb - 1) * 2 ^ f.fb

/-- The sign bit's weight. -/
def Fmt.signBit (f : Fmt) (neg : Bool) : Nat := if neg then 2 ^ (f.eb + f.fb) else 0

/-- The value of a code (R170, R171, R173). -/
def Fmt.decode (f : Fmt) (code : Nat) : FVal :=
  let neg := bitOf code (f.eb + f.fb)
  let mag := code % 2 ^ (f.eb + f.fb)
  let ex := mag / 2 ^ f.fb
  let fr := mag % 2 ^ f.fb
  if f.hasNan && decide (f.maxCode < mag) then
    if f.hasInf && mag == f.infCode then .inf neg else .nan
  else if ex = 0 then .fin neg fr f.emin
  else .fin neg (2 ^ f.fb + fr) ((ex : Int) - f.bias - f.fb)

/-- What a conversion counted (R197). -/
structure Flags where
  sat : Bool := false
  flush : Bool := false
  invalid : Bool := false
  deriving DecidableEq, Repr

/-- The code of a rounded magnitude n × 2^q that lies within the format. -/
def Fmt.pack (f : Fmt) (n : Nat) (q : Int) : Nat :=
  if n < 2 ^ f.fb then n
  else
    let up : Nat := if 2 ^ (f.fb + 1) ≤ n then 1 else 0
    let n' := n / 2 ^ up
    ((q + up - f.emin).toNat + 1) * 2 ^ f.fb + (n' - 2 ^ f.fb)

/-- The largest finite magnitude as m × 2^e. -/
def Fmt.maxFin (f : Fmt) : FVal := f.decode f.maxCode

/-- Conversion of a value to a float format under R184 and R185. `satInf` is the SATINF
modifier; scalar operations that follow IEEE 754 (R151) pass true. -/
def Fmt.encode (f : Fmt) (mode : Rounding) (satInf : Bool) : FVal → Nat × Flags
  | .nan => if f.hasNan then (f.nanCode, { }) else (0, { invalid := true })
  | .inf neg =>
    if f.hasInf then (f.infCode + f.signBit neg, { })
    else (f.maxCode + f.signBit neg, { sat := true })
  | .fin neg m e =>
    let r := roundPrec mode (f.fb + 1) f.emin m e
    if FVal.lt f.maxFin (.fin false r.1 r.2) then
      (if f.hasInf && satInf then f.infCode + f.signBit neg else f.maxCode + f.signBit neg,
        { sat := true })
    else (f.pack r.1 r.2 + f.signBit neg, { flush := m != 0 && r.1 == 0 })

/-- The smallest normal magnitude. -/
def Fmt.minNormal (f : Fmt) : FVal := .fin false 1 (1 - (f.bias : Int))

/-- The drain of R192: `normal` selects the normal contract, which flushes subnormals. -/
def Fmt.drain (f : Fmt) (mode : Rounding) (satInf normal : Bool) (v : FVal) : Nat × Flags :=
  match v with
  | .fin neg m e =>
    if normal && m != 0 && FVal.lt (.fin false m e) f.minNormal then
      (f.signBit neg, { flush := true })
    else f.encode mode satInf v
  | _ => f.encode mode satInf v

/-- Rounded to X32 (R182, R183): 24 significand bits, range never left. -/
def roundX32 : FVal → FVal
  | .fin neg m e =>
    let r := roundPrec .nearest 24 (-1022 - 23) m e
    .fin neg r.1 r.2
  | x => x

/-- The value of an A40 word (R178). -/
def a40Decode (w : Nat) : FVal :=
  let v := fmtA40.decode w
  if bits w 31 8 = 0 then .fin (bitOf w 39) 0 0 else v

/-- The code of an A40 value: rounded to 32 bits, saturated, subnormals zeroed (R193). -/
def a40Encode (v : FVal) : Nat × Flags :=
  match v with
  | .fin neg m e =>
    let r := roundPrec .nearest 32 (-400) m e
    if FVal.lt fmtA40.maxFin (.fin false r.1 r.2) then
      (fmtA40.maxCode + fmtA40.signBit neg, { sat := true })
    else if r.1 != 0 && FVal.lt (.fin false r.1 r.2) fmtA40.minNormal then
      (fmtA40.signBit neg, { flush := true })
    else fmtA40.encode .nearest false (.fin neg r.1 r.2)
  | _ => fmtA40.encode .nearest false v

/-- The quotient of two finite non-zero magnitudes with `k` bits below the quotient's
leading bits and a sticky last bit, so that every rounding of it is that of the exact quotient. -/
def quotient (m : Nat) (e : Int) (n : Nat) (f : Int) : Nat × Int :=
  let k := 64 + Nat.log2 n
  let q := m * 2 ^ k / n
  let st := if m * 2 ^ k % n = 0 then 0 else 1
  (2 * q + st, e - f - k - 1)

/-- IEEE 754 division before rounding. -/
def FVal.div : FVal → FVal → FVal
  | .nan, _ => .nan
  | _, .nan => .nan
  | .inf _, .inf _ => .nan
  | .inf a, .fin b _ _ => .inf (a != b)
  | .fin a _ _, .inf b => .fin (a != b) 0 0
  | .fin a m e, .fin b n f =>
    if n = 0 then (if m = 0 then .nan else .inf (a != b))
    else if m = 0 then .fin (a != b) 0 0
    else
      let r := quotient m e n f
      .fin (a != b) r.1 r.2

/-- ⌊√n⌋ by bisection on bits, highest first. -/
def isqrt (n : Nat) : Nat :=
  (List.range (Nat.log2 n / 2 + 1)).foldr
    (fun i r => let t := r + 2 ^ i; if t * t ≤ n then t else r) 0

/-- The square root of a value before rounding, sticky last bit; of a negative non-zero value NaN. -/
def FVal.sqrt : FVal → FVal
  | .nan => .nan
  | .inf n => if n then .nan else .inf false
  | .fin neg m e =>
    if m = 0 then .fin neg 0 0
    else if neg then .nan
    else
      let k : Nat := 128 + (if (e % 2) = 0 then 0 else 1)
      let x := m * 2 ^ k
      let r := isqrt x
      let st := if r * r = x then 0 else 1
      .fin false (2 * r + st) ((e - k) / 2 - 1)

/-- An integer type: its width and whether it is signed (R177). -/
structure ITy where
  width : Nat
  isSigned : Bool
  deriving DecidableEq, Repr

/-- The range of an integer type (R177). -/
def ITy.lo (t : ITy) : Int := if t.isSigned then -(2 ^ (t.width - 1) : Nat) else 0
def ITy.hi (t : ITy) : Int :=
  if t.isSigned then (2 ^ (t.width - 1) : Nat) - 1 else (2 ^ t.width : Nat) - 1

/-- The value of an integer code. -/
def ITy.decode (t : ITy) (code : Nat) : Int :=
  if t.isSigned then signed t.width code else ((code % 2 ^ t.width : Nat) : Int)

/-- An exact integer result in an integer type: saturated with OVF, else wrapped; out of range counts SAT (R184, R195). -/
def ITy.encode (t : ITy) (ovf : Bool) (z : Int) : Nat × Flags :=
  if t.lo ≤ z ∧ z ≤ t.hi then (unsignedOf t.width z, { })
  else if ovf then
    (unsignedOf t.width (if z < t.lo then t.lo else t.hi), { sat := true })
  else (unsignedOf t.width z, { sat := true })

/-- A rounded value as an integer: nearest, ties to even. -/
def FVal.toIntNearest : FVal → Int
  | .fin neg m e => let n : Int := roundTo .nearest m e 0; if neg then -n else n
  | _ => 0

/-- Toward zero. -/
def FVal.toIntZero : FVal → Int
  | .fin neg m e =>
    let n : Nat := if 0 ≤ e then scaleUp m e 0 else m / 2 ^ (-e).toNat
    let n : Int := n
    if neg then -n else n
  | _ => 0

/-- Conversion of a float to an integer type: saturates, NaN gives 0 (R184). -/
def ITy.ofFloat (t : ITy) (toInt : FVal → Int) : FVal → Nat × Flags
  | .nan => (0, { invalid := true })
  | .inf neg => (unsignedOf t.width (if neg then t.lo else t.hi), { sat := true })
  | .fin neg m e => t.encode true (toInt (.fin neg m e))

/-- The float format of a type code that holds floats itself (R170). -/
def fmtOf : Nat → Option Fmt
  | 0x00 => some fmtF32
  | 0x01 => some fmtBF16
  | 0x02 => some fmtF16
  | 0x03 => some fmtE4M3
  | 0x04 => some fmtE5M2
  | _ => none

/-- The element format of a float block type (R174); MXINT8 has none. -/
def blockFmtOf : Nat → Option Fmt
  | 0x05 => some fmtE4M3
  | 0x06 => some fmtE5M2
  | 0x07 => some fmtE3M2
  | 0x08 => some fmtE2M3
  | 0x09 => some fmtE2M1
  | _ => none

/-- The integer type of a type code (R177). -/
def itypeOf : Nat → Option ITy
  | 0x10 => some ⟨8, true⟩
  | 0x11 => some ⟨8, false⟩
  | 0x12 => some ⟨16, true⟩
  | 0x13 => some ⟨32, true⟩
  | 0x14 => some ⟨4, true⟩
  | 0x15 => some ⟨32, false⟩
  | 0x16 => some ⟨64, true⟩
  | _ => none

/-- Whether a type is a block type (R174). -/
def isBlockTy (ty : Nat) : Bool := decide (0x05 ≤ ty) && decide (ty ≤ 0x0A)

/-- The element width of a type code in bits (R117, R170, R175, R177 to R181). -/
def elemBits : Nat → Nat
  | 0x00 => 32 | 0x01 => 16 | 0x02 => 16 | 0x03 => 8 | 0x04 => 8
  | 0x05 => 8 | 0x06 => 8 | 0x07 => 6 | 0x08 => 6 | 0x09 => 4 | 0x0A => 8
  | 0x10 => 8 | 0x11 => 8 | 0x12 => 16 | 0x13 => 32 | 0x14 => 4 | 0x15 => 32
  | 0x16 => 64 | 0x19 => 16 | 0x1A => 1 | 0x1C => 32 | 0x1D => 48
  | _ => 8

/-- EMAX of a block type (R187). -/
def emaxOf : Nat → Nat
  | 0x05 => 8 | 0x06 => 15 | 0x07 => 4 | 0x08 => 2 | 0x09 => 2
  | _ => 0

/-- The value of an E8M0 scale (R174). -/
def scaleVal (x : Nat) : FVal := if x = 0xFF then .nan else .fin false 1 ((x : Int) - 127)

/-- The value of an element code of a block type before its scale (R174). -/
def blockElem (ty code : Nat) : FVal :=
  match blockFmtOf ty with
  | some f => f.decode code
  | none => (FVal.ofInt (signed 8 code)).scale (-6)

/-- The value of an element code of any compute type; `sc` is its block's scale byte. -/
def valueOf (ty code sc : Nat) : FVal :=
  if isBlockTy ty then
    if sc = 0xFF then .nan else (blockElem ty code).scale ((sc : Int) - 127)
  else
    match fmtOf ty with
    | some f => f.decode code
    | none =>
      match itypeOf ty with
      | some t => FVal.ofInt (t.decode code)
      | none => FVal.ofInt (code : Int)

/-- Conversion of one value into a non-block type (R184). `fromInt` says that the source
is an integer type, for which OVF decides between saturating and wrapping. -/
def convertTo (ty : Nat) (mode : Rounding) (satInf ovf fromInt : Bool) (v : FVal) : Nat × Flags :=
  match fmtOf ty with
  | some f => f.encode mode satInf v
  | none =>
    match itypeOf ty with
    | some t =>
      if fromInt then t.encode ovf v.toIntZero
      else t.ofFloat FVal.toIntNearest v
    | none => (0, { })

/-- The element code of v × 2^-u for a block type (R187). -/
def blockCode (ty : Nat) (mode : Rounding) (u : Int) (v : FVal) : Nat × Flags :=
  match blockFmtOf ty with
  | some f => f.encode mode false (v.scale (-u))
  | none =>
    match v.scale (6 - u) with
    | .fin neg m e =>
      let n : Int := roundTo mode m e 0
      let z := if neg then -n else n
      let r := (ITy.mk 8 true).encode true z
      r
    | _ => (0, { })

/-- The larger magnitude's exponent over a list of finite values, none where all are zero. -/
def maxLog2 : List FVal → Option Int
  | [] => none
  | v :: r =>
    let rest := maxLog2 r
    match v with
    | .fin _ m e =>
      if m = 0 then rest
      else
        match rest with
        | some k => some (max k (log2Of m e))
        | none => some (log2Of m e)
    | _ => rest

/-- Quantises one block under R187: the scale byte, the codes with their flags, and the
positions counted INVALID. -/
def quantBlock (ty : Nat) (modes : List Rounding) (vs : List FVal) : Nat × List (Nat × Flags) :=
  if vs.any fun v => v.isNan || v.isInf then
    (0xFF, vs.map fun v => (0, { invalid := v.isNan || v.isInf }))
  else
    match maxLog2 vs with
    | none => (0, vs.map fun _ => (0, { }))
    | some k =>
      let u := min (max (k - emaxOf ty) (-127)) 127
      ((u + 127).toNat,
        (List.range vs.length).map fun i =>
          blockCode ty (modes.getD i .nearest) u (vs.getD i FVal.zero))

end Sys2Proof.Machine
end

