-- ==== Sys2Proof/Machine/OpTable.lean ====
section
/-! DEFINITION. The instruction tables of spec/05 (R141, R149 to R165): what each opcode allows
and which unit executes it. -/

namespace Sys2Proof.Machine

open Sys2Proof

/-- The units of R149. -/
inductive EngineUnit where
  | sc | tm | me | ve | gm | sa | re | ue | sy
  deriving DecidableEq, Repr

/-- How an instruction uses IMM (R139). -/
inductive ImmUse where
  | none
  | value
  | vector
  | slope
  | fixed (mask : Nat)
  deriving DecidableEq, Repr

/-- One line of the instruction tables. `mods` are allowed for every type, `modF` for the float
and block types, `modI` for the integer types; d, a and b list the operand kinds (R138). -/
structure OpRow where
  code : Nat
  types : List Nat
  unpred : Bool
  mods : Nat
  modF : Nat
  modI : Nat
  d : List Nat
  a : List Nat
  b : List Nat
  imm : ImmUse
  unit : EngineUnit
  deriving DecidableEq, Repr

/-- The type sets of R141. -/
def setSF : List Nat := [0x00, 0x02]
def setSM : List Nat := [0x10, 0x11, 0x12, 0x13, 0x15, 0x16]
def setMF : List Nat := [0x00, 0x01, 0x02, 0x03, 0x04, 0x05, 0x06, 0x07, 0x08, 0x09, 0x0A]
def setMM : List Nat := setMF ++ [0x10, 0x11, 0x14]
def setVF : List Nat := [0x00, 0x01, 0x02]
def setVI : List Nat := [0x10, 0x11, 0x12, 0x13, 0x15]
def setVN : List Nat := setVF ++ setVI
def setVL : List Nat := setVI ++ [0x1A]
def setVC : List Nat := setMF ++ [0x10, 0x11, 0x12, 0x13, 0x14, 0x15]
def setFL : List Nat := setVC ++ [0x1A, 0x1C, 0x1D]
def setDT : List Nat := setVC ++ [0x19, 0x1A, 0x1C, 0x1D]
/-- DT except 0x1A (R163). -/
def setGT : List Nat := setVC ++ [0x19, 0x1C, 0x1D]

/-- The MOD bits of R143. -/
def mSTATUS : Nat := 0x01
def mSTEP : Nat := 0x02
def mOVF : Nat := 0x04
def mSATINF : Nat := 0x08
def mSROUND : Nat := 0x10
def mEMPTY : Nat := 0x20
def mSTRICT : Nat := 0x40
def mACC : Nat := 0x80

/-- Operand kinds (R138). -/
def kN : List Nat := [0]
def kS : List Nat := [1]
def kT : List Nat := [2]
def kP : List Nat := [3]
def kC : List Nat := [4]
def kSI : List Nat := [1, 5]
def kSIK : List Nat := [1, 5, 6]
def kTSI : List Nat := [2, 1, 5]
def kTSIK : List Nat := [2, 1, 5, 6]

/-- Rows without modifiers of the scalar unit. -/
def scRow (code : Nat) (d a b : List Nat) (imm : ImmUse := .none) (types : List Nat := [0])
    (unpred : Bool := false) : OpRow :=
  ⟨code, types, unpred, 0, 0, 0, d, a, b, imm, .sc⟩

/-- The control and scalar instructions (R150). -/
def controlRows : List OpRow :=
  [scRow 0x000 kN kN kN, scRow 0x001 kN kN kN .none [0] true,
   scRow 0x002 kN kN kN (.fixed 0xFFFF) [0] true, scRow 0x003 kN kP kN (.fixed 0xFFFF) [0] true,
   scRow 0x004 kN kP kN (.fixed 0xFFFF) [0] true, scRow 0x005 kN kC kN (.fixed 0xFFFF) [0] true,
   scRow 0x006 kN kN kN .none [0] true, scRow 0x007 kN kSIK kN .value, scRow 0x008 kS kN kN,
   scRow 0x010 kS kSIK kN .value, scRow 0x011 kS kN kN (.fixed 0xFFFF),
   scRow 0x012 kS kN kN (.fixed 0xFFFF), scRow 0x013 kS kS kN (.fixed 0xFFFFFFFFFFFF) setSM,
   scRow 0x014 kN kS kS (.fixed 0xFFFFFFFFFFFF) setSM]

def alu (code : Nat) : OpRow := scRow code kS kS kSIK .value
def cmpRow (code : Nat) : OpRow := scRow code kP kS kSIK .value
def fpRow (code : Nat) : OpRow := scRow code kS kS kSI .vector setSF
def fcmpRow (code : Nat) : OpRow := scRow code kP kS kSI .vector setSF

def scalarRows : List OpRow :=
  [alu 0x018, alu 0x019, alu 0x01A, alu 0x01B, alu 0x01C, alu 0x01D, alu 0x01E, alu 0x020,
   alu 0x021, alu 0x022, alu 0x023, alu 0x024, alu 0x025, alu 0x026, alu 0x027, alu 0x028,
   alu 0x029, cmpRow 0x030, cmpRow 0x031, cmpRow 0x032, cmpRow 0x033, cmpRow 0x034, cmpRow 0x035,
   fpRow 0x038, fpRow 0x039, fpRow 0x03A, fpRow 0x03B, fpRow 0x03C, fpRow 0x03D,
   scRow 0x03E kS kS kN .none setSF, scRow 0x03F kS kS kN .none setSF,
   fcmpRow 0x040, fcmpRow 0x041, fcmpRow 0x042,
   scRow 0x048 kP kP kP, scRow 0x049 kP kP kP, scRow 0x04A kP kP kP, scRow 0x04B kP kP kN,
   scRow 0x04C kP kS kN, scRow 0x04D kS kP kN, scRow 0x050 kC kSIK kN .value,
   scRow 0x051 kS kC kN]

/-- The tile-movement instructions (R152). -/
def tileRows : List OpRow :=
  [scRow 0x080 kT kN kN (.fixed 0x7FF), scRow 0x081 kT kS kN, scRow 0x082 kT kSIK kN .value,
   scRow 0x083 kT kS kS, scRow 0x084 kT kS kN, scRow 0x085 kT kN kN .none setDT,
   scRow 0x086 kS kT kN, scRow 0x087 kT kT kN,
   ⟨0x088, [0], false, 0, 0, 0, kT, kT, kN, .none, .tm⟩,
   ⟨0x089, setFL, false, 0, 0, 0, kT, kSIK, kN, .value, .tm⟩]

/-- The matrix instructions (R155). -/
def matrixRows : List OpRow :=
  [⟨0x100, setMM, false, mSTATUS + mACC, mSTEP + mSATINF + mSROUND, mOVF, kT, kT, kT, .none, .me⟩,
   ⟨0x101, setMF, false, mSTATUS + mSTEP + mSATINF + mSROUND, 0, 0, kT, kT, kT, .fixed 0xFF1F, .me⟩,
   ⟨0x102, setMF, false, mSTATUS + mSTEP, 0, 0, kS, kT, kT, .none, .me⟩,
   ⟨0x103, setVF, false, mSTATUS + mSATINF + mSROUND, 0, 0, kT, kS, kN, .fixed 0x1, .me⟩,
   ⟨0x104, [0], false, 0, 0, 0, kN, kS, kSIK, .value, .me⟩]

def veRow (code : Nat) (types : List Nat) (mods modI : Nat) (b : List Nat) (imm : ImmUse) : OpRow :=
  ⟨code, types, false, mods, 0, modI, kT, kT, b, imm, .ve⟩

/-- The vector instructions but for scans (R159). -/
def vectorRows : List OpRow :=
  let r := mSTATUS + mSATINF + mSROUND
  [veRow 0x180 setVN r mOVF kTSIK .vector, veRow 0x181 setVN r mOVF kTSIK .vector,
   veRow 0x182 setVN r mOVF kTSIK .vector, veRow 0x183 setVF r 0 kTSI .vector,
   veRow 0x184 setVN mSTATUS 0 kTSIK .vector, veRow 0x185 setVN mSTATUS 0 kTSIK .vector,
   veRow 0x186 setVF r 0 kTSI .vector, veRow 0x187 setVL 0 0 kTSIK .vector,
   veRow 0x188 setVL 0 0 kTSIK .vector, veRow 0x189 setVL 0 0 kTSIK .vector,
   veRow 0x18A setVI mOVF 0 kSIK .vector, veRow 0x18B setVI 0 0 kSIK .vector,
   veRow 0x190 setVN mSTATUS mOVF kN .none, veRow 0x191 setVN mSTATUS mOVF kN .none,
   veRow 0x192 setVF (mSTATUS + mSROUND) 0 kN .none, veRow 0x193 setVF r 0 kN .none,
   veRow 0x194 setVF r 0 kN .none, veRow 0x195 setVF r 0 kN .none,
   veRow 0x196 setVF (mSTATUS + mSROUND) 0 kN .none, veRow 0x197 setVF (mSTATUS + mSROUND) 0 kN .none,
   veRow 0x198 setVF (mSTATUS + mSROUND) 0 kN .none, veRow 0x199 setVF (mSTATUS + mSROUND) 0 kN .none,
   veRow 0x19A setVF (mSTATUS + mSROUND) 0 kN .none, veRow 0x19B setVF 0 0 kN .none,
   veRow 0x19C setVF r 0 kSI .slope,
   veRow 0x1A0 setVC (r + mOVF) 0 kN .none, veRow 0x1A8 setVN 0 0 kTSIK .vector,
   veRow 0x1A9 setVN 0 0 kTSIK .vector, veRow 0x1AA setVN 0 0 kTSIK .vector,
   veRow 0x1AB setVN 0 0 kT (.fixed 0x1F),
   ⟨0x1B0, [0x00, 0x15], false, 0, 0, 0, kT, kS, kS, .none, .ve⟩,
   veRow 0x1B1 setVF mSTATUS 0 kN (.fixed 0x1FFFFFFFFF)]

/-- SATINF for float types and OVF for integer types with ADD and MUL (R159). -/
def scanRow (code : Nat) (types : List Nat) (ovf : Nat) (b : List Nat) : OpRow :=
  ⟨code, types, false, mSTATUS, mSATINF, ovf, kT, kT, b, .fixed 0x7F, .ve⟩

def scanRows : List OpRow :=
  [⟨0x1C0, setVN, false, mSTATUS + mSATINF, 0, mOVF, kT, kT, kN, .none, .ve⟩,
   veRow 0x1C1 setVN mSTATUS 0 kN .none, veRow 0x1C2 setVN mSTATUS 0 kN .none,
   scanRow 0x1C8 setVN mOVF kN, scanRow 0x1C9 setVN 0 kN, scanRow 0x1CA setVN 0 kN,
   scanRow 0x1CB setVN mOVF kN, scanRow 0x1CC setVL 0 kN, scanRow 0x1CD setVL 0 kN,
   scanRow 0x1CE setVL 0 kN,
   scanRow 0x1D0 setVN mOVF kT, scanRow 0x1D1 setVN 0 kT, scanRow 0x1D2 setVN 0 kT,
   scanRow 0x1D3 setVN mOVF kT, scanRow 0x1D4 setVL 0 kT, scanRow 0x1D5 setVL 0 kT,
   scanRow 0x1D6 setVL 0 kT]

def segredRow (code : Nat) (types : List Nat) (ovf : Nat) : OpRow :=
  ⟨code, types, false, mSTATUS + mEMPTY, mSATINF, ovf, kT, kT, kT, .none, .ve⟩

def segredRows : List OpRow :=
  [segredRow 0x1E0 setVN mOVF, segredRow 0x1E1 setVN 0, segredRow 0x1E2 setVN 0,
   segredRow 0x1E3 setVN mOVF, segredRow 0x1E4 setVF 0, segredRow 0x1E5 setVL 0,
   segredRow 0x1E6 setVL 0]

/-- The gather-class instructions (R163). -/
def gatherRows : List OpRow :=
  let m := mSTATUS + mSTRICT
  [⟨0x280, setGT, false, m, 0, 0, kT, kT, kT, .none, .gm⟩,
   ⟨0x281, setGT, false, m, 0, 0, kT, kT, kS, .none, .gm⟩,
   ⟨0x282, setGT, false, m, 0, 0, kT, kS, kS, .none, .gm⟩,
   ⟨0x283, setGT, false, m, 0, 0, kT, kS, kT, .none, .gm⟩,
   ⟨0x288, setMM, false, m, 0, 0, kT, kS, kT, .fixed 0xFF, .gm⟩,
   ⟨0x289, [0], false, mSTATUS, 0, 0, kS, kS, kN, .fixed 0x1, .gm⟩]

/-- The team instructions (R164). -/
def teamRows : List OpRow :=
  [⟨0x300, [0], false, mSTATUS, 0, 0, kS, kS, kS, .none, .sa⟩,
   ⟨0x301, [0], false, mSTATUS, 0, 0, kS, kS, kS, .none, .sa⟩,
   ⟨0x302, [0], false, mSTATUS, 0, 0, kS, kS, kS, .none, .sa⟩,
   ⟨0x303, [0], false, mSTATUS, 0, 0, kS, kS, kS, .none, .sa⟩,
   ⟨0x308, [0], false, 0, 0, 0, kS, kS, kN, .fixed 0xF, .sa⟩,
   ⟨0x309, [0], false, 0, 0, 0, kN, kS, kN, .none, .sa⟩,
   ⟨0x340, [0], false, mSTATUS, 0, 0, kS, kS, kN, .none, .re⟩,
   ⟨0x341, [0], false, 0, 0, 0, kN, kS, kN, .none, .re⟩,
   ⟨0x342, [0], false, 0, 0, 0, kS, kS, kN, .none, .re⟩,
   ⟨0x380, [0], false, mSTATUS, 0, 0, kS, kS, kN, .none, .ue⟩,
   ⟨0x381, [0], false, mSTATUS, 0, 0, kS, kS, kN, .none, .ue⟩,
   ⟨0x382, [0], false, mSTATUS, 0, 0, kS, kS, kN, .none, .ue⟩]

def syRow (code : Nat) (d a b : List Nat) (imm : ImmUse) (mods : Nat) (unpred : Bool) : OpRow :=
  ⟨code, [0], unpred, mods, 0, 0, d, a, b, imm, .sy⟩

/-- The synchronisation and exchange instructions (R165). -/
def syncRows : List OpRow :=
  [syRow 0x3C0 kN kS kSIK .value 0 false, syRow 0x3C1 kN kS kSIK .value 0 false,
   syRow 0x3C2 kN kS kSIK .value 0 false, syRow 0x3C8 kS kS kSIK .value 0 false,
   syRow 0x3C9 kS kS kSIK .value 0 false, syRow 0x3CA kS kS kSIK .value 0 false,
   syRow 0x3D0 kN kN kN .none 0 true, syRow 0x3D1 kN kN kN .none 0 true,
   syRow 0x3D2 kN kN kN .none 0 true, syRow 0x3D8 kS kS kS .none 0 false,
   syRow 0x3E0 kS kS kN .none mSTATUS false, syRow 0x3E1 kS kS kN .none mSTATUS false,
   syRow 0x3E2 kS kS kN .none mSTATUS false, syRow 0x3E3 kS kS kN .none mSTATUS false,
   syRow 0x3E4 kS kS kN .none mSTATUS false]

/-- Every assigned opcode (R149). -/
def opTable : List OpRow :=
  controlRows ++ scalarRows ++ tileRows ++ matrixRows ++ vectorRows ++ scanRows ++ segredRows ++
    gatherRows ++ teamRows ++ syncRows

/-- The row of an opcode, none where it is not assigned (R149). -/
def opRow (code : Nat) : Option OpRow := opTable.find? fun r => r.code == code

/-- The kind of an operand (R138). -/
def kindCode : Operand → Nat
  | .none => 0 | .sreg _ => 1 | .treg _ => 2 | .preg _ => 3 | .creg _ => 4 | .imm => 5
  | .const _ => 6

/-- The VALUE of an operand specifier (R138). -/
def operandVal : Operand → Nat
  | .none => 0 | .sreg n => n | .treg n => n | .preg n => n | .creg n => n | .imm => 0
  | .const n => n

/-- VALUE in range for the kind (R138). -/
def operandInRange (o : Operand) : Bool :=
  match o with
  | .none => true
  | .sreg n => decide (n < 64)
  | .treg n => decide (n < 32)
  | .preg n => decide (n < 16)
  | .creg n => decide (n < 8)
  | .imm => true
  | .const n => decide (n < 4096)

/-- The MOD bits that a row allows with a type code (R143). -/
def OpRow.modMask (r : OpRow) (ty : Nat) : Nat :=
  r.mods ||| (if ty ≤ 0x0A then r.modF else 0) ||| (if 0x10 ≤ ty ∧ ty ≤ 0x15 then r.modI else 0)

/-- The IMM bits that an instruction uses (R139). -/
def OpRow.immMask (r : OpRow) (ty : Nat) (kind5 : Bool) : Nat :=
  match r.imm with
  | .none => 0
  | .fixed m => m
  | .value => if kind5 then 0xFFFFFFFFFFFF else 0
  | .slope => if kind5 then 0xFFFFFFFF else 0
  | .vector =>
    if !kind5 then 0
    else if ty = 0x00 then 0xFFFFFFFF
    else if ty = 0x01 ∨ ty = 0x02 then 0xFFFF
    else 0xFFFFFFFFFFFF

end Sys2Proof.Machine
end

