-- ==== Sys2Proof/Machine/TeamState.lean ====
section
/-! DEFINITION. The state of a core and the parts of a team that a kernel sees
(spec/04 R105 to R119, spec/07 R207, R219, spec/13 R351 to R360). -/

namespace Sys2Proof.Machine

open Sys2Proof

/-- A tile descriptor (R117). TYPE 0xFF marks the null descriptor. -/
structure TileDesc where
  ty : Byte
  space : Byte
  rowsM1 : Byte
  colsM1 : Byte
  layout : Byte
  base : W64
  stride : W32
  scaleBase : W64
  deriving DecidableEq, Repr

/-- The null descriptor (R117). -/
def TileDesc.null : TileDesc := ⟨0xFF, 0, 0, 0, 0, 0, 0, 0⟩

/-- The status events of R197. -/
structure Events where
  sat : Nat := 0
  flush : Nat := 0
  invalid : Nat := 0
  empty : Nat := 0
  idxDrop : Nat := 0
  capDrop : Nat := 0
  addrDrop : Nat := 0
  nullTile : Nat := 0
  invAt : Option (Nat × Nat) := none
  satAt : Option (Nat × Nat) := none
  flushAt : Option (Nat × Nat) := none
  deriving DecidableEq, Repr

/-- An uncompleted instruction of a core on the scoreboard (R119, R120, R122, R166): the register it
writes, those it reads, and the number under which its answer is delivered. -/
structure Awaited where
  dest : Operand
  reads : List Operand
  tag : Nat
  /-- Whether the answer is the reply of a WATCH, an arrival or a collective (R122). -/
  external : Bool
  unit : EngineUnit
  /-- The answer that has come, while an earlier instruction of the unit has not completed (R119). -/
  answer : Option W64 := none
  deriving DecidableEq, Repr

/-- One core's registers, memory and counts (R110, R144, R186, R240, R198, R207). -/
structure Core where
  s : SMap W64
  t : SMap TileDesc
  p : BitVec 16
  c : SMap W32
  mem : Memory
  statusPtr : Option Nat
  number : W16
  q : W64
  qd : W64
  tileQueue : List Nat
  awaited : List Awaited
  deriving DecidableEq, Repr

/-- A core after module reset: zeros, null descriptors, p0 true. -/
def Core.reset : Core := ⟨[], [], 1, [], [], none, 0, 0, 0, [], []⟩

/-- An open loop (R109): the index of the LOOP, the private trip counts of the 16 cores, the
team's trip count T and the iteration i. -/
structure LoopFrame where
  at_ : Nat
  counts : List Nat
  trips : Nat
  iter : Nat
  deriving DecidableEq, Repr

/-- A decoded instruction of a native image: its opcode and fields (R137). -/
structure LumfyWord where
  code : Nat
  args : Args
  deriving DecidableEq, Repr

/-- A stream table entry (R128). -/
structure StreamEntry where
  entry : Nat
  coreBytes : Nat
  clusterBytes : Nat
  accWords : Nat
  flags : W32
  deriving DecidableEq, Repr

/-- A native image in an instruction bank (R133). -/
structure Image where
  code : List LumfyWord
  constants : List Byte
  descs : List TileDesc
  streams : List StreamEntry
  deriving DecidableEq, Repr

/-- An instruction bank: empty, or holding an image (R133). -/
inductive Bank where
  | empty
  | full (image : Image)
  deriving DecidableEq, Repr

/-- A kernel that runs on a team (R102, R105, R123). -/
structure Kernel where
  ctx : W32
  seq : W64
  stream : StreamEntry
  step : W64
  /-- The generator's stream table as read when the LAUNCH started (R260). -/
  genTable : Memory
  pc : Nat
  loops : List LoopFrame
  stopped : Bool
  ended : Bool
  deriving DecidableEq, Repr

/-- A counter object of a cluster (R351). -/
structure SyncObj where
  value : Nat
  poisoned : Bool
  deriving DecidableEq, Repr

/-- A counter object after module reset. -/
def SyncObj.reset : SyncObj := ⟨0, false⟩

/-- The three kinds of watch (R358). -/
inductive WatchKind where
  | ge | eq | claim
  deriving DecidableEq, Repr

/-- Who waits for a watch's reply (R358): a core of this module, or a core of another module
through the fabric (its postcode, the holder's own, and the request's FLOW_SEQ, R354). -/
inductive ReplyTo where
  | core (team core tag : Nat)
  | remote (postcode holder : W16) (tag : W32)
  deriving DecidableEq, Repr

/-- A watch registered, or waiting for room, at a unit (R358). -/
structure Watch where
  obj : Nat
  kind : WatchKind
  n : Nat
  ctx : W32
  whom : ReplyTo
  deriving DecidableEq, Repr

/-- A kept block of a bound mask (R218): block-row, block-column. -/
structure MaskSlot where
  addr : Nat
  generation : W32
  block : Nat
  vtype : Nat
  brows : Nat
  bcols : Nat
  splitLen : Nat
  values : Nat
  bindArea : Nat
  transposed : Bool
  kept : List (Nat × Nat)
  capDropped : Nat
  idxDropped : Nat
  /-- BIND_SIZE, and the free number by which MASK.BIND filled the internal records of the area. -/
  areaSize : Nat
  areaFill : Nat
  deriving DecidableEq, Repr

end Sys2Proof.Machine
end

