-- ==== Sys2Proof/Machine/Operands.lean ====
section
/-! DEFINITION. Registers of a core, operand values and tile descriptors (spec/04 R107, R110, R117,
R118, spec/05 R138, R139, R167). -/

namespace Sys2Proof.Machine

open Sys2Proof

/-- The value of a scalar register. -/
def Core.getS (k : Core) (n : Nat) : W64 := mapGetD k.s 0 n

/-- Writes a scalar register. -/
def Core.setS (k : Core) (n : Nat) (v : W64) : Core := { k with s := mapPut k.s n v }

/-- The descriptor in a tile register. -/
def Core.getT (k : Core) (n : Nat) : TileDesc := mapGetD k.t TileDesc.null n

/-- Writes a tile register. -/
def Core.setT (k : Core) (n : Nat) (v : TileDesc) : Core := { k with t := mapPut k.t n v }

/-- The value of a predicate register; p0 is true in every core (R107, R110). -/
def Core.getP (k : Core) (n : Nat) : Bool := n == 0 || k.p.getLsbD n

/-- Writes a predicate register; p0 cannot be written (R107). -/
def Core.setP (k : Core) (n : Nat) (v : Bool) : Core :=
  if n = 0 then k
  else
    let m : BitVec 16 := BitVec.ofNat 16 (2 ^ n)
    { k with p := if v then k.p ||| m else k.p &&& ~~~m }

/-- The value of a count register. -/
def Core.getC (k : Core) (n : Nat) : W32 := mapGetD k.c 0 n

/-- Writes a count register. -/
def Core.setC (k : Core) (n : Nat) (v : W32) : Core := { k with c := mapPut k.c n v }

/-- IMM as an operand value: sign-extended from bit 47, or zero-extended for the logical and
unsigned operations (R139). -/
def immValue (zeroExtend : Bool) (imm : BitVec 48) : W64 :=
  if zeroExtend then imm.zeroExtend 64 else imm.signExtend 64

/-- The value of a scalar operand of kind s, i or k (R138, R139). -/
def Core.value (k : Core) (x : Args) (zeroExtend : Bool) : Operand → W64
  | .sreg n => k.getS n
  | .imm => immValue zeroExtend x.imm
  | .const n => BitVec.ofNat 64 n
  | _ => 0

/-- Writes a scalar result to the register that D names. -/
def Core.putD (k : Core) (x : Args) (v : W64) : Core :=
  match x.d with
  | .sreg n => k.setS n v
  | _ => k

/-- Writes a predicate result to the register that D names. -/
def Core.putPD (k : Core) (x : Args) (v : Bool) : Core :=
  match x.d with
  | .preg n => k.setP n v
  | _ => k

/-- The predicate that an operand names; none names a false one. -/
def Core.pred (k : Core) : Operand → Bool
  | .preg n => k.getP n
  | _ => false

/-- The descriptor of a tile operand, null where the operand names none. -/
def Core.tile (k : Core) : Operand → TileDesc
  | .treg n => k.getT n
  | _ => TileDesc.null

/-- The count register that an operand names. -/
def Core.count (k : Core) : Operand → W32
  | .creg n => k.getC n
  | _ => 0

/-- Rows, columns and whether the tile is column-major (R117). -/
def TileDesc.rows (d : TileDesc) : Nat := d.rowsM1.toNat + 1
def TileDesc.cols (d : TileDesc) : Nat := d.colsM1.toNat + 1
def TileDesc.colMajor (d : TileDesc) : Bool := d.layout.getLsbD 0
def TileDesc.isNull (d : TileDesc) : Bool := d.ty == 0xFF
def TileDesc.tyN (d : TileDesc) : Nat := d.ty.toNat

/-- The number of lines, and of elements in one line (R175). -/
def TileDesc.lines (d : TileDesc) : Nat := if d.colMajor then d.cols else d.rows
def TileDesc.lineLen (d : TileDesc) : Nat := if d.colMajor then d.rows else d.cols

/-- The bytes of one line (R117). -/
def TileDesc.lineBytes (d : TileDesc) : Nat := ceilDiv (d.lineLen * elemBits d.tyN) 8

/-- Blocks in one line of a block type (R176). -/
def TileDesc.lineBlocks (d : TileDesc) : Nat := if isBlockTy d.tyN then ceilDiv d.lineLen 32 else 0

/-- A block type whose contiguous extent is not a multiple of 32 (R117, R118). -/
def TileDesc.badBlock (d : TileDesc) : Bool := isBlockTy d.tyN && d.lineLen % 32 != 0

/-- A descriptor that a compute instruction treats as null (R118). -/
def TileDesc.nullForCompute (d : TileDesc) : Bool := d.isNull || d.space != 0 || d.badBlock

/-- The descriptor of the 32 bytes of R117. -/
def TileDesc.ofBytes (l : List Byte) : TileDesc :=
  ⟨l.getD 0 0, l.getD 1 0, l.getD 2 0, l.getD 3 0, l.getD 4 0,
   BitVec.ofNat 64 (fieldAt l 8 8), BitVec.ofNat 32 (fieldAt l 0x10 4),
   BitVec.ofNat 64 (fieldAt l 0x18 8)⟩

/-- Whether a descriptor meets R117, reserved bytes apart. -/
def TileDesc.legal (d : TileDesc) : Bool :=
  if d.isNull then d == TileDesc.null
  else
    setDT.contains d.tyN && decide (d.space.toNat ≤ 3) && decide (d.rowsM1.toNat ≤ 127) &&
    decide (d.colsM1.toNat ≤ 127) && d.base.toNat % 64 == 0 && d.stride.toNat % 64 == 0 &&
    decide (d.lineBytes ≤ d.stride.toNat) && d.scaleBase.toNat % 64 == 0 &&
    (if isBlockTy d.tyN then d.lineLen % 32 == 0 else d.scaleBase == 0)

/-- The result of changing a descriptor at run time (R118): BASE, STRIDE and SCALE_BASE rounded
down to a multiple of 64, and whether one of them was not. A STRIDE below the bytes of a line stays, and lines then
overlap: the model's choice (notes/assumptions/64.md). -/
def TileDesc.fix (d : TileDesc) : TileDesc × Bool :=
  let r := d.base.toNat % 64 != 0 || d.stride.toNat % 64 != 0 || d.scaleBase.toNat % 64 != 0
  ({ d with base := BitVec.ofNat 64 (floorTo 64 d.base.toNat)
            stride := BitVec.ofNat 32 (floorTo 64 d.stride.toNat)
            scaleBase := BitVec.ofNat 64 (floorTo 64 d.scaleBase.toNat) }, r)

/-- The bytes of a tile that lie in its extents (R167): first address and count. -/
def TileDesc.extents (d : TileDesc) : List (Nat × Nat) :=
  (d.base.toNat, (d.lines - 1) * d.stride.toNat + d.lineBytes) ::
    (if isBlockTy d.tyN then [(d.scaleBase.toNat, 4 * (d.lines - 1) + d.lineBlocks)] else [])

/-- Whether two byte ranges share a byte. -/
def rangesMeet (a b : Nat × Nat) : Bool :=
  decide (a.1 < b.1 + b.2) && decide (b.1 < a.1 + a.2)

/-- Whether the extents of two tiles overlap (R167). -/
def TileDesc.overlaps (d e : TileDesc) : Bool :=
  d.extents.any fun a => e.extents.any fun b => rangesMeet a b

/-- The byte address and bit offset of element (i, j) (R117, R175, R180). -/
def TileDesc.elemAddr (d : TileDesc) (i j : Nat) : Nat × Nat :=
  let line := if d.colMajor then j else i
  let idx := if d.colMajor then i else j
  let b := idx * elemBits d.tyN
  (d.base.toNat + line * d.stride.toNat + b / 8, b % 8)

/-- The address of the scale of element (i, j) of a block type (R176). -/
def TileDesc.scaleAddr (d : TileDesc) (i j : Nat) : Nat :=
  let line := if d.colMajor then j else i
  let idx := if d.colMajor then i else j
  d.scaleBase.toNat + 4 * line + idx / 32

/-- The registers that an instruction reads: its operands, its predicate, and the tile
registers that IMM names (R120, R155, R159, R161). -/
def readsOf (w : LumfyWord) : List Operand :=
  let extra : List Operand :=
    if w.code = 0x101 ∨ w.code = 0x1AB ∨ (0x1C8 ≤ w.code ∧ w.code ≤ 0x1D6) then
      [.treg (w.args.imm.toNat % 32)]
    else []
  [w.args.d, w.args.a, w.args.b, .preg w.args.pred] ++ extra

/-- The registers that an instruction writes (R120). -/
def writesOf (w : LumfyWord) : List Operand :=
  let extra : List Operand :=
    if 0x1C8 ≤ w.code ∧ w.code ≤ 0x1D6 then [.treg (w.args.imm.toNat % 32)]
    else if w.code = 0x1B1 then [.treg (w.args.imm.toNat / 2 ^ 32 % 32)]
    else []
  if w.code = 0x102 then extra else w.args.d :: extra

/-- Whether the scoreboard of a core lets an instruction issue (R120). -/
def scoreboardClear (k : Core) (w : LumfyWord) : Bool :=
  k.awaited.all fun a =>
    (a.dest == .none || !((readsOf w).contains a.dest || (writesOf w).contains a.dest)) &&
    a.reads.all fun r => !(writesOf w).contains r || r == .none

end Sys2Proof.Machine
end

