-- ==== Sys2Proof/Machine/Flags.lean ====
section
/-! DEFINITION. Status events: their counts, first locations and the operation status record
(spec/06 R194, R197, R198). -/

namespace Sys2Proof.Machine

open Sys2Proof

/-- One ADDR_DROP, one NULL_TILE. -/
def evAddr : Events := { addrDrop := 1 }
def evNull : Events := { nullTile := 1 }

/-- The earlier of two locations: lowest row, then lowest column (R194). -/
def firstLoc : Option (Nat × Nat) → Option (Nat × Nat) → Option (Nat × Nat)
  | none, y => y
  | some x, none => some x
  | some x, some y => if x.1 < y.1 ∨ (x.1 = y.1 ∧ x.2 ≤ y.2) then some x else some y

/-- The events of two parts of one instruction. -/
def Events.plus (x y : Events) : Events :=
  { sat := x.sat + y.sat, flush := x.flush + y.flush, invalid := x.invalid + y.invalid
    empty := x.empty + y.empty, idxDrop := x.idxDrop + y.idxDrop
    capDrop := x.capDrop + y.capDrop, addrDrop := x.addrDrop + y.addrDrop
    nullTile := x.nullTile + y.nullTile
    invAt := firstLoc x.invAt y.invAt, satAt := firstLoc x.satAt y.satAt
    flushAt := firstLoc x.flushAt y.flushAt }

/-- Counts the flags of one output element at its coordinates. -/
def Events.count (e : Events) (i j : Nat) (f : Flags) : Events :=
  { e with
    sat := e.sat + natOf f.sat, flush := e.flush + natOf f.flush
    invalid := e.invalid + natOf f.invalid
    satAt := if f.sat then firstLoc e.satAt (some (i, j)) else e.satAt
    flushAt := if f.flush then firstLoc e.flushAt (some (i, j)) else e.flushAt
    invAt := if f.invalid then firstLoc e.invAt (some (i, j)) else e.invAt }

/-- ADDR_DROP counts at most once for an instruction in a core (R116, R197). -/
def Events.withAddr (e : Events) (b : Bool) : Events :=
  if b then { e with addrDrop := 1 } else e

/-- The eight counts in the order of R197. -/
def Events.list (e : Events) : List Nat :=
  [e.sat, e.flush, e.invalid, e.empty, e.idxDrop, e.capDrop, e.addrDrop, e.nullTile]

/-- Every event counted (R200). -/
def Events.total (e : Events) : Nat := e.list.foldl (· + ·) 0

/-- A first-location field (R198): row in [7:0], column in [15:8], 0xFFFF for none. -/
def locField : Option (Nat × Nat) → Nat
  | none => 0xFFFF
  | some (i, j) => i % 256 + 256 * (j % 256)

/-- The 32-byte operation status record (R198). A team instruction has no first locations. -/
def statusRecord (e : Events) (code ty : Nat) (team : Bool) (number : W16) : List Byte :=
  leBytes 4 (satTo 0xFFFFFFFF e.sat) ++ leBytes 4 (satTo 0xFFFFFFFF e.flush) ++
  leBytes 4 (satTo 0xFFFFFFFF e.invalid) ++ leBytes 2 (satTo 0xFFFF e.empty) ++
  leBytes 2 (satTo 0xFFFF e.idxDrop) ++ leBytes 2 (satTo 0xFFFF e.capDrop) ++
  leBytes 2 (satTo 0xFFFF e.addrDrop) ++ leBytes 2 (satTo 0xFFFF e.nullTile) ++
  leBytes 2 (code + 1024 * ty) ++
  leBytes 2 (if team then 0xFFFF else locField e.invAt) ++
  leBytes 2 (if team then 0xFFFF else locField e.satAt) ++
  leBytes 2 (if team then 0xFFFF else locField e.flushAt) ++ leBytes 2 number.toNat

/-- Adds an instruction's events to the eight counters of a context, saturating at 2^64 - 1 (R199). -/
def addCounters (counters : List Nat) (e : Events) : List Nat :=
  (List.range 8).map fun i =>
    satTo (2 ^ 64 - 1) (counters.getD i 0 + e.list.getD i 0)

end Sys2Proof.Machine
end

