-- ==== Sys2Proof/Config.lean ====
section
/-! DEFINITION. The free values: constants without a body, so that nothing is known of them
(notes/assumptions/7.md, 8.md). -/

namespace Sys2Proof

/-- A free yes or no, numbered: which of two outcomes the module takes where the spec says
"unspecified, one of" (spec/00 R4). The arguments are a draw count of the state and an index. -/
opaque Config.choice : Nat → Nat → Bool

/-- A free word, numbered, for a value that the spec does not state. -/
opaque Config.freeWord : Nat → W64

/-- The functions of spec/08 R236 whose results the spec bounds and does not fix. -/
inductive Config.Fn where
  | exp | log | tanh | sigmoid | gelu | silu
  deriving DecidableEq, Repr

/-- The binary32 result that the part prefers for a binary32 input; the bound of R237 limits it. -/
opaque Config.nonlinear : Config.Fn → W32 → W32

/-- For a non-decreasing function (R237), the first input, by its rank among the binary32 values,
at which the result may reach a value, by its rank. -/
opaque Config.turn : Config.Fn → Int → Int

/-- The factor that the part prefers for a derivative code 0x08 to 0x0B of MMA.DRV and a binary32
input, where its arithmetic is not given; the bound of R317 limits it (spec/11 R314, R317). -/
opaque Config.derivative : Nat → W32 → W32

/-- Which of the two binary32 values next to the exact result VRCP (false) or VRSQRT (true) gives
for an input where the exact result is not representable: both lie within 1 ulp (R237). -/
opaque Config.roundsUp : Bool → W32 → Bool

/-- The check code of an accumulation store row over its 120 bits of words, which the spec does not give (spec/11 R319). -/
opaque Config.acsCode : BitVec 120 → Byte

/-- Bytes of the on-chip part of a snapshot image for a team count, which the spec bounds and does not
state (spec/15 R418). -/
opaque Config.onChipBytes : Nat → Nat

end Sys2Proof
end

