-- ==== Sys2Proof/Machine/UnitState.lean ====
section
/-! DEFINITION. The state of the engines of a cluster, of the hub, of the fabric and of the
functions (spec/02, 03, 07, 09, 10, 12 to 20). -/

namespace Sys2Proof.Machine

open Sys2Proof

/-- Where a command's completion is owed: the context it was sent in, and its SEQ. -/
structure CmdRef where
  ctx : W32
  seq : W64
  deriving DecidableEq, Repr

/-! ### Sampler (spec/09) -/

/-- A registered graph (R253, R254): its image and the header fields that the sampler uses. -/
structure Graph where
  image     : Nat
  wide      : Bool
  options   : Nat
  nodes     : Nat
  edges     : Nat
  offsetsAt : Nat
  nbrAt     : Nat
  wgtAt     : Nat
  prefixAt  : Nat
  tsAt      : Nat
  deriving DecidableEq, Repr

/-- A request queued at a team unit (R164): the instruction, the core whose operands it uses,
and the operand values. -/
structure UnitReq where
  word : LumfyWord
  core : Nat
  a    : W64
  b    : W64
  tag  : Nat
  deriving DecidableEq, Repr

/-- A parcel slot (R274): its handle count, the request it draws with the graph and the SEED of its
stream, the kept seeds, and the header when the parcel is complete (R273). -/
structure Parcel where
  count    : W32
  ctx      : W32
  graph    : Nat
  src      : Graph
  seed     : W64
  mode     : Nat
  record   : List Byte
  seeds    : List Nat
  dropped  : Nat
  dups     : Nat
  complete : Bool
  freeing  : Bool
  header   : List Byte
  /-- The length of `State.stackLog` when the parcel began: what it reads may be older (R254, R277). -/
  since    : Nat
  /-- The pieces of the buffer that it has written: offset and length (R277). -/
  wrote    : List (Nat × Nat) := []
  deriving DecidableEq, Repr

/-- The sampler of a cluster (R274). -/
structure Sampler where
  queue  : List UnitReq := []
  slots  : SMap Parcel := []
  count  : W32 := 0
  deriving DecidableEq, Repr

/-! ### Row engine (spec/10) -/

/-- What a row handle waits for (R290, R294). -/
inductive StagePhase where
  | parcel | queued | staging | staged
  deriving DecidableEq, Repr

/-- A row handle slot (R291): the request record, its core, the rows, and the staged pages. -/
structure RowSlot where
  count     : W32
  ctx       : W32
  core      : Nat
  recordAt  : Nat
  record    : List Byte
  phase     : StagePhase
  order     : Nat
  ids       : List Nat
  version   : W32
  page      : Nat
  pages     : Nat
  dropped   : Nat
  late      : Bool
  releasing : Bool
  deriving DecidableEq, Repr

/-- A hot slot (R296): the value part of one row of a table. -/
structure HotSlot where
  table : Nat
  row   : Nat
  value : List Byte
  deriving DecidableEq, Repr

/-- A migration (R298): what it moves, whether it promotes, its phase and its poste restante
queue of slot writes. -/
structure Migration where
  table   : Nat
  row     : Nat
  promote : Bool
  copying : Bool
  queue   : List (List Byte)
  deriving DecidableEq, Repr

/-- The row engine of a cluster (R288 to R299). -/
structure RowEngine where
  slots     : SMap RowSlot := []
  count     : W32 := 0
  order     : Nat := 0
  lookups   : SMap Nat := []
  inWindow  : Nat := 0
  /-- Lookups made since a window was full, by their keys: those of the next (R297). -/
  ahead     : List Nat := []
  hot       : List HotSlot := []
  migration : Option Migration := none
  moves     : PlaceChoice := ⟨[], []⟩
  deriving DecidableEq, Repr

/-! ### Update engine (spec/12) -/

/-- The constants of a begun request (R342, R344, R347). -/
structure UpdConsts where
  q      : W32
  c1     : W32
  c2     : W32
  reason : Nat
  deriving DecidableEq, Repr

/-- A taken UPD.TENSOR or UPD.ROWS (R333): its record, group entry, curve values and, for rows,
the table and identifiers its handle named. -/
structure UpdReq where
  rows     : Bool
  core     : Nat
  ctx      : W32
  seq      : W64
  recordAt : Nat
  record   : List Byte
  rule     : Nat
  flags    : Nat
  clip     : W32
  eps      : W32
  eta      : W32
  lambda   : W32
  beta1    : W32
  beta2    : W32
  t        : Nat
  step     : W64
  barrier  : W64
  done     : W64
  ids      : List Nat
  held     : Bool
  begun    : Option UpdConsts
  fault    : Nat
  /-- Teams of its update set whose requests have ended as skips (R302, R342). -/
  gone     : List Nat := []
  /-- Events of a held set that its completion counts (R346). -/
  ev       : Events := { }
  /-- The length of `State.stackLog` when the request began: what it reads may be older (R348). -/
  since    : Nat := 0
  /-- The release of its step that a pause of its table has kept for it (R306). -/
  kept     : Option Release := none
  deriving DecidableEq, Repr

/-- The values of a request that the journal records with its first block mark (R347). -/
structure UpdVals where
  consts : UpdConsts
  eta    : W32
  lambda : W32
  beta1  : W32
  beta2  : W32
  deriving DecidableEq, Repr

/-- The marks of a block (R98). -/
inductive Mark where
  | begun | staged | done
  deriving DecidableEq, Repr

/-- A block of a LAUNCH in the journal (R98, R303, R347): the home of its first byte, its mark, the values of its request
and its events. Until it is DONE, `fresh` holds its new contents, which are what the scratch copy holds where it is
STAGED, and `old` those before; the pieces are given by home address, with the row where they are slices of a table. -/
structure Block where
  key   : Nat
  mark  : Mark
  vals  : UpdVals
  ev    : Events
  table : Option Nat := none
  fresh : List (Nat × Nat × List Byte) := []
  old   : List (Nat × List Byte) := []
  deriving DecidableEq, Repr

/-- An UPD.NORM in progress (R338): its instruction, core, tag, and record with its address. -/
structure NormReq where
  word   : LumfyWord
  core   : Nat
  tag    : Nat
  addr   : Nat
  record : List Byte
  /-- The length of `State.stackLog` when it was taken: what it reads may be older (R348). -/
  since  : Nat
  deriving DecidableEq, Repr

/-- The update engine of a cluster (R348). -/
structure UpdEngine where
  queue : List UpdReq := []
  norms : List NormReq := []
  deriving DecidableEq, Repr

/-! ### Hub objects and the commit barrier (spec/13, 15) -/

/-- An arrival (R361): who arrived, its record, and the launch it belongs to. -/
structure Arrival where
  postcode : W16
  epoch    : W16
  team     : Nat
  core     : Nat
  /-- At the home's own module the core's tag; from another module the frame's FLOW_SEQ. -/
  whom       : ReplyTo
  ctx      : W32
  step     : W64
  norm2    : W32
  count    : W32
  check    : W32
  deriving DecidableEq, Repr

/-- A release that waits for its postmark at its home (R363), and the arrivals of this module that
it completes. -/
structure Placed where
  release  : Release
  at_      : W64
  arrivals : List Arrival
  deriving DecidableEq, Repr

/-- A role absent from a barrier (R425, R428, R429): whether it is covered or held again, and its
join release once that is fixed. -/
structure Absence where
  role    : W16
  covered : Bool
  join    : Option Release
  deriving DecidableEq, Repr

/-- A claimed hub object (R351, R353, R356, R362, R428, R430): a counter's VALUE and POISONED; a
barrier's E, tally, last released step with the arrivals of that release, the release whose postmark
has passed, the placed releases, the absent set and the relay window. -/
structure HubObj where
  owner     : W32
  barrier   : Bool
  value     : Nat := 0
  poisoned  : Bool := false
  expected  : Nat := 0
  tally     : List Arrival := []
  last      : Option Release := none
  /-- The release postmark of `last` (R429). -/
  lastAt    : W64 := 0
  lastTo    : List Arrival := []
  released  : Option Release := none
  placed    : List Placed := []
  absent    : List Absence := []
  relay     : Option W64 := none
  relayed   : List Release := []
  deriving DecidableEq, Repr

/-! ### Postmark unit (spec/02) -/

/-- A channel record and a slot entry of a schedule (R388). -/
structure SchedChannel where
  id   : W16
  src  : W16
  dest : W16
  deriving DecidableEq, Repr

structure SlotEntry where
  slot    : Nat
  send    : Bool
  outPort : Nat
  inPort  : Nat
  channel : W16
  deriving DecidableEq, Repr

/-- A schedule (R61, R388). -/
structure Schedule where
  version  : W16
  slots    : Nat
  start    : W64
  lead     : Nat
  channels : List SchedChannel
  entries  : List SlotEntry
  deriving DecidableEq, Repr

/-- STATE of PM_STATUS (R52). -/
inductive TimeState where
  | unposted | locked | holdover | slewing
  deriving DecidableEq, Repr

/-- The postmark unit beside its counter (R44 to R70). -/
structure TimeUnit where
  phase           : W16 := 0
  state           : TimeState := .unposted
  role            : Nat := 0
  /-- The SOURCE in force: that of PM_TIME as the last start-up loaded it (R49, R461). -/
  source          : Nat := 0
  refPresent      : Bool := false
  upstream        : Nat := 0
  hops            : Nat := 0
  master          : W16 := 0
  offset          : Int := 0
  lockAt          : W64 := 0
  lossAt          : W64 := 0
  losses          : Nat := 0
  late            : Nat := 0
  mismatch        : Nat := 0
  masterChanges   : Nat := 0
  everLocked      : Bool := false
  /-- Whether the unit has followed a master (R50). -/
  followed        : Bool := false
  /-- Whether a backup has taken over as master (R50). -/
  acting          : Bool := false
  /-- Whether the master that it follows is a primary master (R50). -/
  underPrimary    : Bool := false
  badFrames       : Nat := 0
  second          : W64 := 0
  edges           : Nat := 0
  active          : Option Schedule := none
  pending         : Option (Schedule × CmdRef) := none
  /-- One more than the index of the round whose boundary was last acted on; 0 for none. -/
  round           : Nat := 0
  fallback        : Bool := false
  deriving DecidableEq, Repr

/-! ### Fabric (spec/14, 15) -/

/-- STATE of PORT_STATUS (R374). -/
inductive PortState where
  | dark | down | training | up | swapping | out
  deriving DecidableEq, Repr

/-- A port (R373 to R375, R408). -/
structure Port where
  state        : PortState := .down
  laneMap      : BitVec 9 := 0
  delay        : W16 := 0
  peerPostcode : W16 := 0xFFFF
  peerPort     : Byte := 0xFF
  retrains     : Nat := 0
  retired      : List Nat := []
  peerVersion  : Option W16 := none
  peerHops     : Option Nat := none
  peerMaster   : W16 := 0
  /-- Whether the master that the port's last time frame names is a primary master (R50). -/
  peerPrimary  : Bool := false
  attempts     : Nat := 0
  /-- The asymmetry that training calibrated and that corrects DELAY (R48, R374); the spec gives it no form. -/
  asymmetry    : W16 := 0
  /-- Trainings that failed one after another (R412 class 6). -/
  failures     : Nat := 0
  /-- The postcodes that the neighbour has advertised as its own since its last time frame (R381, R408). -/
  adverts      : List W16 := []
  deriving DecidableEq, Repr

/-- A role of this module (R379), with the count of its collectives (R400). -/
structure Role where
  epoch   : W16
  mask    : W32
  ctx     : W32
  issued  : W32
  /-- Whether its loss has been declared while this module is still alive (R423, R424). -/
  lost    : Bool
  deriving DecidableEq, Repr

/-- What a module knows of a postcode held elsewhere (R381, R423): its highest epoch, and by port the hops to its
holder that the neighbour there last advertised. -/
structure Route where
  epoch   : W16
  lost    : Bool
  covered : Bool
  via     : SMap Nat
  deriving DecidableEq, Repr

/-- A frame that arrived early in its flow (R384): its port, when it came, the frame. -/
structure HeldFrame where
  port  : Nat
  at_   : W64
  frame : Frame
  deriving DecidableEq, Repr

/-- The receiving side of a flow (R384): the next FLOW_SEQ, none after a break, and held frames. -/
structure FlowIn where
  next : Option W32
  held : List HeldFrame
  deriving DecidableEq, Repr

/-- A mailbag kept until acknowledged (R394): when it was last sent, on which port. -/
structure Retained where
  bag  : Mailbag
  sent : W64
  port : Option Nat
  deriving DecidableEq, Repr

/-- The count of a channel between two roles: the next CHAN_SEQ, and the epochs for which it counts. -/
structure ChanCount where
  next : W32
  own  : W16
  peer : W16
  deriving DecidableEq, Repr

/-- A channel at its origin (R389, R390): queued mailbags, and its count for each pair of roles that a schedule has given
it to. -/
structure Chan where
  queue  : List Mailbag := []
  counts : SMap ChanCount := []
  deriving DecidableEq, Repr

/-- A channel at its destination (R394, R395): its origin, the next CHAN_SEQ to deliver, mailbags
that came early, whether a cumulative acknowledgement is due. -/
structure ChanIn where
  origin   : W16
  epoch    : W16
  dest     : W16
  destEpoch : W16
  channel  : W16
  next     : W32
  early    : List Mailbag
  ackDue   : Bool
  deriving DecidableEq, Repr

/-- A diverted mailbag in reassembly (R396): who sends its parts, its header and the payload so far. -/
structure Parts where
  src   : W16
  bag   : Mailbag
  /-- The POSTMARK of its frames, which are sent at one instant. -/
  sent  : W64
  /-- The payloads that have come, by FLOW_SEQ. -/
  got   : List (W32 × List Byte)
  deriving DecidableEq, Repr

/-- A message of a collective from a peer (R399, R401, R404): its first message with the CRC, COUNT
and NO_DATA; the news of a mismatch; data in a frame or a mailbag by index; a HALO transfer received; the news that bytes
of one were dropped. -/
inductive CollMsg where
  | hello (crc count : W32) (noData : Bool)
  | abort
  | frame (index : Nat) (data : List Byte)
  | bag (index : Nat) (data : List Byte)
  | halo
  | dropped
  deriving DecidableEq, Repr

/-- A message that arrived before its collective began here (R400). -/
structure Early where
  role   : W16
  number : W32
  src    : W16
  msg    : CollMsg
  deriving DecidableEq, Repr

/-- A collective of this module (R398 to R404): its role and number, its instruction with tag and
descriptor; the first messages that came, by rank; the bytes that came for each stage, by included
index and offset; its reduction's events; transfers received; its status, and the old bytes of DST. -/
structure Coll where
  role     : W16
  number   : W32
  team     : Nat
  core     : Nat
  ctx      : W32
  seq      : W64
  tag      : Nat
  word     : LumfyWord
  desc     : List Byte
  running  : Bool := false
  hello    : SMap (W32 × Bool) := []
  stage1   : SMap (SMap (List Byte)) := []
  stage2   : SMap (SMap (List Byte)) := []
  reduced  : Bool := false
  ev       : Events := { }
  received : Nat := 0
  status   : W16 := 0
  old      : List (Nat × Byte) := []
  /-- Parts of HALO transfers that came in mailbags: the peer, the entry of its list, and how many are in (R404). -/
  parts    : List (W16 × Nat × Nat) := []
  deriving DecidableEq, Repr

/-- What waits for a frame's reply (R115, R354, R361, R304, R404). -/
inductive RemoteWork where
  /-- One request of a TCOPY that reads FABRIC: the offset it asks for. -/
  | read (tag : Nat) (at_ : Nat)
  /-- One FABRIC write of a TCOPY or TFILL. -/
  | write (tag : Nat)
  /-- A signal, or an initialisation, of the object of an index, and its core's tag. -/
  | signal (tag index : Nat) (init : Bool)
  /-- A watch on the object of an index whose reply goes to D. -/
  | watch (tag index : Nat)
  /-- An arrival sent to its home. -/
  | arrive (tag index : Nat) (arrival : Arrival) (held : Bool)
  /-- A mirror write of a table's row. -/
  | mirror (ctx : W32) (table : Nat) (buddy : W16)
  /-- A frame of a HALO transfer. -/
  | halo (role : W16) (number : W32)
  /-- A control or data frame of a collective. -/
  | coll (role : W16) (number : W32)
  deriving DecidableEq, Repr

/-- What a queued instruction of the tile mover does: a copy from FABRIC, one to FABRIC, or one within the module. -/
inductive TransferKind where
  | read | write | here
  deriving DecidableEq, Repr

/-- A TCOPY or TFILL in the queue of a core's tile mover (R115, R119, R154): its tag, its tiles, the value of a TFILL, the
frames not yet answered, the bytes that came by FABRIC address. -/
structure Transfer where
  tag  : Nat
  kind : TransferKind
  team : Nat
  core : Nat
  word : LumfyWord
  dst  : TileDesc
  src  : TileDesc
  value : Nat
  left : Nat
  data : Memory
  dropped : Bool
  deriving DecidableEq, Repr

/-- An operation of this module that awaits an answer over the fabric, by the FLOW_SEQ of the
frame it sent and the role it sent it to (R386). -/
structure Remote where
  flowSeq : W32
  src  : W16
  dest : W16
  team : Nat
  core : Nat
  ctx  : W32
  seq  : W64
  work : RemoteWork
  deriving DecidableEq, Repr

/-- A release received from another module that waits for its postmark (R363). -/
structure Incoming where
  entry   : Remote
  index   : Nat
  tag     : Nat
  release : Release
  at_     : W64
  deriving DecidableEq, Repr

/-- A dead-letter queue entry (R411). -/
structure DeadLetter where
  header   : List Byte
  parkedAt : W64
  reason   : Nat
  port     : W16
  payload  : List Byte
  deriving DecidableEq, Repr

/-- FABRIC_STATS0 to FABRIC_STATS2 (R409) and the queue of R387, R410. -/
structure FabricStats where
  e2eCorrected : W32 := 0
  e2eResent    : W32 := 0
  diverted     : W32 := 0
  unmatched    : Nat := 0
  roleReturns  : Nat := 0
  hopRetries   : W32 := 0
  dupDiscarded : Nat := 0
  conflicts    : Nat := 0
  cartChanges  : Nat := 0
  dlq          : List DeadLetter := []
  overflow     : Nat := 0
  total        : W32 := 0
  deriving DecidableEq, Repr

/-- What the module sends out: frames, mailbags, time frames, advertisements, interrupt
messages, in the order sent. -/
inductive Out where
  | frame (port : Nat) (f : Frame)
  | mailbag (port : Nat) (m : Mailbag)
  | time (port : Nat) (f : TimeFrame)
  | advert (port : Nat) (a : Advert)
  | msix (fn : Nat) (addr : W64) (data : W32)
  | notify (core : Nat)
  | relay (dest : W16) (index : Nat) (r : Release)
  | joinRelease (dest : W16) (r : Release)
  | snapshotHeader (postcode : W16) (header streams : List Byte)
  /-- A copy of a range: of the source's region after its updates up to a step (R426), or of the source's image of a
  snapshot (R432). -/
  | copyRequest (source : W16) (step : W64) (offset bytes : Nat) (snap : Option W32)
  deriving DecidableEq, Repr

/-- What came for a role of this module during SLEEP and waits in its buffer (R490), with its port. -/
inductive Asleep where
  | frame (port : Nat) (f : Frame)
  | bag (port : Nat) (m : Mailbag)
  deriving DecidableEq, Repr

/-- The fabric as the module holds it. -/
structure Fabric where
  ports    : SMap Port := []
  roles    : SMap Role := []
  routes   : SMap Route := []
  sentSeq  : SMap W32 := []
  flows    : SMap FlowIn := []
  waiting  : List Frame := []
  chans    : SMap Chan := []
  chansIn  : SMap ChanIn := []
  busy     : SMap Nat := []
  retained : List Retained := []
  /-- When each SEND entry of the schedule last sent a mailbag (R390). -/
  slots    : SMap W64 := []
  parts    : List Parts := []
  colls    : List Coll := []
  early    : List Early := []
  /-- The collectives that ended here: role, number, and the CRC-32 of their values (R399). -/
  ended    : List (W16 × W32 × W32) := []
  remote   : List Remote := []
  reads    : List Transfer := []
  arriving : List (Nat × Arrival) := []
  releases : List Incoming := []
  lastRel  : SMap Release := []
  /-- Objects of other modules that an answer has shown to be poisoned: postcode and index (R342, R360). -/
  poisoned : List (W16 × Nat) := []
  /-- Reads that copy a range for the new holder of a lost role and wait for updates here (R426). -/
  copies   : List Frame := []
  stats    : FabricStats := { }
  cart0    : Bool := true
  cart1    : Bool := true
  asleep   : List Asleep := []
  out      : List Out := []
  deriving DecidableEq, Repr

/-! ### Faults, spares and takeover (spec/01, 15) -/

/-- STATE of TAKEOVER_STATUS (R439). -/
inductive TakeState where
  | none | armed | holding | copying | joined | failed
  deriving DecidableEq, Repr

/-- Faults, spare units and takeover. -/
structure Faults where
  lastClass      : Nat := 0
  selfFenced     : Bool := false
  lastUnit       : Nat := 0xFF
  contained      : Nat := 0
  stackCorrected : Nat := 0
  at_            : W64 := 0
  changes        : Nat := 0
  spareUsed      : List Nat := []
  clusterOut     : List Nat := []
  laneUsed       : List Nat := []
  portOut        : List Nat := []
  pchUsed        : List Nat := []
  pchFailed      : List Nat := []
  filling        : List Nat := []
  stackOut       : List Nat := []
  auditing       : List Nat := []
  cores          : List Nat := [0, 1, 2, 3, 4, 5, 6, 7]
  faultIn        : Bool := false
  take           : TakeState := .none
  takePostcode   : W16 := 0xFFFF
  takeEpoch      : W16 := 0
  takeStep       : W64 := 0
  takeCursor     : W64 := 0
  takeCmd        : Option CmdRef := none
  joinStep       : Option W64 := none
  armed          : List W16 := []
  arming         : Option (W16 × CmdRef × List Nat) := none
  records        : SMap (List Byte × List Byte) := []
  /-- Roles that this module recovers itself (R423, R424), as it last held them. -/
  retake         : SMap Role := []
  /-- The RESTORE of a new holder that waits for the copies of its sources' images (R432). -/
  restoring      : Option CmdRef := none
  deriving DecidableEq, Repr

/-! ### Interrupt controller (spec/17) -/

/-- The bank of a destination (R468 to R471). -/
structure IrqBank where
  pend    : SMap W32 := []
  mask    : SMap W32 := []
  latched : SMap W32 := []
  s       : Bool := false
  msgs    : W32 := 0
  rearms  : W32 := 0
  deriving DecidableEq, Repr

/-- SRC_CFG's writable fields (R475). -/
structure SrcCfg where
  edge    : Bool
  routePf : Bool
  storm   : Byte
  stuckUs : W16
  deriving DecidableEq, Repr

/-- The interrupt controller (R462 to R478). -/
structure Irq where
  cfg    : SMap SrcCfg := []
  mc     : SMap IrqBank := []
  pulses : List Nat := []
  live   : List Nat := []
  edges  : SMap Nat := []
  /-- The counts of the window that ended at the last whole millisecond, and the sources whose STORM was set in the
  present window (R474). -/
  ended  : SMap Nat := []
  stormed : List Nat := []
  since  : SMap W64 := []
  storm  : List Nat := []
  stuck  : List Nat := []
  caught : List Nat := []
  deriving DecidableEq, Repr

/-! ### Functions (spec/03, 16, 17, 19) -/

/-- A reply (R84). -/
structure Reply where
  seq      : W64
  status   : W16
  kind     : Nat
  repost   : Bool
  ctx      : W32
  postmark : W64
  countA   : W32
  countB   : W32
  irq      : Bool
  deriving DecidableEq, Repr

/-- A snapshot record (R419). -/
structure SnapRec where
  id         : W32
  ctx        : W32
  dest       : Nat
  size       : Nat
  nextStep   : W64
  cursor     : W64
  stride     : W64
  teams      : Nat
  regionBase : W64
  regionSize : W64
  idrev      : W64
  deriving DecidableEq, Repr

/-- A franking record (R453, R456). -/
structure Frank where
  index   : Nat := 0
  flags   : Nat := 0
  energy  : Nat := 0
  coreNs  : Nat := 0
  stackNs : Nat := 0
  link    : Nat := 0
  commands : Nat := 0
  start   : Nat := 0
  asOf    : Nat := 0
  deriving DecidableEq, Repr

/-- A PCIe function: its letterbox, rings, interrupt bank, MSI-X, aperture, isolation registers,
snapshot records and franking counts. -/
structure Fn where
  sqBase      : Nat := 0
  sqLog       : Nat := 0
  sqOn        : Bool := false
  sqTail      : Nat := 0
  sqHead      : Nat := 0
  rqBase      : Nat := 0
  rqLog       : Nat := 0
  rqOn        : Bool := false
  rqConsumed  : Nat := 0
  rqTail      : Nat := 0
  phase       : Bool := true
  sqError     : Bool := false
  rqError     : Bool := false
  journalLost : Bool := false
  accepted    : W32 := 0
  rejected    : W32 := 0
  held        : List Reply := []
  written     : List Reply := []
  bank        : IrqBank := { }
  msixAddr    : W64 := 0
  msixData    : W32 := 0
  msixMask    : Bool := true
  msixOn      : Bool := false
  msixFnMask  : Bool := false
  msixPending : Bool := false
  /-- Whether a message was sent since the controller's last tick: one at most goes out per tick (R469). -/
  messaged    : Bool := false
  /-- The packet that a management core still holds (R74): the reply that decided it, and the bytes that the reply
  ring held in its place. -/
  inHand      : Option (Reply × List Byte) := none
  bar2Base    : Nat := 0
  shadow      : Option (Nat × W32) := none
  isoA        : W64 := 0
  isoB        : W64 := 0
  snaps       : List SnapRec := []
  frank       : Frank := { }
  frankCur    : Frank := { }
  periods     : List Frank := []
  /-- Core-ns held on each die since the last energy interval (R454). -/
  interval    : List Nat := [0, 0, 0, 0]
  deriving DecidableEq, Repr

/-! ### Postmaster partition (spec/16) -/

/-- The postmaster's values (R458). -/
structure Postmaster where
  moduleId  : W64 := 1
  tjLimit   : Nat := 0x69
  vinMin    : Nat := 0xD8
  vinMax    : Nat := 0x108
  role      : Nat := 0
  source    : Nat := 0
  epochNext : Option W64 := none
  secondNext : Option W64 := none
  layout    : Nat := 0
  clusterFused : Nat := 0
  ignored   : Nat := 0
  reqOk     : Nat := 0
  reqRefused : Nat := 0
  rights    : List Byte := [0x3F, 0, 0, 0]
  ctrs      : List W64 := [0, 0, 0, 0]
  keys      : List (List Byte) := [[], [], [], []]
  deriving DecidableEq, Repr

/-! ### Power, clocks, start-up (spec/18) -/

/-- STATE of PWR_STATUS, with OFF and loss of supply (R488). -/
inductive PowerState where
  | active | doze | sleep
  deriving DecidableEq, Repr

/-- Where a reset or start-up stands (R493 to R496): running, waiting in step 6 of R494 for
MOD_RESET_N, OFF, without supply, or starting. -/
inductive BootPhase where
  | running | resetHeld | off | noSupply | starting
  deriving DecidableEq, Repr

/-- A die's clock (R508). -/
structure Die where
  mhz       : Nat := 1200
  mv        : Nat := 750
  tj        : Nat := 0
  stretches : W32 := 0
  stretched : Bool := false
  deriving DecidableEq, Repr

/-- A firmware bank of the flash (R501). -/
structure Firmware where
  version : Nat
  valid   : Bool
  deriving DecidableEq, Repr

/-- Power, clocks, contacts and start-up. -/
structure Power where
  sleepReq     : Bool := false
  autoDoze     : Bool := true
  idleUs       : Nat := 0x3E8
  fCeil        : Nat := 0x1C
  state        : PowerState := .active
  sleepRefused : Bool := false
  waking       : Bool := false
  ready        : Bool := false
  bootStep     : Nat := 0
  hubTj        : Nat := 0
  tjMax        : Nat := 0
  dozeEntries  : Nat := 0
  sleepEntries : Nat := 0
  telem        : W64 := 0
  dies         : SMap Die := []
  lastType     : Nat := 1
  journalKept  : Bool := false
  resets       : Nat := 0
  thermTrips   : Nat := 0
  bankA        : Firmware := ⟨1, true⟩
  bankB        : Firmware := ⟨0, false⟩
  bank         : Nat := 0
  fwVersion    : Nat := 0
  staged       : Bool := false
  stRetired    : Nat := 0
  failedStep   : Nat := 0
  boot         : BootPhase := .starting
  supplyBad    : Bool := false
  /-- The input voltage that the module last noted, in 10 mV (R481, R507). -/
  vin          : Nat := 2400
  hot          : List Nat := []
  tripped      : Bool := false
  /-- Whether a thermal trip has stopped the die clocks and put the stacks into self-refresh (R487). -/
  clocksStopped : Bool := false
  pwrEn        : Bool := true
  pwrGood      : Bool := false
  modResetN    : Bool := true
  faultOutN    : Bool := true
  deriving DecidableEq, Repr

/-- What the module times from nanosecond to nanosecond: in the present energy interval, its length, and how long no
context held a team of each die and, last, of the module (R454); and per pre-empted context, when its quiesce had ended
(R450). -/
structure Meter where
  elapsed : Nat := 0
  unheld  : List Nat := [0, 0, 0, 0, 0]
  quiet   : SMap W64 := []
  deriving DecidableEq, Repr

/-! ### Registers without an owner elsewhere -/

/-- SC_SELECT and the latched counters of one requester (R201 to R203). -/
structure ScCopy where
  ctx    : W32 := 0
  valid  : Bool := false
  counts : List Nat := []
  deriving DecidableEq, Repr

/-- ROW_PLACE, ROW_STATS, ACS_ERRORS, UPD_STATS, SYNC_STATS, STACK_TEMP, ACCESS_STATS
(R309, R310, R324, R350, R372, R520, R521). -/
structure Regs where
  scPf        : ScCopy := { }
  scI3c       : ScCopy := { }
  placeOn     : Bool := true
  promote     : Nat := 0x40
  maxMoves    : Nat := 0x40
  windowLog2  : Nat := 0x10
  migrations  : W32 := 0
  heldPeak    : Nat := 0
  mirrorsLost : Nat := 0
  acsCorrected : Nat := 0
  acsFaults   : Nat := 0
  acsLastTeam : Nat := 0x1F
  updRequests : W32 := 0
  updNonfinite : Nat := 0
  updMismatch : Nat := 0
  watchPeak   : Nat := 0
  ownerLost   : Nat := 0
  temps       : List Nat := List.replicate 12 0
  bar0Drops   : Nat := 0
  bar2Drops   : Nat := 0
  lastFn      : Nat := 0
  lastBar     : Bool := false
  lastPage    : Nat := 0
  i3cShadow   : Option (Nat × W32) := none
  i3cAddress  : Option (BitVec 7) := none
  numVFs      : Nat := 0
  deriving DecidableEq, Repr

/-- The answer to the last read or message: the requester, a completion status and the bytes. -/
structure Response where
  who    : Nat
  status : Nat
  data   : List Byte
  deriving DecidableEq, Repr

/-! ### Commands (spec/03) -/

/-- How far an accepted command has come (R93, R94): accepted, started, finished, or recorded in the
ledger with its reply held for SEQ order. -/
inductive CmdPhase where
  | accepted
  | started
  | finished (status : W16) (countA countB : W32)
  | recorded (status : W16) (countA countB : W32) (at_ : W64)
  deriving DecidableEq, Repr

/-- The journal record of an accepted command (R96): the packet with its opcode, the uid of its
target at acceptance (R89), the acceptance and start postmarks, the copied schedule (R61), and
the blocks it has written (R98). -/
structure Cmd where
  seq       : W64
  opcode    : W16
  pkt       : Packet
  target    : Option Nat
  acceptedAt : W64
  startedAt : W64
  phase     : CmdPhase
  schedule  : Option Schedule
  blocks    : Nat
  /-- A LAUNCH accepted while a bank it names was being loaded (R135). -/
  deferred  : Bool
  /-- Whether a replay put the record back (R100). -/
  replayed  : Bool
  /-- The blocks of an interrupted run that are DONE, or whose request's values are recorded (R98, R100, R347). -/
  skip      : List Block
  deriving DecidableEq, Repr

/-- The commands of a context, its control context included: H, the completion ledger in rising
SEQ order, and the records not yet reclaimed (R80, R81, R97). -/
structure CmdState where
  h      : W64 := 0
  ledger : List (W64 × W16) := []
  cmds   : List Cmd := []
  deriving DecidableEq, Repr

/-- The journal (R96, R97): the stacks that hold the copies in service, whether one is being rebuilt, the contexts whose
replay is under way, and those that the loss of a copy has touched until it is rebuilt (R101). Its records are the
contexts' `Cmd`s, its ledger theirs, its block marks and scratch copies the launches' `Block`s: both copies hold the same,
so the model holds it once (notes/assumptions/60.md). -/
structure Journal where
  copies     : List Nat := [1, 7]
  rebuilding : Bool := false
  replaying  : List Nat := []
  touched    : List Nat := []
  /-- The open recovery windows (R101): the contexts that a fault touched, and those of them that still replay. -/
  windows    : List (List Nat × List Nat) := []
  deriving DecidableEq, Repr

/-- An entry of the translation cache (R132): function, container and image before relocation,
most recently used first. -/
structure CacheEntry where
  fn        : Nat
  container : List Byte
  image     : Image
  deriving DecidableEq, Repr

/-! ### Contexts (spec/09, 10, 13, 16) -/

/-- A TABLE_REPLACE from its start until it completes (R306): once flipped, the pause in ns and the
requests that were queued. -/
structure Replacing where
  cmd       : CmdRef
  startedAt : W64
  version   : W32
  source    : Nat
  flipped   : Option (Nat × Nat)
  deriving DecidableEq, Repr

/-- A table of a context's registry (R281 to R287, R305). -/
structure Table where
  vtype      : Nat
  rule       : Nat
  cols       : Nat
  rows       : Nat
  group      : Nat
  buddy      : W16
  base       : Nat
  version    : W32
  stripes    : Nat
  pending    : Option (Nat × Nat)
  mirrorLost : Bool
  replacing  : Option Replacing
  /-- The join step of a new holder of the buddy role: with its release mirroring resumes (R427). -/
  resumeAt   : Option W64 := none
  deriving DecidableEq, Repr

end Sys2Proof.Machine
end

