-- ==== Sys2Proof/Machine/State.lean ====
section
/-! DEFINITION. The state of the module and its value at a power-on reset (spec/01 to spec/20;
INVENTORY.md lists each piece with the rule that names it). Reset values the spec does not give
are those of notes/assumptions/4.md and 5.md. -/

namespace Sys2Proof.Machine

open Sys2Proof

/-- Why a machine stops with a fault. No command of this block stops the module without a state:
the spec's faults (R122, R412) are next states. The type is empty, so no fault is raised. -/
inductive Fault where
  deriving DecidableEq, Repr

/-- Why a command has no meaning. -/
inductive Refusal where
  /-- Raised only by an arm of Dispatch whose command has no meaning yet; stopping is safe. -/
  | notModelled (mnemonic : String)
  deriving DecidableEq, Repr

/-- Where bytes lie: CORE memory of a core, CLUSTER memory of a team, STACK (R112). -/
inductive Place where
  | core (team core : Nat)
  | cluster (team : Nat)
  | stack
  deriving DecidableEq, Repr

/-- The bytes that one instruction wrote and no fence has yet ordered (R121, R364, R365), with
the old value of each. `core` is 16 for an engine of the cluster. -/
structure Unfenced where
  team : Nat
  core : Nat
  unit : EngineUnit
  reg : Option Nat
  place : Place
  cells : List (Nat × Byte)
  localDone : Bool
  moduleDone : Bool
  seenBy : List (Nat × Nat)
  deriving DecidableEq, Repr

/-- The faults of a launch (R148, R366). -/
inductive FaultKind where
  | stepMismatch | ownerLost | syncUnderflow | syncOverflow | badParam
  deriving DecidableEq, Repr

/-- A decided fault: its postmark, team, core (16 for a unit's signal, R538) and kind. -/
structure FaultRec where
  at_ : W64
  team : Nat
  core : Nat
  kind : FaultKind
  deriving DecidableEq, Repr

/-- A team: its banks, kernel, cores, cluster memory, accumulation store, sync unit, sampler, row
engine, update engine, mask slots, held faults and self-test hold. -/
structure Team where
  kernel : Option Kernel := none
  bank0 : Bank := .empty
  bank1 : Bank := .empty
  active : Nat := 0
  /-- Banks whose last load was refused (R135). -/
  refused : List Nat := []
  cores : SMap Core := []
  cluster : Memory := []
  acs : SMap (BitVec 40) := []
  /-- The copies of R322: the words of each row written in this launch as it began. -/
  acsRows : SMap (List (BitVec 40)) := []
  sync : SMap SyncObj := []
  watches : List Watch := []
  waiting : List Watch := []
  sampler : Sampler := { }
  rows : RowEngine := { }
  upd : UpdEngine := { }
  masks : SMap MaskSlot := []
  heldFaults : List FaultKind := []
  testing : Bool := false
  deriving DecidableEq, Repr

/-- A team after module reset. -/
def Team.reset : Team := { }

/-- A running LAUNCH: its teams, the events counted, its first fault, the time it stood
pre-empted, and what its launch record holds (R100, R199, R240, R276, R322, R400). -/
structure Launch where
  seq : W64
  startedAt : W64
  teams : Nat
  teamsLeft : List Nat
  events : Nat
  fault : Option FaultRec
  pausedNs : Nat
  external : Bool
  counters : List Nat
  startTeams : SMap Team
  issued : W32
  /-- The block marks of this run, and those of an interrupted run that it has not yet reached again (R98, R100,
  R199). -/
  wrote : List Block
  skip : List Block
  /-- Whether a fault or a reset has interrupted it: a replay runs it again (R100). -/
  interrupted : Bool
  /-- The store copies of its teams in which a later launch has begun since (R105, R322). -/
  acsRows : SMap (SMap (List (BitVec 40))) := []
  deriving DecidableEq, Repr

/-- A CONTEXT_PREEMPT under way (R307, R450): AT or none, TIMEOUT_US, and when issue stopped. -/
structure Preempting where
  cmd : CmdRef
  at_ : W64
  timeoutUs : Nat
  stoppedAt : Option W64
  /-- When the last TABLE_REPLACE of the context flipped that it waited for (R307). -/
  flippedAt : W64
  deriving DecidableEq, Repr

/-- A CONTEXT_RESUME that waits (R452). -/
structure Resuming where
  cmd : CmdRef
  at_ : W64
  deriving DecidableEq, Repr

/-- A SNAPSHOT under way (R418): AT, DEST, SNAP_ID, when it started, and the counters then (R199). -/
structure Snapping where
  cmd : CmdRef
  at_ : W64
  dest : Nat
  id : W32
  startedAt : Option W64
  counters : List Nat
  deriving DecidableEq, Repr

/-- What a snapshot image's on-chip part holds (R418, R449): the model's own form, since the
spec does not describe the part. -/
structure OnChip where
  teams : SMap Team
  hub : SMap HubObj
  counters : List Nat
  graphs : SMap Graph
  tables : SMap Table
  deriving DecidableEq, Repr

/-- A working context (R446, R447). `saved` holds the teams of a PREEMPTED context. -/
structure Ctx where
  uid : Nat
  partition : Nat
  span : Nat
  modules : Nat
  teamMask : Nat
  regionBase : W64
  regionSize : W64
  running : Bool
  faulted : Bool
  counters : List Nat
  launches : List Launch
  graphs : SMap Graph
  tables : SMap Table
  saved : SMap Team
  savedWatches : List Watch
  /-- The hub objects of a single-module context while a module reset is under way (R351, R367). -/
  savedHub : SMap HubObj
  issueHeld : Bool
  preempting : Option Preempting
  resuming : Option Resuming
  snapping : Option Snapping
  /-- When issue stopped for the pre-emption or snapshot that holds the context (R450, R451). -/
  pausedAt : W64
  /-- Whether a reset saved the context while it was RUNNING: the replay restores it (R494). -/
  restoreDue : Bool
  /-- The UPD.ROWS requests that have ended as skips while their sets are not complete, by team (R302, R342). -/
  skipped : List (Nat × UpdReq) := []
  deriving DecidableEq, Repr

/-- What the on-chip part of an image written at DEST stands for (R418): the number under which its
free bytes were written, and their count. -/
structure Snapped where
  ctx : W32
  id : W32
  dest : Nat
  chip : OnChip
  key : Nat
  size : Nat
  deriving DecidableEq, Repr

/-- The state of the module. -/
structure State where
  postmark : W64
  part9620 : Bool
  metal : Byte
  time : TimeUnit
  fns : SMap Fn
  cmds : SMap CmdState
  ctxs : SMap Ctx
  uid : Nat
  teams : SMap Team
  stack : Memory
  /-- The zero tags of the 32-byte sectors (R328). -/
  tags : SMap Bool
  /-- While parcels, update requests or norms are in progress: the number of each write of STACK since, with the bytes it
  wrote and their old values, the latest first (R254, R277, R348). -/
  stackLog : List (Nat × Nat × Byte)
  unfenced : List Unfenced
  pool : List Nat
  hub : SMap HubObj
  hubWatches : List Watch
  hubWaiting : List Watch
  fabric : Fabric
  faults : Faults
  irq : Irq
  pm : Postmaster
  power : Power
  meter : Meter
  regs : Regs
  journal : Journal
  cache : List CacheEntry
  snapped : List Snapped
  /-- The flash's record of retired units (R38). -/
  retired : List Retired
  hostMem : Memory
  resp : Option Response
  /-- The model's own counter of free values (notes/assumptions/7.md). -/
  free : Nat
  /-- The commands that wait, first in, first out. -/
  pending : List Instr
  deriving DecidableEq, Repr

/-- Function 0's fixed ISO_A and ISO_B (R443); the other functions read zero in both. -/
def isoA0 : W64 := 0x7FFF7
def isoB0 : W64 := 0x3C000000

/-- The module right after a power-on reset of a module fresh from the factory (R493 type 1):
24 V just applied, BOOT_STEP 0, nothing loaded. -/
def State.reset : State where
  postmark := 0
  part9620 := false
  metal := 0
  time := { }
  fns := [(0, { isoA := isoA0, isoB := isoB0 })]
  cmds := []
  ctxs := []
  uid := 0
  teams := []
  stack := []
  tags := []
  stackLog := []
  unfenced := []
  pool := [8, 8, 8, 8]
  hub := []
  hubWatches := []
  hubWaiting := []
  fabric := { }
  faults := { }
  irq := { }
  pm := { }
  power := { }
  meter := { }
  regs := { }
  journal := { }
  cache := []
  snapped := []
  retired := []
  hostMem := []
  resp := none
  free := 0
  pending := []

end Sys2Proof.Machine
end

