-- ==== Sys2Proof/Machine/Ops.lean ====
section
/-! DEFINITION. Shared operations of a Lumfy instruction: the state of teams and cores, masks,
memory as a unit sees it, status events, launch faults, and issue (spec/04 R104 to R122). -/

namespace Sys2Proof.Machine

open Sys2Proof

/-- The parameter bytes of a packet: the block where PARAM_LEN is 4 or more (R83). -/
def Packet.field (p : Packet) (off n : Nat) : Nat := fieldAt p.params off n

/-- A team's state. -/
def State.team (s : State) (t : Nat) : Team := mapGetD s.teams Team.reset t

/-- Changes a team's state. -/
def State.modTeam (s : State) (t : Nat) (f : Team → Team) : State :=
  { s with teams := mapPut s.teams t (f (s.team t)) }

/-- A core's state. -/
def Team.core (k : Team) (q : Nat) : Core := mapGetD k.cores Core.reset q

/-- Changes a core's state. -/
def Team.modCore (k : Team) (q : Nat) (f : Core → Core) : Team :=
  { k with cores := mapPut k.cores q (f (k.core q)) }

def State.core (s : State) (t q : Nat) : Core := (s.team t).core q

def State.modCore (s : State) (t q : Nat) (f : Core → Core) : State :=
  s.modTeam t fun k => k.modCore q f

/-- Changes the kernel of a team, if one runs. -/
def State.modKernel (s : State) (t : Nat) (f : Kernel → Kernel) : State :=
  s.modTeam t fun k => { k with kernel := k.kernel.map f }

/-- A context by its identifier. -/
def State.ctx (s : State) (c : W32) : Option Ctx := mapGet s.ctxs c.toNat

/-- Changes a context that exists. -/
def State.modCtx (s : State) (c : W32) (f : Ctx → Ctx) : State :=
  match s.ctx c with
  | some x => { s with ctxs := mapPut s.ctxs c.toNat (f x) }
  | none => s

/-- The commands of a context. -/
def State.cmdsOf (s : State) (c : W32) : CmdState := mapGetD s.cmds { } c.toNat

/-- An accepted command that has not been reclaimed. -/
def State.cmd (s : State) (c : W32) (seq : W64) : Option Cmd := (s.cmdsOf c).cmds.find? fun x => x.seq == seq

/-- The launch of a context with a SEQ. -/
def Ctx.launch (x : Ctx) (seq : W64) : Option Launch := x.launches.find? fun l => l.seq == seq

/-- The context of a team's kernel. -/
def State.kernelCtx (s : State) (t : Nat) : Option Ctx :=
  match (s.team t).kernel with
  | some k => s.ctx k.ctx
  | none => none

/-- The bank that a team fetches from (R133). -/
def Team.bank (k : Team) (b : Nat) : Bank := if b = 0 then k.bank0 else k.bank1

/-- The image of a team's active bank. -/
def Team.image (k : Team) : Option Image :=
  match k.bank k.active with
  | .full i => some i
  | _ => none

/-- The instruction at the pc of the active bank. -/
def Team.fetch (k : Team) : Option LumfyWord :=
  match k.kernel, k.image with
  | some r, some i => i.code[r.pc]?
  | _, _ => none

/-- Whether every loop mask of a core is true (R109). -/
def loopMask (loops : List LoopFrame) (q : Nat) : Bool :=
  loops.all fun f => decide (f.iter < f.counts.getD q 0)

/-- The cores whose loop masks are all true. -/
def Team.activeCores (k : Team) : List Nat :=
  match k.kernel with
  | some r => (List.range 16).filter (loopMask r.loops)
  | none => []

/-- The cores whose mask for an instruction is true (R107), in core index order. -/
def Team.masked (k : Team) (pred : Nat) : List Nat :=
  k.activeCores.filter fun q => (k.core q).getP pred

/-- Whether the context of a team's kernel may issue now: RUNNING, not stopped for a
pre-emption, a snapshot or a fault (R102, R122, R418, R447). -/
def State.teamRuns (s : State) (t : Nat) : Bool :=
  match (s.team t).kernel with
  | some k =>
    !k.stopped && !k.ended &&
    match s.ctx k.ctx with
    | some x => x.running && !x.faulted && !x.issueHeld
    | none => false
  | none => false

/-- The unit that executes an opcode (R149). -/
def unitOf (code : Nat) : EngineUnit :=
  match opRow code with
  | some r => r.unit
  | none => .sc

/-- Whether the sequencer of team `t` can issue the instruction `w` now (R104, R120): it stands at
the pc of the active bank, the scoreboard of every core that acts is clear, and its unit's queue has
room there (R119). -/
def State.canIssue (s : State) (t : Nat) (w : LumfyWord) : Bool :=
  s.teamRuns t && (s.team t).fetch == some w &&
  ((s.team t).masked w.args.pred).all fun q =>
    scoreboardClear (s.core t q) w &&
    decide (((s.core t q).awaited.filter fun a => a.unit == unitOf w.code).length < 16)

/-- Takes a fresh number for free values (notes/assumptions/7.md). -/
def State.bumpFree (s : State) : State := { s with free := s.free + 1 }

/-- The order of the kinds of launch fault (R366). -/
def FaultKind.rank : FaultKind → Nat
  | .stepMismatch => 0 | .ownerLost => 1 | .syncUnderflow => 2 | .syncOverflow => 3 | .badParam => 4

/-- Whether a fault comes before another in the order of R366. -/
def FaultRec.before (x y : FaultRec) : Bool :=
  if x.at_ != y.at_ then decide (x.at_.toNat < y.at_.toNat)
  else if x.team != y.team then decide (x.team < y.team)
  else if x.core != y.core then decide (x.core < y.core)
  else decide (x.kind.rank < y.kind.rank)

/-- Records a fault of the launch that runs on a team and stops issue in every team of that
launch (R122, R366). `core` is 16 for a fault raised by a unit's signal (R538). -/
def State.launchFault (s : State) (t q : Nat) (kind : FaultKind) : State :=
  match (s.team t).kernel with
  | none => s
  | some k =>
    let f : FaultRec := ⟨s.postmark, t, q, kind⟩
    let s1 := s.modCtx k.ctx fun x =>
      { x with launches := modWhere (fun l => l.seq == k.seq) (fun l =>
          { l with fault :=
              match l.fault with
              | none => some f
              | some g => if f.before g then some f else some g }) x.launches }
    { s1 with teams := s1.teams.map fun y =>
        (y.1, { y.2 with kernel := y.2.kernel.map fun r =>
          if r.ctx == k.ctx && r.seq == k.seq then { r with stopped := true } else r }) }

/-- Whether a watch replies to a core of a team among a list. -/
def Watch.repliesTo (w : Watch) (ts : List Nat) : Bool :=
  match w.whom with
  | .core t _ _ => ts.contains t
  | .remote _ _ _ => false

/-- The next instruction of a team. -/
def State.nextPc (s : State) (t : Nat) : State := s.modKernel t fun k => { k with pc := k.pc + 1 }

/-- The bytes that lie at a place. -/
def State.memAt (s : State) : Place → Memory
  | .core t q => (s.core t q).mem
  | .cluster t => (s.team t).cluster
  | .stack => s.stack

/-- Whether a write sets, keeps or clears the zero tag of one sector (R328). -/
def tagAfter (tagged : Bool) (bytes : List Byte) : Bool :=
  if bytes.length = 32 then bytes.all (· == 0) else tagged && bytes.all (· == 0)

/-- Splits the cells of a write by the 32-byte sector they lie in. -/
def sectorsOf (cells : List (Nat × Byte)) : SMap (List Byte) :=
  cells.foldl (fun m c => mapMod m [] (c.1 / 32) fun l => c.2 :: l) []

/-- The zero tags after a write of cells at distinct addresses (R328). -/
def tagsAfter (tags : SMap Bool) (cells : List (Nat × Byte)) : SMap Bool :=
  (sectorsOf cells).foldl (fun m x =>
    if tagAfter (mapGetD m false x.1) x.2 then mapPut m x.1 true else mapDrop m x.1) tags

/-- Whether a parcel, a begun update request or a norm of a cluster reads and writes STACK. -/
def Team.streams (k : Team) : Bool :=
  (k.sampler.slots.any fun x => !x.2.complete) || (k.upd.queue.any fun u => u.begun.isSome) || !k.upd.norms.isEmpty

/-- Whether anything reads and writes STACK over a time now, or will again once its context resumes. -/
def State.streaming (s : State) : Bool :=
  (s.teams.any fun t => t.2.streams) || s.ctxs.any fun x => x.2.saved.any fun t => t.2.streams

/-- A cluster whose parcels and requests go on over a STACK that was put back with them (R420): what was
written before `log` entries were kept concerns them no more. -/
def Team.streamsAfter (k : Team) (log : Nat) : Team :=
  { k with
    sampler := { k.sampler with slots := k.sampler.slots.map fun x => (x.1, { x.2 with since := log }) }
    upd := { k.upd with
      queue := k.upd.queue.map fun u => { u with since := log }
      norms := k.upd.norms.map fun u => { u with since := log } } }

/-- Writes bytes of STACK and maintains the zero tags (R328); what streams meanwhile may have read or written there
before (R254, R277, R348). -/
def State.writeStack (s : State) (cells : List (Nat × Byte)) : State :=
  { s with stack := cells.foldl (fun m c => memSet m c.1 c.2) s.stack
           tags := tagsAfter s.tags cells
           stackLog :=
             if s.streaming then
               (cells.map fun c => (s.stackLog.length, c.1, memGet s.stack c.1)).reverse ++ s.stackLog
             else [] }

/-- Writes a list of bytes at a STACK address. -/
def State.writeStackAt (s : State) (a : Nat) (bytes : List Byte) : State :=
  s.writeStack ((List.range bytes.length).map fun i => (a + i, bytes.getD i 0))

/-- Replaces the bytes at a place. -/
def State.setMemAt (s : State) (p : Place) (m : Memory) : State :=
  match p with
  | .core t q => s.modCore t q fun k => { k with mem := m }
  | .cluster t => s.modTeam t fun k => { k with cluster := m }
  | .stack => { s with stack := m }

/-- Who reads or writes: a unit of a core through a tile register, or an engine of a cluster. -/
structure Accessor where
  team : Nat
  core : Option Nat
  unit : EngineUnit
  reg : Option Nat
  deriving DecidableEq, Repr

/-- Whether an earlier write is not yet ordered before an access (R121, R364, R365). -/
def Unfenced.open_ (e : Unfenced) (a : Accessor) : Bool :=
  match a.core with
  | some q =>
    if e.team = a.team ∧ e.core = q then
      !e.localDone && !e.moduleDone && e.unit != a.unit && !(e.reg.isSome && e.reg == a.reg)
    else !(e.moduleDone && e.seenBy.contains (a.team, q))
  | none => !e.moduleDone

/-- The number under which an access chooses for a 64-byte unit. -/
def choiceKey (e addr : Nat) (a : Accessor) : Nat :=
  (e * 2 ^ 40 + addr / 64) * 1024 + a.team * 32 + a.core.getD 16

/-- Undoes, for an access, the writes of one entry in the 64-byte units for which the free
choice says "before". `done` lists the addresses already settled by a later write. -/
def undoEntry (free idx : Nat) (a : Accessor) (acc : Memory × List Nat) (cells : List (Nat × Byte)) :
    Memory × List Nat :=
  cells.foldl (fun acc c =>
    if acc.2.contains c.1 then acc
    else if Config.choice free (choiceKey idx c.1 a) then (acc.1, c.1 :: acc.2)
    else (memSet acc.1 c.1 c.2, acc.2)) acc

/-- The content of a place as an access sees it while some earlier writes are not ordered before it. -/
def State.viewOver (s : State) (a : Accessor) (p : Place) (open_ : List Unfenced) : Memory :=
  (open_.foldl (fun (acc : Nat × Memory × List Nat) e =>
    (acc.1 + 1, undoEntry s.free acc.1 a acc.2 e.cells)) (0, s.memAt p, [])).2.1

/-- The content of a place as an access sees it: with no open entry, the memory itself. -/
def State.view (s : State) (a : Accessor) (p : Place) : Memory :=
  s.viewOver a p (s.unfenced.filter fun e => e.place == p && e.open_ a)

/-- Writes bytes at a place: where an open entry of another unit or core holds the byte, which
of the two values stays is free for each 64-byte unit (R121); the old bytes are kept until a fence. -/
def State.store (s : State) (a : Accessor) (p : Place) (cells : List (Nat × Byte)) : State :=
  let open_ := s.unfenced.filter fun e => e.place == p && e.open_ a
  let kept := cells.filter fun c =>
    !(open_.any fun e => e.cells.any fun o => o.1 == c.1) ||
      Config.choice s.free (choiceKey 65536 c.1 a)
  let m := s.memAt p
  let old := kept.map fun c => (c.1, memGet m c.1)
  let s' :=
    match p with
    | .stack => s.writeStack kept
    | _ => s.setMemAt p (kept.foldl (fun m c => memSet m c.1 c.2) m)
  if kept.isEmpty then s'
  else
    { s' with unfenced :=
        ⟨a.team, a.core.getD 16, a.unit, a.reg, p, old, false, a.core.isNone, []⟩ :: s'.unfenced }

/-- The bytes of STACK written since something that streams began, with their value before each write. -/
def State.logSince (s : State) (since : Nat) : List (Nat × Nat × Byte) :=
  s.stackLog.take (s.stackLog.length - since)

/-- Takes back a byte of a write, the writes being looked at from the latest on: of each 64-byte unit the last writes, a
free number of them, are taken back. `acc.2` holds the units of which no more is. -/
def unwrite (free : Nat) (a : Accessor) (acc : Memory × List Nat) (c : Nat × Nat × Byte) : Memory × List Nat :=
  let unit := c.2.1 / 64
  if acc.2.contains unit then acc
  else if Config.choice free (choiceKey (65539 + c.1) c.2.1 a) then (memSet acc.1 c.2.1 c.2.2, acc.2)
  else (acc.1, unit :: acc.2)

/-- STACK as an engine's work in progress has read it: each 64-byte unit written meanwhile holds, freely, its content
before or after each of those writes (R254, R348). -/
def State.streamView (s : State) (a : Accessor) (since : Nat) : Memory :=
  ((s.logSince since).foldl (unwrite s.free a) (s.view a .stack, [])).1

/-- The cells of an engine's write that stay: in a 64-byte unit written meanwhile by another, either value may (R277,
R348). -/
def State.streamCells (s : State) (a : Accessor) (since : Nat) (cells : List (Nat × Byte)) : List (Nat × Byte) :=
  let log := s.logSince since
  cells.filter fun c => !(log.any fun o => o.2.1 / 64 == c.1 / 64) || Config.choice s.free (choiceKey 65538 c.1 a)

/-- Counts an instruction's events in the context's counters and in the launch (R199, R200). -/
def State.addEvents (s : State) (t : Nat) (e : Events) : State :=
  match (s.team t).kernel with
  | none => s
  | some k =>
    s.modCtx k.ctx fun x =>
      { x with
        counters := addCounters x.counters e
        launches := modWhere (fun l => l.seq == k.seq)
          (fun l => { l with events := l.events + e.total }) x.launches }

/-- Writes the status record of an instruction with STATUS set at the core's pointer (R144, R198). -/
def State.writeStatus (s : State) (t q : Nat) (w : LumfyWord) (e : Events) (team : Bool) : State :=
  match (s.core t q).statusPtr with
  | none => s
  | some p =>
    if w.args.mod.getLsbD 0 then
      let n := (s.core t q).number + 1
      let bytes := statusRecord e w.code w.args.ty team n
      let s1 := s.modCore t q fun k => { k with number := n }
      s1.store ⟨t, some q, unitOf w.code, none⟩ (.core t q)
        ((List.range 32).map fun i => (p + i, bytes.getD i 0))
    else s

/-- Completes an instruction in a core: its events counted all together, and its record (R197). -/
def State.finish (s : State) (t q : Nat) (w : LumfyWord) (e : Events) (team : Bool := false) : State :=
  (s.addEvents t e).writeStatus t q w e team

/-- CORE_BYTES and CLUSTER_BYTES of the kernel that runs on a team (R112, R128). -/
def State.coreBytes (s : State) (t : Nat) : Nat :=
  match (s.team t).kernel with
  | some k => k.stream.coreBytes
  | none => 0

def State.clusterBytes (s : State) (t : Nat) : Nat :=
  match (s.team t).kernel with
  | some k => k.stream.clusterBytes
  | none => 0

/-- The reserved areas of the stacks (R113, R96, R448): a journal region at the top of stacks 1,
4, 7 and 10, and below it the save pool of the die. -/
def reservedRange (pool : List Nat) (die : Nat) : Nat × Nat :=
  let base := (3 * die + 1) * 0x1400000000
  let size := pool.getD die 8 * 0x10000000
  (base + 0x13F0000000 - size, size + 0x10000000)

/-- Whether a byte of STACK lies in a reserved area (R113). -/
def State.reserved (s : State) (addr : Nat) : Bool :=
  (List.range 4).any fun d =>
    let r := reservedRange s.pool d
    decide (r.1 ≤ addr) && decide (addr < r.1 + r.2)

/-- Whether a range of STACK holds a reserved byte. -/
def State.meetsReserved (s : State) (addr len : Nat) : Bool :=
  (List.range 4).any fun d => rangesMeet (addr, len) (reservedRange s.pool d) && decide (0 < len)

/-- Whether a byte of STACK is usable by a context (R112, R113). -/
def State.stackUsable (s : State) (x : Ctx) (addr : Nat) : Bool :=
  decide (x.regionBase.toNat ≤ addr) && decide (addr < x.regionBase.toNat + x.regionSize.toNat) &&
  !s.reserved addr

/-- Whether a range lies in a context's region and holds no reserved byte (R113). -/
def State.rangeInRegion (s : State) (x : Ctx) (addr len : Nat) : Bool :=
  decide (x.regionBase.toNat ≤ addr) &&
  decide (addr + len ≤ x.regionBase.toNat + x.regionSize.toNat) && !s.meetsReserved addr len

/-- The address of a byte that a kernel of team `t` may touch in a space (R112, R116): SPACE 0
CORE, 1 CLUSTER, 2 STACK. -/
def State.usable (s : State) (t space addr : Nat) : Bool :=
  if space = 0 then decide (addr < s.coreBytes t)
  else if space = 1 then decide (addr < s.clusterBytes t)
  else if space = 2 then
    match s.kernelCtx t with
    | some x => s.stackUsable x addr
    | none => false
  else false

/-- The place that a space names for a core. -/
def placeOf (t q space : Nat) : Place :=
  if space = 0 then .core t q else if space = 1 then .cluster t else .stack

/-- The effects of an instruction in one core beyond its registers. -/
structure Fx where
  core : Core
  cells : List (Nat × Byte) := []
  ev : Events := { }
  fault : Bool := false
  deriving DecidableEq, Repr

/-- Applies the effects of an engine instruction in one core: registers, CORE bytes, events,
and the BAD_PARAM fault of STRICT (R147). -/
def State.apply (s : State) (t q : Nat) (w : LumfyWord) (reg : Option Nat) (fx : Fx) : State :=
  let s1 := s.modCore t q fun _ => { fx.core with mem := (s.core t q).mem }
  let s2 := s1.store ⟨t, some q, unitOf w.code, reg⟩ (.core t q) fx.cells
  let s3 := s2.finish t q w fx.ev
  if fx.fault then s3.launchFault t q .badParam else s3

end Sys2Proof.Machine
end

