-- ==== Sys2Proof/Machine/Events.lean ====
section
/-! DEFINITION. Functions, replies and interrupts: shared operations (spec/03 R75 to R78, R84, R94;
spec/17 R462 to R478). -/

namespace Sys2Proof.Machine

open Sys2Proof

/-- A function's state. -/
def State.fn (s : State) (f : Nat) : Fn := mapGetD s.fns { } f

/-- Changes a function's state. -/
def State.modFn (s : State) (f : Nat) (g : Fn → Fn) : State :=
  { s with fns := mapPut s.fns f (g (s.fn f)) }

/-- The function that owns a context identifier (R79). -/
def fnOf (c : W32) : Nat := c.toNat / 2 ^ 26

/-- Whether a context identifier names a control context (R79). -/
def isControl (c : W32) : Bool := c.toNat % 2 ^ 26 == 0

/-- Whether a virtual function exists (R510). -/
def State.fnExists (s : State) (f : Nat) : Bool := f == 0 || (decide (f ≤ s.regs.numVFs) && decide (f < 64))

/-- Changes every function. -/
def State.everyFn (s : State) (g : Fn → Fn) : State := (List.range 64).foldl (fun s f => s.modFn f g) s


/-! ### Sources -/

/-- Asserts a pulse source until the next tick (R464); two pulses before a tick merge. -/
def State.pulse (s : State) (src : Nat) : State :=
  if s.irq.pulses.contains src then s
  else { s with irq := { s.irq with pulses := src :: s.irq.pulses } }

/-- SRC_CFG after reset (R463, R475). -/
def srcDefault (src : Nat) : SrcCfg :=
  ⟨!(src == 195 || src == 196 || (205 ≤ src && src ≤ 208)), decide (192 ≤ src) && decide (src ≤ 209), 0x64, 0⟩

/-- A source's configuration. -/
def State.srcCfg (s : State) (src : Nat) : SrcCfg := mapGetD s.irq.cfg (srcDefault src) src

/-- The management cores a source is routed to (R463). -/
def mcRoutes (src : Nat) : List Nat :=
  if src < 64 then []
  else if src < 128 then [0, 1, 2, 3, 4, 5]
  else if src < 192 then [6]
  else if [193, 194, 195, 196, 209].contains src then [6]
  else if [198, 205, 206, 208].contains src then [6, 7]
  else if src = 203 then [0, 1, 2, 3, 4, 5, 6, 7]
  else if [192, 197, 199, 200, 202, 204].contains src then [0, 1, 2, 3, 4, 5]
  else []

/-- The sources that assert now: pulses held for this tick, and conditions (R463). -/
def State.asserted (s : State) : List Nat :=
  let cond (b : Bool) (n : Nat) : List Nat := if b then [n] else []
  s.irq.pulses ++
  cond (s.time.role == 1 && s.time.source == 1 && !s.time.refPresent) 195 ++
  cond (s.time.role == 3) 196 ++
  cond (!s.power.hot.isEmpty) 205 ++
  cond s.power.supplyBad 206 ++
  cond (!s.irq.storm.isEmpty || !s.irq.stuck.isEmpty) 207 ++
  cond s.faults.faultIn 208

/-! ### Banks -/

def IrqBank.pendOf (b : IrqBank) (g : Nat) : W32 := mapGetD b.pend 0 g
def IrqBank.maskOf (b : IrqBank) (g : Nat) : W32 := mapGetD b.mask 0xFFFFFFFF g
def IrqBank.latchedOf (b : IrqBank) (g : Nat) : W32 := mapGetD b.latched 0 g

/-- GROUPS and S (R469, R470). -/
def IrqBank.groups (b : IrqBank) : List Nat :=
  (List.range 32).filter fun g => (b.pendOf g &&& ~~~(b.maskOf g)) != 0
def IrqBank.summary (b : IrqBank) : Bool := !b.groups.isEmpty

/-- The bit of a source in its group. -/
def srcBit (src : Nat) : W32 := BitVec.ofNat 32 (2 ^ (src % 32))

/-- Latches sources into a bank: PEND and L (R464, R471). -/
def IrqBank.latch (b : IrqBank) (srcs : List Nat) : IrqBank :=
  srcs.foldl (fun b src =>
    let g := src / 32
    { b with pend := mapPut b.pend g (b.pendOf g ||| srcBit src)
             latched := mapPut b.latched g (b.latchedOf g ||| srcBit src) }) b

/-- Whether a source can be routed to a function (R467). -/
def routable (f src : Nat) : Bool :=
  decide (src < 210) && (f == 0 || (decide (src < 192) && src % 64 == f))

/-- The bits of a group whose sources can be routed to a function (R468). -/
def routeMask (f g : Nat) : W32 :=
  (List.range 32).foldl (fun m b =>
    if routable f (32 * g + b) then m ||| BitVec.ofNat 32 (2 ^ b) else m) 0

/-- The sources routed to a function among a list (R467). -/
def State.routedTo (s : State) (f : Nat) (srcs : List Nat) : List Nat :=
  srcs.filter fun src =>
    (decide (src < 192) && src % 64 == f) || (f == 0 && decide (src < 210) && (s.srcCfg src).routePf)

/-- Sends one message to a function: MSI-X entry 0, or its pending bit where masked; nothing
while MSI-X is disabled, and no second one within a tick (R469). -/
def State.sendMessage (s : State) (f : Nat) : State :=
  let k := s.fn f
  if !k.msixOn || k.messaged then s
  else if k.msixMask || k.msixFnMask then s.modFn f fun k => { k with msixPending := true }
  else
    let s1 := s.modFn f fun k => { k with messaged := true, bank := { k.bank with msgs := k.bank.msgs + 1 } }
    { s1 with fabric := { s1.fabric with out := s1.fabric.out ++ [.msix f k.msixAddr k.msixData] } }

/-- Sends a message that waited on a pending bit once nothing masks it (R469, PCIe 6.0). -/
def State.sendPending (s : State) (f : Nat) : State :=
  let k := s.fn f
  if k.msixPending && k.msixOn && !k.msixMask && !k.msixFnMask && !k.messaged then
    (s.modFn f fun k => { k with msixPending := false }).sendMessage f
  else s

/-- Takes a function's new summary and sends a message where S changed from 0 to 1 (R469); with S at 0 no message is owed,
so the pending bit of a masked vector clears (PCIe 6.0). -/
def State.refresh (s : State) (f : Nat) : State :=
  let k := s.fn f
  let now := k.bank.summary
  let s1 := s.modFn f fun k => { k with bank := { k.bank with s := now }, msixPending := k.msixPending && now }
  if now && !k.bank.s then s1.sendMessage f else s1

/-- Evaluates the bank of one function against the latched sources. -/
def State.evalFn (s : State) (hits : List Nat) (f : Nat) : State :=
  let mine := s.routedTo f hits
  if mine.isEmpty || !s.fnExists f then s
  else (s.modFn f fun k => { k with bank := k.bank.latch mine }).refresh f

/-- Evaluates the bank of one management core. -/
def State.evalMc (s : State) (hits : List Nat) (i : Nat) : State :=
  let mine := hits.filter fun src => (mcRoutes src).contains i
  if mine.isEmpty then s
  else
    let b0 := mapGetD s.irq.mc { } i
    let b := b0.latch mine
    let now := b.summary
    let b1 := { b with s := now, msgs := if now && !b0.s then b.msgs + 1 else b.msgs }
    let s1 := { s with irq := { s.irq with mc := mapPut s.irq.mc i b1 } }
    if now && !b0.s then { s1 with fabric := { s1.fabric with out := s1.fabric.out ++ [.notify i] } } else s1

/-- The sources that raise a caught bit during SLEEP (R476). -/
def caughtInSleep (src : Nat) : Bool :=
  (decide (128 ≤ src) && decide (src ≤ 201)) || [203, 205, 206, 208, 209].contains src

/-- The tick ends: each function may be sent a message again, and one that waits on its pending bit goes
out (R469). -/
def State.endTick (s : State) : State :=
  let s1 : State := { s with fns := s.fns.map fun x => (x.1, { x.2 with messaged := false }) }
  (s1.fns.filter fun x => x.2.msixPending).foldl (fun s x => s.sendPending x.1) s1

/-- At a whole millisecond the counts of the window that ends are set aside, and a new window begins (R474). -/
def Irq.newWindow (q : Irq) (p : W64) : Irq :=
  if p.toNat % 1000000 = 0 then
    { q with edges := [], ended := q.edges.filter fun x => !q.stormed.contains x.1, stormed := [] }
  else q

/-- Whether a count of rising edges exceeds the STORM_LIMIT of its source (R474). -/
def State.stormy (s : State) (x : Nat × Nat) : Bool :=
  let n := (s.srcCfg x.1).storm.toNat
  decide (0 < n) && decide (n < x.2)

/-- Counts a rising edge of each of some sources; a count that exceeds STORM_LIMIT sets STORM (R474). -/
def State.countEdges (s : State) (rising : List Nat) : State :=
  let q := s.irq.newWindow s.postmark
  let edges := rising.foldl (fun m src => mapMod m 0 src (· + 1)) q.edges
  let stormed := (edges.filter fun x => rising.contains x.1 && s.stormy x).map Prod.fst
  { s with irq := { q with edges := edges, storm := (q.storm ++ stormed).eraseDups
                           stormed := (q.stormed ++ stormed).eraseDups } }

/-- One evaluation tick of the interrupt controller (R464, R474, R476). In SLEEP nothing is counted or timed. -/
def State.evalIrq (s : State) : State :=
  let now := (s.asserted.filter fun x => decide (x < 210)).eraseDups
  let rising := now.filter fun src => !s.irq.live.contains src
  let since := (now.map fun src => (src, mapGetD s.irq.since s.postmark src)).foldl
    (fun m x => mapPut m x.1 x.2) []
  if s.power.state = .sleep then
    State.endTick { s with irq := { s.irq with
        pulses := [], live := now, since := []
        caught := (s.irq.caught ++ rising.filter caughtInSleep).eraseDups } }
  else
    let hits := now.filter fun src => !(s.srcCfg src).edge || rising.contains src
    let s1 := s.countEdges rising
    let s2 := (List.range 64).foldl (fun s f => s.evalFn hits f)
      { s1 with irq := { s1.irq with pulses := [], live := now, since := since } }
    ((List.range 8).foldl (fun s i => s.evalMc hits i) s2).endTick

/-! ### Replies -/

/-- The 32 bytes of a reply (R84). -/
def Reply.bytes (r : Reply) (phase : Bool) : List Byte :=
  leBytes 8 r.seq.toNat ++ leBytes 2 r.status.toNat ++ leBytes 1 r.kind ++
  leBytes 1 (natOf phase + 2 * natOf r.repost) ++ leBytes 4 r.ctx.toNat ++
  leBytes 8 r.postmark.toNat ++ leBytes 4 r.countA.toNat ++ leBytes 4 r.countB.toNat

/-- Entries of the reply ring that are free (R76, R78). -/
def Fn.replyFree (k : Fn) : Nat :=
  if k.rqOn then 2 ^ k.rqLog - 1 - (k.rqTail + 2 ^ k.rqLog - k.rqConsumed) % 2 ^ k.rqLog else 0

/-- Packets pending in the submission ring (R78). -/
def Fn.sqPending (k : Fn) : Nat := (k.sqTail + 2 ^ k.sqLog - k.sqHead) % 2 ^ k.sqLog

/-- Writes one held reply where an entry is free (R75, R76), and the reply interrupt (R82). -/
def State.writeReply (s : State) (f : Nat) : State :=
  let k := s.fn f
  match k.held with
  | [] => s
  | r :: rest =>
    if k.replyFree = 0 then s
    else
      let at_ := k.rqBase * 4096 + 32 * k.rqTail
      let tail := (k.rqTail + 1) % 2 ^ k.rqLog
      let s1 := { s with hostMem := memWrite s.hostMem at_ (r.bytes k.phase) }
      let s2 := s1.modFn f fun k =>
        { k with held := rest, written := k.written ++ [r], rqTail := tail
                 phase := if tail = 0 then !k.phase else k.phase
                 rejected := if r.kind = 3 then k.rejected + 1 else k.rejected }
      if r.kind = 2 && r.irq then s2.pulse f else s2

/-- Writes every held reply for which an entry is free, in order. -/
def State.flushReplies (s : State) (f : Nat) : State :=
  (List.range (s.fn f).held.length).foldl (fun s _ => s.writeReply f) s

/-- Hands a reply to the reply ring of a function; it waits where no entry is free (R76). -/
def State.pushReply (s : State) (f : Nat) (r : Reply) : State :=
  (s.modFn f fun k => { k with held := k.held ++ [r] }).flushReplies f

/-! ### Access to the module from outside -/

/-- Whether power and start-up let the hub die act: not without supply and not OFF. -/
def State.powered (s : State) : Bool :=
  match s.power.boot with
  | .running | .starting | .resetHeld => true
  | .off | .noSupply => false

/-- Whether the ports have power and may train: from step 6 of start-up on (R488, R492, R496). -/
def State.portsRun (s : State) : Bool :=
  s.power.boot == .running || (s.power.boot == .starting && decide (5 ≤ s.power.bootStep))

/-- Whether link training, step 6 of start-up, has ended (R496). -/
def State.linksTrained (s : State) : Bool :=
  s.power.boot == .running || (s.power.boot == .starting && decide (6 ≤ s.power.bootStep))

/-- Packs fields (lowest bit, width, value) into a register. -/
def packFields (l : List (Nat × Nat × Nat)) : W64 :=
  BitVec.ofNat 64 (l.foldl (fun acc x => acc + x.2.2 % 2 ^ x.2.1 * 2 ^ x.1) 0)

/-- A set of small numbers as a bit mask. -/
def maskOf (l : List Nat) : Nat := l.eraseDups.foldl (fun acc x => acc + 2 ^ x) 0

/-- The members of a bit mask below `n`. -/
def bitsSet (n m : Nat) : List Nat := (List.range n).filter fun i => bitOf m i

/-- Answers a requester. -/
def State.answer (s : State) (who status : Nat) (data : List Byte) : State :=
  { s with resp := some ⟨who, status, data⟩ }

end Sys2Proof.Machine
end

