-- ==== Sys2Proof/Machine/Registers.lean ====
section
/-! DEFINITION. The registers of BAR0: reading one as a requester sees it, and the read-to-clear
fields (spec/00 R9 to R14, spec/19 R511 to R523, and the chapters that own each register).
Requesters are the functions 0 to 63 and the I3C port, 64. -/

namespace Sys2Proof.Machine

open Sys2Proof

/-- The requester number of the I3C port. -/
def i3c : Nat := 64

/-- IDREV (R502). -/
def State.idrev (s : State) : W64 :=
  packFields [(48, 16, 0xF1A5), (32, 16, if s.part9620 then 0x9620 else 0x9640), (24, 8, 0xA1),
    (16, 8, s.metal.toNat)]

/-- Bytes of the record of a packet (R96). -/
def Packet.recordBytes (p : Packet) : Nat := 128 + ceilDiv p.block.length 64 * 64

/-- Bytes of the journal ring that the records not yet reclaimed take: a record is reclaimed once its completion is in
the ledger (R96, R97). -/
def State.journalUsed (s : State) : Nat :=
  (mapVals s.cmds).foldl (fun n c =>
    c.cmds.foldl (fun n r =>
      match r.phase with
      | .recorded _ _ _ _ => n
      | _ => n + Packet.recordBytes r.pkt) n) 0

/-- Whether the record ring has room for a packet (R97). -/
def State.ringTakes (s : State) (p : Packet) : Bool := decide (s.journalUsed + Packet.recordBytes p ≤ 0x4000000)

/-- INTAKE_PAUSED (R77, R97): the journal is full or is being re-mirrored. A packet that waits for the room of its extended
block alone does not set it: the model's choice (notes/assumptions/64.md). -/
def State.intakePaused (s : State) : Bool :=
  s.journal.rebuilding || decide (0x4000000 < s.journalUsed + 128)

/-- Whether fewer than two entries of the reply ring are free (R76); with RQ_CFG.ENABLE 0 none is. -/
def Fn.stalled (k : Fn) : Bool := decide (k.replyFree < 2)

/-- A register of a letterbox page (R77). REPLY_STALL holds its reset value until READY, when intake begins, and is that
of R76 from then on (notes/assumptions/57.md). -/
def State.letterboxReg (s : State) (f off : Nat) : Option W64 :=
  let k := s.fn f
  if off = 0x000 then some (BitVec.ofNat 64 (k.sqBase * 4096))
  else if off = 0x008 then some (packFields [(0, 5, k.sqLog), (8, 1, natOf k.sqOn)])
  else if off = 0x010 then some 0
  else if off = 0x018 then some (BitVec.ofNat 64 k.sqHead)
  else if off = 0x020 then some (BitVec.ofNat 64 (k.rqBase * 4096))
  else if off = 0x028 then some (packFields [(0, 5, k.rqLog), (8, 1, natOf k.rqOn)])
  else if off = 0x030 then some (BitVec.ofNat 64 k.rqConsumed)
  else if off = 0x038 then some (packFields [(0, 16, k.rqTail), (16, 1, natOf k.phase)])
  else if off = 0x040 then
    some (packFields [(0, 1, natOf k.sqError), (1, 1, natOf k.rqError), (2, 1, natOf (k.stalled && s.power.ready)),
      (3, 1, natOf s.intakePaused), (4, 1, natOf k.journalLost)])
  else if off = 0x048 then some (packFields [(0, 32, k.accepted.toNat), (32, 32, k.rejected.toNat)])
  else none

/-- A register of the interrupt bank of a function (R470). -/
def State.bankReg (s : State) (f off : Nat) : Option W64 :=
  let b := (s.fn f).bank
  if off < 0x200 then
    if off % 16 = 0 then some (BitVec.ofNat 64 (b.pendOf (off / 16)).toNat)
    else if off % 16 = 8 then some (BitVec.ofNat 64 (b.maskOf (off / 16)).toNat)
    else none
  else if off = 0x200 then some (packFields [(0, 32, maskOf b.groups), (32, 1, natOf b.summary)])
  else if off = 0x208 then some 0
  else if off = 0x210 then some (packFields [(0, 32, b.msgs.toNat), (32, 32, b.rearms.toNat)])
  else none

/-- SRC_CFG, SRC_STATE and SRC_LIVE (R475). -/
def State.sourceReg (s : State) (off : Nat) : Option W64 :=
  if off < 0x2000 then
    if off % 8 = 0 then
      let src := off / 8
      if src < 210 then
        let c := s.srcCfg src
        some (packFields [(0, 1, natOf c.edge), (1, 1, natOf c.routePf), (2, 1, natOf (decide (src < 192))),
          (3, 8, maskOf (mcRoutes src)), (16, 8, c.storm.toNat), (24, 16, c.stuckUs.toNat)])
      else some 0
    else none
  else if off < 0x2200 then
    let g := (off - 0x2000) / 16
    let sel (l : List Nat) : Nat := maskOf ((l.filter fun src => src / 32 == g).map (· % 32))
    if off % 16 = 0 then some (packFields [(0, 32, sel s.irq.storm), (32, 32, sel s.irq.stuck)])
    else if off % 16 = 8 then some (BitVec.ofNat 64 (sel s.irq.live))
    else none
  else none

/-- STATE of PM_STATUS (R67). -/
def TimeState.code : TimeState → Nat
  | .unposted => 0 | .locked => 1 | .holdover => 2 | .slewing => 3

/-- Round length in ns (R60). -/
def Schedule.roundNs (c : Schedule) : Nat := c.slots * 64

/-- The round index of the active schedule at a postmark (R68). -/
def Schedule.roundAt (c : Schedule) (p : W64) : Nat :=
  if c.roundNs = 0 then 0 else (p.toNat - c.start.toNat) / c.roundNs

/-- A role of this module that frames of the module itself come from: its lowest postcode; 0xFFFF
where it holds none (notes/assumptions/20.md). -/
def State.ownPostcode (s : State) : W16 :=
  match s.fabric.roles with
  | x :: _ => BitVec.ofNat 16 x.1
  | [] => 0xFFFF

/-- Whether the module uses the external reference: a primary master whose SOURCE is EXTERNAL (R49, R528). -/
def State.external (s : State) : Bool := s.time.role == 1 && s.time.source == 1

/-- Whether the module is a master now: the primary, or a backup that has taken over (R50). -/
def State.isMaster (s : State) : Bool := s.time.role == 1 || (s.time.role != 0 && s.time.acting)

/-- The postmark unit's registers (R66 to R70). What MASTER_POSTCODE reads on a primary master, which follows no other,
is the model's choice: 0, or the master it last followed (notes/assumptions/30.md). -/
def State.timeReg (s : State) (off : Nat) : Option W64 :=
  let u := s.time
  if off = 0x00 then some s.postmark
  else if off = 0x08 then
    some (packFields [(0, 3, u.state.code), (3, 2, u.role), (5, 1, natOf (u.refPresent && s.external)),
      (8, 5, if s.isMaster then 0 else u.upstream), (13, 3, if s.isMaster then 0 else satTo 7 u.hops),
      (16, 16, u.master.toNat),
      (32, 32, unsignedOf 32 (max (-2147483648) (min 2147483647 u.offset)))])
  else if off = 0x10 then
    match u.active with
    | some c => some (packFields [(0, 16, c.version.toNat), (16, 10, c.slots), (32, 32, c.roundAt s.postmark)])
    | none => some 0
  else if off = 0x18 then some (match u.active with | some c => c.start | none => 0)
  else if off = 0x20 then some (match u.pending with | some c => c.1.start | none => 0)
  else if off = 0x28 then
    some (packFields [(0, 16, satTo 0xFFFF u.losses), (16, 16, satTo 0xFFFF u.late),
      (32, 16, satTo 0xFFFF u.mismatch), (48, 16, satTo 0xFFFF u.masterChanges)])
  else if off = 0x30 then some u.lockAt
  else if off = 0x38 then some u.lossAt
  else none

/-- STATE of PWR_STATUS (R488). -/
def PowerState.code : PowerState → Nat
  | .active => 0 | .doze => 1 | .sleep => 2

/-- BOOT_STEP (R496, R506): the last step that this start-up has completed. One of a reset of type 2, 3 or 4 begins at
step 3, so the field reads 0, its Reset value, until that step has ended (notes/assumptions/57.md). -/
def Power.lastStep (p : Power) : Nat := if p.lastType != 1 && decide (p.bootStep ≤ 2) then 0 else p.bootStep

/-- The PCIe Device ID of a function (R31, R510). -/
def State.deviceId (s : State) (f : Nat) : W16 :=
  if f = 0 then (if s.part9620 then 0x9620 else 0x9640) else if s.part9620 then 0x9621 else 0x9641

/-- The working contexts of a function (R519). -/
def State.contextsOf (s : State) (f : Nat) : Nat :=
  (s.ctxs.filter fun x => x.1 / 2 ^ 26 == f).length

/-- The fields of ISO_A and ISO_B (R443). -/
def Fn.partMask (k : Fn) : Nat := bits k.isoA.toNat 0 8
def Fn.maxContexts (k : Fn) : Nat := bits k.isoA.toNat 8 10
def Fn.mayFabric (k : Fn) : Bool := bitOf k.isoA.toNat 18
def Fn.winBase (k : Fn) : Nat := bits k.isoB.toNat 0 16
def Fn.winSize (k : Fn) : Nat := bits k.isoB.toNat 16 16

/-- MOD_STATUS as function `f` reads it (R519). CONTEXTS holds its reset value until READY, when the contexts that the
journal and the save areas keep are there again (notes/assumptions/57.md). -/
def State.modStatus (s : State) (f : Nat) : W64 :=
  packFields [(0, 1, natOf s.power.ready), (1, 2, s.power.state.code), (3, 1, natOf s.faults.selfFenced),
    (8, 10, if s.power.ready then s.contextsOf f else 0), (18, 10, (s.fn f).maxContexts),
    (28, 16, (s.fn f).winSize)]

/-- STATE of PORT_STATUS (R374). -/
def PortState.code : PortState → Nat
  | .dark => 0 | .down => 1 | .training => 2 | .up => 3 | .swapping => 4 | .out => 5

/-- A port's record; ports 16 to 31 of an FJM-9620 are DARK (R374). -/
def State.port (s : State) (p : Nat) : Port :=
  mapGetD s.fabric.ports { state := if s.part9620 && decide (16 ≤ p) then .dark else .down } p

/-- PORT_STATUS (R408). -/
def Port.reg (x : Port) : W64 :=
  packFields [(0, 3, x.state.code), (3, 9, x.laneMap.toNat), (16, 16, x.delay.toNat),
    (32, 16, x.peerPostcode.toNat), (48, 8, x.peerPort.toNat), (56, 8, satTo 0xFF x.retrains)]

/-- The 64 bytes of a franking record (R456). -/
def Frank.bytes (k : Frank) (f : Nat) : List Byte :=
  leBytes 4 k.index ++ leBytes 2 k.flags ++ leBytes 2 f ++ leBytes 8 k.energy ++
  leBytes 8 (k.coreNs / 1000) ++ leBytes 8 (k.stackNs / 1000000000) ++ leBytes 8 k.link ++
  leBytes 4 (satTo 0xFFFFFFFF k.commands) ++ leBytes 4 0 ++ leBytes 8 k.start ++ leBytes 8 k.asOf

/-- The 64 bytes of a dead-letter queue entry (R411). -/
def DeadLetter.bytes (d : DeadLetter) : List Byte :=
  bytesAt d.header 0 32 ++ leBytes 8 d.parkedAt.toNat ++ leBytes 2 d.reason ++ leBytes 2 d.port.toNat ++
  leBytes 4 0 ++ bytesAt d.payload 0 16

/-- STATE of TAKEOVER_STATUS (R439). -/
def TakeState.code : TakeState → Nat
  | .none => 0 | .armed => 1 | .holding => 2 | .copying => 3 | .joined => 4 | .failed => 5

/-- The state of a die (R508). -/
def State.die (s : State) (d : Nat) : Die := mapGetD s.power.dies { } d

/-- A junction (R487): of the Skomi dies 0 to 3, and 4 of the hub die. -/
def State.junction (s : State) (d : Nat) : Nat := if d = 4 then s.power.hubTj else (s.die d).tj

/-- The dies whose junctions lie above TJ_LIMIT (R463). -/
def State.hotDies (s : State) : List Nat := (List.range 5).filter fun d => decide (s.pm.tjLimit < s.junction d)

/-- The hottest Skomi die (R506). -/
def State.hottest (s : State) : Nat := (List.range 4).foldl (fun m d => max m (s.die d).tj) 0

/-- What follows from the junctions at once: THERMAL (R463), and TJ_MAX (R506). -/
def State.noteTemps (s : State) : State := { s with power := { s.power with hot := s.hotDies, tjMax := s.hottest } }

/-- The sc copy of a requester (R201). -/
def State.sc (s : State) (who : Nat) : ScCopy := if who = i3c then s.regs.scI3c else s.regs.scPf

/-- The registers of the module status region that every requester sees. -/
def State.statusAll (s : State) (who off : Nat) : Option W64 :=
  if off = 0x000 then some (s.modStatus (if who = i3c then 0 else who))
  else if off = 0x100 then
    some (packFields [(0, 24, maskOf s.faults.spareUsed), (24, 24, maskOf s.faults.clusterOut)])
  else if off = 0x108 then
    some (packFields [(0, 32, maskOf s.faults.laneUsed), (32, 32, maskOf s.faults.portOut)])
  else if off = 0x110 then
    some (packFields [(0, 12, maskOf s.faults.pchUsed), (12, 12, maskOf s.faults.stackOut)])
  else if off = 0x118 then
    some (packFields [(0, 1, natOf s.fabric.cart0), (1, 1, natOf s.fabric.cart1),
      (2, 1, natOf (s.journal.copies.length == 2 && !s.journal.rebuilding)),
      (3, 1, natOf (s.faults.cores.contains 6 && s.faults.cores.contains 7)),
      (16, 16, satTo 0xFFFF s.faults.changes)])
  else none

/-- Registers of the power chapter (R505 to R509). -/
def State.powerReg (s : State) (off : Nat) : Option W64 :=
  let p := s.power
  if off = 0x800 then
    some (packFields [(0, 1, natOf p.sleepReq), (1, 1, natOf p.autoDoze), (8, 16, p.idleUs), (24, 5, p.fCeil)])
  else if off = 0x808 then
    some (packFields [(0, 2, p.state.code), (2, 1, natOf p.sleepRefused), (3, 1, natOf p.ready),
      (4, 4, p.lastStep), (8, 8, p.hubTj), (16, 8, p.tjMax), (32, 16, satTo 0xFFFF p.dozeEntries),
      (48, 16, satTo 0xFFFF p.sleepEntries)])
  else if off = 0x810 then some p.telem
  else if 0x818 ≤ off ∧ off < 0x838 then
    let d := s.die ((off - 0x818) / 8)
    some (packFields [(0, 11, d.mhz), (11, 10, d.mv), (21, 8, d.tj), (32, 32, d.stretches.toNat)])
  else if off = 0x838 then
    some (packFields [(0, 3, p.lastType), (3, 1, natOf p.journalKept), (8, 16, satTo 0xFFFF p.resets),
      (24, 8, satTo 0xFF p.thermTrips)])
  else if off = 0x840 then
    some (packFields [(0, 16, p.fwVersion), (16, 1, p.bank), (17, 1, natOf p.staged),
      (24, 8, satTo 0xFF p.stRetired), (32, 4, p.failedStep)])
  else none

/-- The registers of the module status region that the physical function and the I3C port see. -/
def State.statusPf (s : State) (who off : Nat) : Option W64 :=
  let r := s.regs
  let st := s.fabric.stats
  if off = 0x010 then
    some (packFields ((List.range 8).map fun i => (8 * i, 8, r.temps.getD i 0)))
  else if off = 0x018 then
    some (packFields ((List.range 4).map fun i => (8 * i, 8, r.temps.getD (8 + i) 0)))
  else if off = 0x020 then
    some (packFields [(0, 16, satTo 0xFFFF r.bar0Drops), (16, 16, satTo 0xFFFF r.bar2Drops),
      (32, 6, r.lastFn), (38, 1, natOf r.lastBar), (40, 24, r.lastPage)])
  else if off = 0x200 then
    some (packFields [(0, 32, (s.sc who).ctx.toNat), (63, 1, natOf (s.sc who).valid)])
  else if 0x208 ≤ off ∧ off ≤ 0x240 then
    some (BitVec.ofNat 64 ((s.sc who).counts.getD ((off - 0x208) / 8) 0))
  else if off = 0x300 then
    some (packFields [(0, 1, natOf r.placeOn), (8, 8, r.promote), (16, 8, r.maxMoves), (24, 5, r.windowLog2)])
  else if off = 0x308 then
    some (packFields [(0, 32, r.migrations.toNat), (32, 9, r.heldPeak), (48, 16, satTo 0xFFFF r.mirrorsLost)])
  else if off = 0x310 then
    some (packFields [(0, 32, r.acsCorrected), (32, 16, satTo 0xFFFF r.acsFaults), (48, 5, r.acsLastTeam)])
  else if off = 0x318 then
    some (packFields [(0, 32, r.updRequests.toNat), (32, 16, satTo 0xFFFF r.updNonfinite),
      (48, 16, satTo 0xFFFF r.updMismatch)])
  else if off = 0x320 then
    some (packFields [(0, 17, s.hub.length), (32, 15, r.watchPeak), (48, 16, satTo 0xFFFF r.ownerLost)])
  else if 0x400 ≤ off ∧ off < 0x500 then some (s.port ((off - 0x400) / 8)).reg
  else if off = 0x500 then some (packFields [(0, 32, st.e2eCorrected.toNat), (32, 32, st.e2eResent.toNat)])
  else if off = 0x508 then
    some (packFields [(0, 32, st.diverted.toNat), (32, 16, satTo 0xFFFF st.unmatched),
      (48, 16, satTo 0xFFFF st.roleReturns)])
  else if off = 0x510 then
    some (packFields [(0, 32, st.hopRetries.toNat), (32, 16, satTo 0xFFFF st.dupDiscarded),
      (48, 8, satTo 0xFF st.conflicts), (56, 8, satTo 0xFF st.cartChanges)])
  else if off = 0x600 then
    some (packFields [(0, 13, st.dlq.length), (16, 16, satTo 0xFFFF st.overflow), (32, 32, st.total.toNat)])
  else if off = 0x608 then some 0
  else if 0x640 ≤ off ∧ off < 0x680 then
    match st.dlq with
    | [] => some 0
    | d :: _ => some (BitVec.ofNat 64 (fieldAt d.bytes (off - 0x640) 8))
  else if off = 0x700 then
    some (packFields [(0, 4, s.faults.lastClass), (4, 1, natOf s.faults.selfFenced), (8, 8, s.faults.lastUnit),
      (16, 16, satTo 0xFFFF s.faults.contained), (32, 16, satTo 0xFFFF s.faults.stackCorrected)])
  else if off = 0x708 then some s.faults.at_
  else if off = 0x710 then
    some (packFields [(0, 3, s.faults.take.code), (3, 5, if s.power.ready then s.faults.armed.length else 0),
      (16, 16, s.faults.takePostcode.toNat), (32, 16, s.faults.takeEpoch.toNat)])
  else if off = 0x718 then some s.faults.takeStep
  else if off = 0x720 then some s.faults.takeCursor
  else if 0x800 ≤ off ∧ off < 0x848 then s.powerReg off
  else none

/-- The postmaster mirror (R443, R458). -/
def State.pmReg (s : State) (off : Nat) : Option W64 :=
  let m := s.pm
  if off = 0x00 then
    some (packFields [(0, 16, if s.part9620 then 0x9620 else 0x9640), (16, 1, natOf s.part9620),
      (17, 1, natOf s.part9620), (24, 24, m.clusterFused)])
  else if off = 0x08 then
    some (packFields [(0, 8, m.tjLimit), (8, 8, 0x6E), (16, 12, m.vinMin), (28, 12, m.vinMax)])
  else if off = 0x10 then some (packFields [(0, 2, m.role), (2, 1, m.source)])
  else if off = 0x18 then
    some (packFields ((0, 2, m.layout) :: (List.range 4).map fun d => (8 + 8 * d, 6, s.pool.getD d 8)))
  else if off = 0x20 then
    some (packFields [(0, 16, satTo 0xFFFF m.ignored), (16, 16, satTo 0xFFFF m.reqOk),
      (32, 16, satTo 0xFFFF m.reqRefused)])
  else if off = 0x28 then some m.moduleId
  else if 0x100 ≤ off ∧ off < 0x500 then
    let k := s.fn ((off - 0x100) / 16)
    some (if off % 16 = 0 then k.isoA else k.isoB)
  else if 0x500 ≤ off ∧ off < 0x520 then
    some (packFields ((List.range 4).map fun i =>
      (16 * i, 16, (s.faults.armed.getD (4 * ((off - 0x500) / 8) + i) 0xFFFF).toNat)))
  else if off = 0x600 then
    some (packFields ((List.range 4).map fun k => (8 * k, 8, (m.rights.getD k 0).toNat)))
  else if 0x608 ≤ off ∧ off < 0x628 then some (m.ctrs.getD ((off - 0x608) / 8) 0)
  else if 0x640 ≤ off ∧ off < 0x6C0 then
    some (BitVec.ofNat 64 (fieldAt (m.keys.getD ((off - 0x640) / 32) []) ((off - 0x640) % 32) 8))
  else none

/-- The MSI-X table entry and pending bit of a function (R514). -/
def State.msixReg (s : State) (f off : Nat) : Option W64 :=
  let k := s.fn f
  if off = 0x180000 then some k.msixAddr
  else if off = 0x180008 then some (packFields [(0, 32, k.msixData.toNat), (32, 1, natOf k.msixMask)])
  else if off = 0x181000 then some (packFields [(0, 1, natOf k.msixPending)])
  else none

/-- The register at an 8-byte aligned offset as a requester reads it, without its effect; none
where its view holds no register there (R513, R523). -/
def State.readReg (s : State) (who off : Nat) : Option W64 :=
  let pf := who == 0 || who == i3c
  if off = 0 then some s.idrev
  else if 0x1000 ≤ off ∧ off < 0x41000 then
    if who ≠ i3c ∧ (off - 0x1000) / 0x1000 = who then s.letterboxReg who (off % 0x1000) else none
  else if 0x100000 ≤ off ∧ off < 0x100218 then
    if who ≠ i3c then s.bankReg who (off - 0x100000) else none
  else if 0x110000 ≤ off ∧ off < 0x112200 then if pf then s.sourceReg (off - 0x110000) else none
  else if 0x180000 ≤ off ∧ off < 0x182000 then if who ≠ i3c then s.msixReg who off else none
  else if 0x200000 ≤ off ∧ off < 0x200040 then s.timeReg (off - 0x200000)
  else if 0x300000 ≤ off ∧ off < 0x300B00 then
    if 0x300900 ≤ off then
      if who ≠ i3c ∧ (off - 0x300900) / 8 = who then some (BitVec.ofNat 64 (s.fn who).bar2Base) else none
    else
      match s.statusAll who (off - 0x300000) with
      | some v => some v
      | none => if pf then s.statusPf who (off - 0x300000) else none
  else if 0x400000 ≤ off ∧ off < 0x401000 then
    let f := (off - 0x400000) / 64
    if pf ∨ f = who then some (BitVec.ofNat 64 (fieldAt ((s.fn f).frankCur.bytes f) (off % 64) 8)) else none
  else if 0x800000 ≤ off ∧ off < 0x8006C0 then if pf then s.pmReg (off - 0x800000) else none
  else none

/-- The RC bits of a register that are cleared by a read that returned them as 1 (R10, R11). -/
def State.clearRc (s : State) (who off : Nat) (lo hi : W32) : State :=
  if who ≠ i3c ∧ off = 0x1000 * (who + 1) + 0x040 then
    s.modFn who fun k =>
      { k with sqError := k.sqError && !lo.getLsbD 0, rqError := k.rqError && !lo.getLsbD 1 }
  else if off = 0x300808 then
    { s with power := { s.power with sleepRefused := s.power.sleepRefused && !lo.getLsbD 2 } }
  else if 0x112000 ≤ off ∧ off < 0x112200 ∧ off % 16 = 0 then
    let g := (off - 0x112000) / 16
    let keep (v : W32) (src : Nat) : Bool := !(src / 32 == g && v.getLsbD (src % 32))
    { s with irq := { s.irq with storm := s.irq.storm.filter (keep lo), stuck := s.irq.stuck.filter (keep hi) } }
  else s

/-- The effect of reading the low half of a register of the interrupt bank: a read of PEND clears
L (R471). -/
def State.readBank (s : State) (who off : Nat) : State :=
  if who ≠ i3c ∧ 0x100000 ≤ off ∧ off < 0x100200 ∧ off % 16 = 0 then
    s.modFn who fun k => { k with bank := { k.bank with latched := mapPut k.bank.latched ((off - 0x100000) / 16) 0 } }
  else s

/-- A requester's shadow (R14). -/
def State.shadow (s : State) (who : Nat) : Option (Nat × W32) :=
  if who = i3c then s.regs.i3cShadow else (s.fn who).shadow

def State.setShadow (s : State) (who : Nat) (v : Option (Nat × W32)) : State :=
  if who = i3c then { s with regs := { s.regs with i3cShadow := v } }
  else s.modFn who fun k => { k with shadow := v }

/-- The halves of a register value. -/
def loHalf (v : W64) : W32 := v.setWidth 32
def hiHalf (v : W64) : W32 := (v >>> 32).setWidth 32

/-- A 64-bit read: every RC field returned is cleared; the shadow is untouched (R14). -/
def State.read64Reg (s : State) (who off : Nat) (v : W64) : State :=
  (s.clearRc who off (loHalf v) (hiHalf v)).readBank who off

/-- A read of bits [31:0] (R14). -/
def State.readLow (s : State) (who off : Nat) (v : W64) : State :=
  ((s.clearRc who off (loHalf v) 0).readBank who off).setShadow who (some (off, hiHalf v))

/-- A read of bits [63:32]: the value and the effect (R14). -/
def State.readHigh (s : State) (who off : Nat) (v : W64) : W32 × State :=
  match s.shadow who with
  | some (o, h) =>
    if o = off then (h, (s.clearRc who off 0 h).setShadow who none)
    else (hiHalf v, (s.clearRc who off 0 (hiHalf v)).setShadow who none)
  | none => (hiHalf v, s.clearRc who off 0 (hiHalf v))

/-- Counts a dropped access (R521). -/
def State.drop (s : State) (f : Nat) (bar2 : Bool) (off : Nat) : State :=
  { s with regs := { s.regs with
      bar0Drops := if bar2 then s.regs.bar0Drops else s.regs.bar0Drops + 1
      bar2Drops := if bar2 then s.regs.bar2Drops + 1 else s.regs.bar2Drops
      lastFn := f, lastBar := bar2, lastPage := off / 4096 } }

end Sys2Proof.Machine
end

