-- ==== Sys2Proof/Machine/RegOps.lean ====
section
/-! DEFINITION. Writes of registers with behaviour, and of those without (spec/03 R77, R78; spec/06
R201; spec/10 R309; spec/14 R410; spec/17 R468 to R475; spec/18 R490, R505; spec/19 R511 to R522). -/

namespace Sys2Proof.Machine

open Sys2Proof

/-- Whether the PCIe endpoint answers a configuration request with Request Retry Status: the link may train from the end
of step 3 on, and step 8 has not ended (R496, R497). -/
def State.retries (s : State) : Bool :=
  s.power.boot == .starting && decide (3 ≤ s.power.bootStep) && decide (s.power.bootStep < 8)

/-- Whether the PCIe endpoint serves BAR accesses: start-up step 8 has ended (R497). -/
def State.hostUp (s : State) : Bool :=
  match s.power.boot with
  | .running => true
  | .starting => decide (8 ≤ s.power.bootStep)
  | _ => false

/-- Whether a function reaches its BARs now. -/
def State.reaches (s : State) (f : Nat) : Bool := s.hostUp && s.fnExists f

/-- Whether the I3C port answers: MC6 and MC7 are powered (R488). -/
def State.i3cUp (s : State) : Bool :=
  match s.power.boot with
  | .noSupply => false
  | _ => true

/-- The static address of the I3C target (R529). -/
def i3cStatic : BitVec 7 := 0x52

/-- The address that the I3C target answers to: its dynamic address, where it has been given one (R529). -/
def State.i3cAddr (s : State) : BitVec 7 := s.regs.i3cAddress.getD i3cStatic

/-- Whether a requester reaches registers now. -/
def State.requesterUp (s : State) (who : Nat) : Bool := if who = i3c then s.i3cUp else s.reaches who

/-- Sets SQ_ERROR and its interrupt (R77, R463). -/
def State.sqFail (s : State) (f : Nat) : State :=
  (s.modFn f fun k => { k with sqError := true }).pulse (64 + f)

/-- Sets RQ_ERROR and its interrupt. -/
def State.rqFail (s : State) (f : Nat) : State :=
  (s.modFn f fun k => { k with rqError := true }).pulse (64 + f)

/-- A write of SQ_CFG (R77). -/
def State.writeSqCfg (s : State) (f v : Nat) : State :=
  let k := s.fn f
  let log := v % 32
  if k.sqOn then
    if bitOf v 8 then s else s.modFn f fun k => { k with sqOn := false }
  else if bitOf v 8 then
    if 6 ≤ log ∧ log ≤ 16 then
      s.modFn f fun k =>
        { k with sqLog := log, sqOn := true, sqHead := 0, sqTail := 0, inHand := none, journalLost := false }
    else (s.modFn f fun k => { k with sqLog := log }).sqFail f
  else s.modFn f fun k => { k with sqLog := log }

/-- A write of SQ_DOORBELL (R77, R78); in SLEEP it starts the wake (R490). -/
def State.writeDoorbell (s : State) (f v : Nat) : State :=
  let s0 : State :=
    if s.power.state = .sleep then { s with power := { s.power with waking := true, sleepReq := false } } else s
  let k := s0.fn f
  let w := v % 65536
  if !k.sqOn then s0
  else if w < 2 ^ k.sqLog ∧ k.sqPending ≤ (w + 2 ^ k.sqLog - k.sqHead) % 2 ^ k.sqLog then
    s0.modFn f fun k => { k with sqTail := w }
  else (s0.modFn f fun k => { k with sqOn := false }).sqFail f

/-- A write of RQ_CFG (R77). Replies that the host had not consumed when the ring went off count as consumed once it is on
again (R94): the model's choice (notes/assumptions/64.md). -/
def State.writeRqCfg (s : State) (f v : Nat) : State :=
  let k := s.fn f
  let log := v % 32
  if k.rqOn then
    if bitOf v 8 then s else s.modFn f fun k => { k with rqOn := false }
  else if bitOf v 8 then
    if 6 ≤ log ∧ log ≤ 16 then
      (s.modFn f fun k =>
        { k with rqLog := log, rqOn := true, rqTail := 0, rqConsumed := 0, phase := true, written := [] }).flushReplies f
    else (s.modFn f fun k => { k with rqLog := log }).rqFail f
  else s.modFn f fun k => { k with rqLog := log }

/-- A write of RQ_CONSUMED (R77, R78). -/
def State.writeRqConsumed (s : State) (f v : Nat) : State :=
  let k := s.fn f
  let w := v % 65536
  let n := 2 ^ k.rqLog
  let gone := (w + n - k.rqConsumed) % n
  if !k.rqOn then s
  else if w < n ∧ gone ≤ (k.rqTail + n - k.rqConsumed) % n then
    (s.modFn f fun k => { k with rqConsumed := w, written := k.written.drop gone }).flushReplies f
  else s.rqFail f

/-- A write of PEND g (R468, R471). -/
def State.writePend (s : State) (f g : Nat) (v : W32) : State :=
  (s.modFn f fun k =>
    let b := k.bank
    let stored := (v ||| (b.latchedOf g &&& b.maskOf g)) &&& routeMask f g
    { k with bank := { b with pend := mapPut b.pend g stored, latched := mapPut b.latched g 0 } }).refresh f

/-- A write of MASK g (R469, R470). -/
def State.writeMask (s : State) (f g : Nat) (v : W32) : State :=
  (s.modFn f fun k => { k with bank := { k.bank with mask := mapPut k.bank.mask g v } }).refresh f

/-- A write of REARM (R469, R470). -/
def State.writeRearm (s : State) (f v : Nat) : State :=
  if bitOf v 0 then
    let s1 := s.modFn f fun k => { k with bank := { k.bank with rearms := k.bank.rearms + 1 } }
    if (s1.fn f).bank.summary then s1.sendMessage f else s1
  else s

/-- A write of SC_SELECT (R201, R202). A control context always exists (R79) and runs no
instruction, so its eight counters are zero. -/
def State.writeScSelect (s : State) (who v : Nat) : State :=
  let c : W32 := BitVec.ofNat 32 v
  let copy : ScCopy :=
    match s.ctx c with
    | some x => ⟨c, true, x.counters⟩
    | none => ⟨c, v % 2 ^ 26 == 0, []⟩
  if who = i3c then { s with regs := { s.regs with scI3c := copy } }
  else { s with regs := { s.regs with scPf := copy } }

/-- A write of DLQ_POP (R410). -/
def State.popDlq (s : State) (v : Nat) : State :=
  if bitOf v 0 then
    { s with fabric := { s.fabric with stats := { s.fabric.stats with dlq := s.fabric.stats.dlq.drop 1 } } }
  else s

/-- A write of PWR_CTRL.SLEEP (R490, R505): 1 requests SLEEP, 0 requests wake. -/
def State.writeSleep (s : State) (on : Bool) : State :=
  { s with power := { s.power with
      sleepReq := on
      waking := s.power.waking || (!on && s.power.state == .sleep) } }

/-- The nearest bound of a field's range (R309, R505, R522). -/
def clampTo (lo hi x : Nat) : Nat := max lo (min hi x)

/-- A write of PWR_CTRL's AUTO_DOZE, IDLE_US and F_CEIL (R505). A die above the new ceiling is
brought down to it (R484). -/
def State.writePwrFields (s : State) (v : Nat) : State :=
  let ceil := clampTo 0 28 (bits v 24 5)
  { s with power := { s.power with
      autoDoze := bitOf v 1, idleUs := clampTo 1 0xFFFF (bits v 8 16), fCeil := ceil
      dies := (List.range 4).foldl (fun m d =>
        if 1200 + 25 * ceil < (s.die d).mhz then mapPut m d { s.die d with mhz := 1200 + 25 * ceil } else m)
        s.power.dies } }

/-- A write of SRC_CFG (R475): MODE, ROUTE_PF, STORM_LIMIT and STUCK_US; reserved sources ignore it (R462). -/
def State.writeSrcCfg (s : State) (src v : Nat) : State :=
  let c : SrcCfg := ⟨bitOf v 0, bitOf v 1, BitVec.ofNat 8 (bits v 16 8), BitVec.ofNat 16 (bits v 24 16)⟩
  if src < 210 then { s with irq := { s.irq with cfg := mapPut s.irq.cfg src c } } else s

/-- A write of ROW_PLACE (R309). -/
def State.writeRowPlace (s : State) (v : Nat) : State :=
  { s with regs := { s.regs with
      placeOn := bitOf v 0, promote := clampTo 1 255 (bits v 8 8), maxMoves := clampTo 1 255 (bits v 16 8)
      windowLog2 := clampTo 10 24 (bits v 24 5) } }

/-- A write of the MSI-X entry (R514). -/
def State.writeMsix (s : State) (f off v : Nat) : State :=
  if off = 0x180000 then s.modFn f fun k => { k with msixAddr := BitVec.ofNat 64 v }
  else if off = 0x180008 then
    (s.modFn f fun k =>
      { k with msixData := BitVec.ofNat 32 v, msixMask := bitOf v 32 }).sendPending f
  else s

/-- A write to a postmaster register is ignored and counted (R10, R458). -/
def State.ignoreWrite (s : State) : State :=
  { s with pm := { s.pm with ignored := satTo 0xFFFF (s.pm.ignored + 1) } }

/-- The value that a write of `width` bytes at `off` makes of a register whose other half reads
`old` (R14). -/
def mergeWrite (old : W64) (off width v : Nat) : Nat :=
  if width = 8 then v % 2 ^ 64
  else if off % 8 = 0 then v % 2 ^ 32 + old.toNat / 2 ^ 32 * 2 ^ 32
  else old.toNat % 2 ^ 32 + v % 2 ^ 32 * 2 ^ 32

/-- Whether a write of `width` bytes at `off` reaches bits [31:0]. -/
def writesLow (off width : Nat) : Bool := width == 8 || off % 8 == 0

/-- A write to a letterbox register (R77). -/
def State.writeLetterbox (s : State) (f off v : Nat) (low : Bool) : State :=
  let k := s.fn f
  if off = 0x000 then if k.sqOn then s else s.modFn f fun k => { k with sqBase := v / 4096 }
  else if off = 0x020 then if k.rqOn then s else s.modFn f fun k => { k with rqBase := v / 4096 }
  else if !low then s
  else if off = 0x008 then s.writeSqCfg f v
  else if off = 0x010 then s.writeDoorbell f v
  else if off = 0x028 then s.writeRqCfg f v
  else if off = 0x030 then s.writeRqConsumed f v
  else s

/-- A write to a register of the interrupt bank (R470): a 32-bit access to bits [31:0] acts on the
whole register. -/
def State.writeBank (s : State) (f off v : Nat) (low : Bool) : State :=
  if !low then s
  else if off < 0x200 then
    if off % 16 = 0 then s.writePend f (off / 16) (BitVec.ofNat 32 v)
    else s.writeMask f (off / 16) (BitVec.ofNat 32 v)
  else if off = 0x208 then s.writeRearm f v
  else s

end Sys2Proof.Machine
end

