-- ==== Sys2Proof/Machine/FabricOps.lean ====
section
/-! DEFINITION. Unscheduled frames: routes, flows, sending, returning, the dead-letter queue
(spec/14 R376, R379 to R387). Payload layouts are the model's own (notes/assumptions/20.md). -/

namespace Sys2Proof.Machine

open Sys2Proof

/-- The role of this module with a postcode. -/
def State.role (s : State) (pc : W16) : Option Role := mapGet s.fabric.roles pc.toNat

/-- The postcode of a context's role on this module; 0xFFFF where it holds none (R111). -/
def State.postcodeOf (s : State) (c : W32) : W16 :=
  match s.fabric.roles.find? fun x => x.2.ctx == c with
  | some x => BitVec.ofNat 16 x.1
  | none => 0xFFFF

/-- What the module knows of a postcode elsewhere. -/
def State.route (s : State) (pc : W16) : Option Route := mapGet s.fabric.routes pc.toNat

/-- Whether a port mask permits a port; 0 means every port (R379). -/
def maskAllows (m : W32) (p : Nat) : Bool := m == 0 || m.getLsbD p

/-- The port mask of a postcode's role where this module holds it; every port otherwise. -/
def State.maskOf (s : State) (pc : W16) : W32 :=
  match s.role pc with
  | some r => r.mask
  | none => 0

/-- Changes the fabric part of the state. -/
def State.modFabric (s : State) (f : Fabric → Fabric) : State := { s with fabric := f s.fabric }

/-- Changes the fabric's statistics. -/
def State.modStats (s : State) (f : FabricStats → FabricStats) : State :=
  s.modFabric fun x => { x with stats := f x.stats }

/-- Sends something out. -/
def State.emitOut (s : State) (o : Out) : State := s.modFabric fun x => { x with out := x.out ++ [o] }

/-- The 32 bytes of a frame's header (R382). -/
def frameHeader (f : Frame) : List Byte :=
  leBytes 2 f.destPostcode.toNat ++ leBytes 2 f.destEpoch.toNat ++ leBytes 2 f.srcPostcode.toNat ++
  leBytes 2 f.srcEpoch.toNat ++ [f.cls, f.hops, f.kind, f.flags] ++ leBytes 2 f.payload.length ++
  leBytes 2 f.status.toNat ++ leBytes 4 f.flowSeq.toNat ++ leBytes 4 f.context.toNat ++
  leBytes 8 f.postmark.toNat

/-- The 32 bytes of a mailbag's header (R389). -/
def bagHeader (m : Mailbag) : List Byte :=
  leBytes 2 m.destPostcode.toNat ++ leBytes 2 m.destEpoch.toNat ++ leBytes 2 m.originPostcode.toNat ++
  leBytes 2 m.originEpoch.toNat ++ leBytes 2 m.version.toNat ++ leBytes 2 m.slot.toNat ++
  leBytes 2 m.channel.toNat ++ leBytes 2 0 ++ leBytes 4 m.chanSeq.toNat ++ leBytes 4 m.collective.toNat ++
  leBytes 4 m.index.toNat ++ leBytes 4 m.round.toNat

/-- Parks a frame in the dead-letter queue (R387, R410, R411). `port` is 0xFFFF for a frame of this
module. -/
def State.park (s : State) (header payload : List Byte) (reason : Nat) (port : W16) : State :=
  if s.fabric.stats.dlq.length < 4096 then
    (s.modStats fun t => { t with
      dlq := t.dlq ++ [⟨header, s.postmark, reason, port, payload.take 16⟩], total := t.total + 1 }).pulse 201
  else s.modStats fun t => { t with overflow := satTo 0xFFFF (t.overflow + 1) }

/-- Charges sent bytes to a function (R453). -/
def State.chargeLink (s : State) (f n : Nat) : State :=
  s.modFn f fun k => { k with frank := { k.frank with link := k.frank.link + n } }

/-- The best way of a route among the ports that serve: its port, the lowest of those with the fewest hops, and its
hops (R381, R383). -/
def Route.best (r : Route) (serves : Nat → Bool) : Option (Nat × Nat) :=
  (r.via.filter fun v => serves v.1).foldl (fun b v =>
    match b with
    | some x => if v.2 < x.2 then some v else b
    | none => some v) none

/-- The port for a frame (R381, R383): the best one that is UP and that the source role's port mask permits. -/
def State.portFor (s : State) (src dest : W16) : Option Nat :=
  match s.route dest with
  | some r =>
    (r.best fun p => !s.faults.selfFenced && (s.port p).state == .up && maskAllows (s.maskOf src) p).map Prod.fst
  | none => none

/-- The function that a frame's bytes are charged to (R453): that of the context of this module in which it originates; of
forwarded and returned frames and of those of the CONTROL class, the physical function. -/
def State.payerOf (s : State) (f : Frame) : Nat :=
  if (s.role f.srcPostcode).isSome && !f.flags.getLsbD 0 && f.cls != 2 then fnOf f.context else 0

/-- Sends a frame on its route, or keeps it until a port serves it (R376). -/
def State.transmit (s : State) (f : Frame) : State :=
  match s.portFor f.srcPostcode f.destPostcode with
  | some p => (s.emitOut (.frame p f)).chargeLink (s.payerOf f) (32 + f.payload.length)
  | none => s.modFabric fun x => { x with waiting := x.waiting ++ [f] }

/-- Whether a postcode has a route: one known, and not LOST (R381, R423). -/
def State.reachable (s : State) (pc : W16) : Bool :=
  match s.route pc with
  | some r => !r.lost
  | none => false

/-- The key of a flow (R384): a role under a new epoch begins new flows (notes/assumptions/20.md). -/
def flowKey (src srcEpoch dest destEpoch : W16) : Nat :=
  ((src.toNat * 65536 + srcEpoch.toNat) * 65536 + dest.toNat) * 65536 + destEpoch.toNat

/-- The context that sends as a role of this module (R382): the one that holds the role. -/
def State.senderOf (s : State) (src : W16) (c : W32) : W32 :=
  match s.role src with
  | some r => r.ctx
  | none => c

/-- A new frame of this module: its FLOW_SEQ counts from 0 in its flow (R384), and its first link is hop 1 (R382, R383). -/
def State.newFrame (s : State) (src dest : W16) (cls kind status : Nat) (c : W32) (payload : List Byte) :
    Frame × State :=
  let epoch : W16 := match s.route dest with | some r => r.epoch | none => 0
  let own : W16 := match s.role src with | some r => r.epoch | none => 0
  let key := flowKey src own dest epoch
  let seq := mapGetD s.fabric.sentSeq 0 key
  (⟨dest, epoch, src, own, BitVec.ofNat 8 cls, 1, BitVec.ofNat 8 kind, 0, BitVec.ofNat 16 status, seq, s.senderOf src c,
    s.postmark, payload⟩,
   s.modFabric fun x => { x with sentSeq := mapPut x.sentSeq key (seq + 1) })

/-- The CLASS of a KIND (R382): DATA for what carries bytes, CONTROL for control, SYNC otherwise. -/
def classOf (kind : Nat) : Nat := if 3 ≤ kind ∧ kind ≤ 7 then 3 else if kind = 8 ∨ kind = 9 then 2 else 0

/-- Sends a new frame of this module; one with no route is parked with reason 1 (R387). The result
says whether it went on. -/
def State.sendFrame (s : State) (src dest : W16) (cls kind status : Nat) (c : W32) (payload : List Byte) :
    State × Bool × W32 :=
  let r := s.newFrame src dest cls kind status c payload
  if (r.2.route dest).isSome then (r.2.transmit r.1, true, r.1.flowSeq)
  else (r.2.park (frameHeader r.1) payload 1 0xFFFF, false, r.1.flowSeq)

/-- The frame that returns another to its sender (R386): its payload is dropped, but for the mailbag header of a part of
a diverted mailbag. -/
def returnedOf (f : Frame) : Frame :=
  { f with destPostcode := f.srcPostcode, destEpoch := f.srcEpoch, srcPostcode := f.destPostcode
           srcEpoch := f.destEpoch, flags := 1, status := 0x0201, cls := 1
           payload := if f.kind = 7 then bytesAt f.payload 0 32 else [] }

/-- Returns a frame to its sender (R380, R386); one whose own destination has no route is parked
with reason 3 (R387). -/
def State.returnFrame (s : State) (f : Frame) (port : W16) : State :=
  let s1 := s.modStats fun t => { t with roleReturns := satTo 0xFFFF (t.roleReturns + 1) }
  let g := returnedOf f
  if s1.reachable g.destPostcode then s1.transmit g else s1.park (frameHeader g) g.payload 3 port


/-- What this module does with a frame on its way in (R380, R383, R387). -/
inductive Inbound where
  | mine | returned | superseded | forward | lost
  deriving DecidableEq, Repr

/-- Classifies an arriving frame by its destination. -/
def State.inbound (s : State) (f : Frame) : Inbound :=
  match s.role f.destPostcode with
  | some r =>
    if r.epoch = f.destEpoch then .mine
    else if f.destEpoch.toNat < r.epoch.toNat then .returned
    else .superseded
  | none => if (s.route f.destPostcode).isSome then .forward else .lost

/-- Forwards a frame one hop (R383): its HOPS grows; beyond 15 it is parked. -/
def State.forward (s : State) (f : Frame) (port : W16) : State :=
  let g := { f with hops := f.hops + 1 }
  if 15 < g.hops.toNat then s.park (frameHeader g) g.payload 2 port
  else s.transmit g

/-- The receiving side of a flow. -/
def State.flow (s : State) (key : Nat) : FlowIn := mapGetD s.fabric.flows ⟨some 0, []⟩ key

/-- How a flow treats an arriving FLOW_SEQ (R384). -/
inductive FlowCase where
  | now | early | duplicate
  deriving DecidableEq, Repr

def FlowIn.classify (x : FlowIn) (seq : W32) : FlowCase :=
  match x.next with
  | none => .now
  | some n =>
    if seq = n then .now
    else if (n - seq).toNat ≤ 65536 then .duplicate
    else if x.held.any fun h => h.frame.flowSeq == seq then .duplicate
    else .early

/-- Takes the next deliverable held frame of a flow, if its turn has come. -/
def FlowIn.pop (x : FlowIn) : Option (HeldFrame × FlowIn) :=
  match x.next with
  | none => none
  | some n =>
    match x.held.find? fun h => h.frame.flowSeq == n with
    | some h => some (h, { x with next := some (n + 1), held := x.held.filter fun y => y.frame.flowSeq != n })
    | none => none

/-- Keeps what came for a role of this module until SLEEP ends, and starts the wake (R490). -/
def State.holdAsleep (s : State) (a : Asleep) : State :=
  let s1 := s.modFabric fun f => { f with asleep := f.asleep ++ [a] }
  { s1 with power := { s1.power with waking := true, sleepReq := false } }

end Sys2Proof.Machine
end

