-- ==== Sys2Proof/Machine/SyncOps.lean ====
section
/-! DEFINITION. Sync objects: handles, signals, watches and claims, poisoning, and the answers that
cores await (spec/13 R351 to R360, R538; spec/05 R166). -/

namespace Sys2Proof.Machine

open Sys2Proof

/-! ### Answers to cores -/

/-- Whether a core of a team awaits an answer. -/
def Team.awaits (k : Team) (q tag : Nat) : Bool := (k.core q).awaited.any fun a => a.tag == tag

/-- Completes the answered instructions of a core that no uncompleted one of their unit stands before, in issue order
(R119): each writes its D (R166). -/
def Core.completeReady (k : Core) : Core :=
  k.awaited.foldl (fun (acc : Core) a =>
    let wait : Core := { acc with awaited := acc.awaited ++ [a] }
    match a.answer with
    | some v =>
      if acc.awaited.any fun y => y.unit == a.unit then wait
      else
        match a.dest with
        | .sreg n => acc.setS n v
        | _ => acc
    | none => wait) { k with awaited := [] }

/-- An awaited answer comes to the instruction that awaits it. -/
def Core.answer (k : Core) (tag : Nat) (v : W64) : Core :=
  let put (a : Awaited) : Awaited := if a.tag = tag then { a with answer := some v } else a
  ({ k with awaited := k.awaited.map put }).completeReady

/-- The PREEMPTED context in whose saved state a core awaits an answer (R363, R367). -/
def State.savedAwaiting (s : State) (t q tag : Nat) : Option W32 :=
  match s.ctxs.find? fun x => match mapGet x.2.saved t with
      | some k => k.awaits q tag
      | none => false with
  | some x => some (BitVec.ofNat 32 x.1)
  | none => none

/-- Changes a team in the saved state of a PREEMPTED context. -/
def State.modSaved (s : State) (c : W32) (t : Nat) (f : Team → Team) : State :=
  s.modCtx c fun x =>
    match mapGet x.saved t with
    | some k => { x with saved := mapPut x.saved t (f k) }
    | none => x

/-- Delivers an answer to the core that awaits it: on its team, or in the saved state of its PREEMPTED context. An answer
that nobody awaits any more is discarded (R122). -/
def State.deliver (s : State) (t q tag : Nat) (v : W64) : State :=
  if (s.team t).awaits q tag then s.modCore t q fun k => k.answer tag v
  else
    match s.savedAwaiting t q tag with
    | some c => s.modSaved c t fun k => k.modCore q fun k => k.answer tag v
    | none => s

/-- Puts an instruction that awaits an answer on the scoreboard (R120). -/
def State.await (s : State) (t q : Nat) (a : Awaited) : State :=
  s.modCore t q fun k => { k with awaited := k.awaited ++ [a] }

/-- A reply: status in [15:0], a value in [63:32] (R166). -/
def replyWord (status value : Nat) : W64 := BitVec.ofNat 64 (status % 65536 + value % 2 ^ 32 * 2 ^ 32)

/-- The watches on objects of other modules that a test picks are withdrawn there (R122, R369): a frame of KIND 1 names
each by the FLOW_SEQ of its registration (notes/assumptions/20.md). -/
def State.withdrawRemote (s : State) (mine : Remote → Bool) : State :=
  let isWatch (r : Remote) : Bool := match r.work with | .watch _ _ => mine r | _ => false
  let gone := s.fabric.remote.filter isWatch
  gone.foldl (fun s r => (s.sendFrame r.src r.dest 0 1 0 r.ctx (leBytes 1 6 ++ leBytes 8 r.flowSeq.toNat ++ leBytes 8 0)).1)
    (s.modFabric fun f => { f with remote := f.remote.filter fun r => !isWatch r })

/-- Drops the answers from outside that a core still awaits (R122); what they stood before completes. -/
def Core.dropExternal (k : Core) : Core :=
  ({ k with awaited := k.awaited.filter fun a => !a.external || a.answer.isSome }).completeReady

/-- An instruction that has its result at once completes with it, behind the earlier ones of its unit (R119). -/
def State.complete (s : State) (t q : Nat) (w : LumfyWord) (v : W64) : State :=
  s.modCore t q fun k =>
    if k.awaited.any fun a => a.unit == unitOf w.code then
      { k with awaited := k.awaited ++ [⟨w.args.d, readsOf w, s.free, false, unitOf w.code, some v⟩] }
    else k.putD w.args v

/-- Where the kernel of a team has stopped on a fault, withdraws the outstanding watches of its
launch and drops the answers that its cores still await from outside (R122). -/
def State.settleTeam (s : State) (t : Nat) : State :=
  match (s.team t).kernel with
  | none => s
  | some k =>
    if k.stopped then
      let ts := (s.teams.filter fun y =>
        match y.2.kernel with
        | some r => r.ctx == k.ctx && r.seq == k.seq
        | none => false).map Prod.fst
      let keep (l : List Watch) : List Watch := l.filter fun w => !w.repliesTo ts
      let s1 : State := { s with
        hubWatches := keep s.hubWatches
        hubWaiting := keep s.hubWaiting
        teams := s.teams.map fun y =>
          (y.1, { y.2 with
            watches := keep y.2.watches
            waiting := keep y.2.waiting
            cores := if ts.contains y.1 then y.2.cores.map fun c => (c.1, c.2.dropExternal) else y.2.cores }) }
      s1.withdrawRemote fun r => r.ctx == k.ctx && r.seq == k.seq
    else s

/-- A launch fault decided outside an instruction of its own team: it takes effect at once (R122). -/
def State.faultNow (s : State) (t q : Nat) (kind : FaultKind) : State :=
  (s.launchFault t q kind).settleTeam t

/-- A fault of the launch that stands in the saved state of a PREEMPTED context (R122): it is recorded, its kernels
stop, and its cores await nothing more from outside. -/
def State.faultSaved (s : State) (c : W32) (t q : Nat) (kind : FaultKind) : State :=
  s.modCtx c fun x =>
    match (mapGet x.saved t).bind fun k => k.kernel with
    | none => x
    | some k =>
      let f : FaultRec := ⟨s.postmark, t, q, kind⟩
      let first (g : Option FaultRec) : FaultRec := match g with
        | some g => if f.before g then f else g
        | none => f
      let mine (y : Team) : Bool := match y.kernel with | some r => r.seq == k.seq | none => false
      { x with
        launches := modWhere (fun l => l.seq == k.seq) (fun l => { l with fault := some (first l.fault) }) x.launches
        saved := x.saved.map fun y => (y.1, if mine y.2 then
          { y.2 with kernel := y.2.kernel.map fun r => { r with stopped := true }
                     cores := y.2.cores.map fun c => (c.1, c.2.dropExternal) } else y.2) }

/-- An answer that faults the launch of the core that awaits it (R360, R363); where nobody awaits it, nothing happens. -/
def State.deliverFault (s : State) (t q tag : Nat) (v : W64) (kind : FaultKind) : State :=
  if (s.team t).awaits q tag then (s.deliver t q tag v).faultNow t q kind
  else
    match s.savedAwaiting t q tag with
    | some c => (s.deliver t q tag v).faultSaved c t q kind
    | none => s

/-- The launch that holds a team for a context (R200, R346): that of its kernel, or, once its kernel has ended, the one
that last ran there and has not completed. -/
def State.holdingSeq (s : State) (c : W32) (t : Nat) : Option W64 :=
  match (s.team t).kernel, s.ctx c with
  | some k, _ => if k.ctx = c then some k.seq else none
  | none, some x => ((x.launches.filter fun l => bitOf l.teams t).getLast?).map fun l => l.seq
  | none, none => none

/-- Counts events in a context and in the launch that holds a team for it (R199, R200). -/
def State.addEventsFor (s : State) (c : W32) (t : Nat) (e : Events) : State :=
  let seq := s.holdingSeq c t
  s.modCtx c fun x =>
    { x with
      counters := addCounters x.counters e
      launches := modWhere (fun l => some l.seq == seq) (fun l => { l with events := l.events + e.total }) x.launches }

/-! ### Units and objects -/

/-- A sync unit: that of a cluster, or the hub's. -/
inductive SyncUnit where
  | cluster (team : Nat)
  | hub
  deriving DecidableEq, Repr

/-- An object as a handle names it (R352, R354). -/
inductive Target where
  | here (u : SyncUnit) (index : Nat)
  | away (postcode : W16) (handle : W64)
  | bad
  deriving DecidableEq, Repr

/-- Registered watches, registrations that wait for room, and room of a unit (R358). -/
def State.watchesOf (s : State) : SyncUnit → List Watch
  | .cluster t => (s.team t).watches
  | .hub => s.hubWatches
def State.waitingOf (s : State) : SyncUnit → List Watch
  | .cluster t => (s.team t).waiting
  | .hub => s.hubWaiting
def SyncUnit.room : SyncUnit → Nat
  | .cluster _ => 1024
  | .hub => 16384

def State.setWatches (s : State) (u : SyncUnit) (l : List Watch) : State :=
  match u with
  | .cluster t => s.modTeam t fun k => { k with watches := l }
  | .hub => { s with hubWatches := l, regs := { s.regs with watchPeak := max s.regs.watchPeak l.length } }
def State.setWaiting (s : State) (u : SyncUnit) (l : List Watch) : State :=
  match u with
  | .cluster t => s.modTeam t fun k => { k with waiting := l }
  | .hub => { s with hubWaiting := l }

/-- The value and poisoning of a counter (R351). -/
def State.obj (s : State) (u : SyncUnit) (i : Nat) : SyncObj :=
  match u with
  | .cluster t => mapGetD (s.team t).sync SyncObj.reset i
  | .hub =>
    match mapGet s.hub i with
    | some h => ⟨h.value, h.poisoned⟩
    | none => SyncObj.reset
def State.setObj (s : State) (u : SyncUnit) (i : Nat) (o : SyncObj) : State :=
  match u with
  | .cluster t => s.modTeam t fun k => { k with sync := mapPut k.sync i o }
  | .hub =>
    match mapGet s.hub i with
    | some h => { s with hub := mapPut s.hub i { h with value := o.value, poisoned := o.poisoned } }
    | none => s

/-! ### Evaluation (R359) -/

/-- Whether a plain watch is met. -/
def Watch.met (w : Watch) (v : Nat) : Bool :=
  match w.kind with
  | .ge => decide (w.n ≤ v)
  | .eq => w.n == v
  | .claim => false

/-- The evaluation of one object: its value, the watches that stay, and the replies in the order
of release. Each round releases the plain watches that are met and serves the oldest claim. -/
def evalLoop : Nat → Nat → List Watch → List (Watch × Nat) → Nat × List Watch × List (Watch × Nat)
  | 0, v, ws, out => (v, ws, out)
  | n + 1, v, ws, out =>
    let free := ws.filter fun w => w.met v
    let left := ws.filter fun w => !w.met v
    let out1 := out ++ free.map fun w => (w, v)
    match left.find? fun w => w.kind == .claim with
    | some c =>
      if c.n ≤ v then
        evalLoop n (v - c.n) (eraseFirst (fun w => w == c) left) (out1 ++ [(c, v - c.n)])
      else (v, left, out1)
    | none => (v, left, out1)

/-- Answers a watch (R166, R354, R358): at a core of this module, or by a frame of KIND 2. -/
def State.replyTo (s : State) (whom : ReplyTo) (code : Nat) (v : W64) : State :=
  match whom with
  | .core t q tag => s.deliver t q tag v
  | .remote pc holder seq =>
    (s.sendFrame holder pc 0 2 0 0 (leBytes 4 seq.toNat ++ leBytes 1 code ++ leBytes 8 v.toNat)).1

/-- Releases a watch whose object is poisoned (R358, R360): the reply carries OWNER_LOST and the
VALUE, and its launch faults. -/
def State.replyLost (s : State) (whom : ReplyTo) (value : Nat) : State :=
  match whom with
  | .core t q tag => s.deliverFault t q tag (replyWord 0x0202 value) .ownerLost
  | .remote _ _ _ => s.replyTo whom 1 (replyWord 0x0202 value)

/-- Evaluates an object (R359). -/
def State.evaluate (s : State) (u : SyncUnit) (i : Nat) : State :=
  let o := s.obj u i
  let mine := (s.watchesOf u).filter fun w => w.obj == i
  let r := evalLoop (mine.length + 1) o.value mine []
  let gone := r.2.2.map Prod.fst
  let s1 := (s.setObj u i { o with value := r.1 }).setWatches u
    (gone.foldl (fun l g => eraseFirst (fun w => w == g) l) (s.watchesOf u))
  r.2.2.foldl (fun s x => s.replyTo x.1.whom 0 (replyWord 0 x.2)) s1

/-- Registers a watch at a unit with room, and evaluates its object (R358, R359). -/
def State.enter (s : State) (u : SyncUnit) (w : Watch) : State :=
  let o := s.obj u w.obj
  if o.poisoned then s.replyLost w.whom o.value
  else (s.setWatches u (s.watchesOf u ++ [w])).evaluate u w.obj

/-- Registers waiting registrations, in arrival order, while the unit has room (R358). -/
def State.admitWaiting : Nat → SyncUnit → State → State
  | 0, _, s => s
  | n + 1, u, s =>
    match s.waitingOf u with
    | w :: rest =>
      if (s.watchesOf u).length < u.room then
        State.admitWaiting n u ((s.setWaiting u rest).enter u w)
      else s
    | [] => s

/-- Admits as many waiting registrations as room allows. -/
def State.admitAll (s : State) (u : SyncUnit) : State := State.admitWaiting (s.waitingOf u).length u s

/-- Registrations that wait for room, at every unit. -/
def State.waitingCount (s : State) : Nat :=
  s.hubWaiting.length + (s.teams.map fun t => t.2.waiting.length).foldl (· + ·) 0

/-- Admits waiting registrations at every unit as it stands. -/
def State.admitOnce (s : State) : State :=
  (s.teams.map Prod.fst).foldl (fun s t => s.admitAll (.cluster t)) (s.admitAll .hub)

/-- Admits waiting registrations at every unit (R358): one that finds its object poisoned faults its launch, whose watches
then leave room at any unit. -/
def State.admitUnits (s : State) : State := (List.range (s.waitingCount + 1)).foldl (fun s _ => s.admitOnce) s

/-- After the launch of a team has stopped on a fault, its watches are withdrawn, and registrations that wait take their
room (R122, R358). -/
def State.settle (s : State) (t : Nat) : State :=
  match (s.team t).kernel with
  | some k => if k.stopped then (s.settleTeam t).admitUnits else s
  | none => s

/-- Registers a watch; where the unit is full it waits (R358). -/
def State.register (s : State) (u : SyncUnit) (w : Watch) : State :=
  if (s.watchesOf u).length < u.room && (s.waitingOf u).isEmpty then s.enter u w
  else s.setWaiting u (s.waitingOf u ++ [w])

/-- A signal of `n` on a counter (R355): the state, and the fault it raises. -/
def State.signal (s : State) (u : SyncUnit) (i : Nat) (n : Int) : State × Option FaultKind :=
  let o := s.obj u i
  let v := (o.value : Int) + n
  if o.poisoned then (s, some .ownerLost)
  else if v < 0 then (s, some .syncUnderflow)
  else if 2147483647 < v then (s, some .syncOverflow)
  else if n = 0 then (s, none)
  else (((s.setObj u i { o with value := v.toNat }).evaluate u i).admitUnits, none)

/-- SYNC.INIT of a counter (R356). -/
def State.initCounter (s : State) (u : SyncUnit) (i v : Nat) : State :=
  ((s.setObj u i ⟨v, false⟩).evaluate u i).admitUnits

/-- Poisons a counter and releases its watches (R360, R369): the state and how many it released. -/
def State.poison (s : State) (u : SyncUnit) (i : Nat) : State × Nat :=
  let o := s.obj u i
  let mine := (s.watchesOf u).filter fun w => w.obj == i
  let s1 := (s.setObj u i { o with poisoned := true }).setWatches u
    ((s.watchesOf u).filter fun w => w.obj != i)
  let s2 := mine.foldl (fun s w => s.replyLost w.whom o.value) s1
  let s3 := s2.admitUnits
  ({ s3 with regs := { s3.regs with ownerLost := satTo 0xFFFF (s3.regs.ownerLost + mine.length) } }, mine.length)

/-! ### Handles -/

/-- The fields of a handle (R352). -/
def hIndex (h : W64) : Nat := bits h.toNat 0 16
def hTeam (h : W64) : Nat := bits h.toNat 16 5
def hHub (h : W64) : Bool := bitOf h.toNat 24
def hBarrier (h : W64) : Bool := bitOf h.toNat 25
def hPostcode (h : W64) : W16 := BitVec.ofNat 16 (bits h.toNat 32 16)

/-- Whether a handle meets R352. -/
def handleOk (h : W64) : Bool :=
  bits h.toNat 21 3 == 0 && bits h.toNat 26 6 == 0 && bits h.toNat 48 16 == 0 &&
  (if hHub h then hTeam h == 0
   else decide (hIndex h < 1024) && !hBarrier h && hPostcode h == 0xFFFF && decide (hTeam h < 24))

/-- The context that owns a team now: the RUNNING one that names it (R353, R447). -/
def State.holder (s : State) (t : Nat) : Option (W32 × Ctx) :=
  match s.ctxs.find? fun x => x.2.running && bitOf x.2.teamMask t with
  | some x => some (BitVec.ofNat 32 x.1, x.2)
  | none => none

/-- Whether a hub object may be used through its owner and kind (R354). -/
def State.hubUsable (s : State) (i : Nat) (owner : W32) (barrier : Bool) : Bool :=
  match mapGet s.hub i with
  | some h => h.owner == owner && h.barrier == barrier
  | none => false

/-- The object that a handle names for an operation of a context (R354). `barrier` says which kind
the operation takes. -/
def State.resolve (s : State) (c : W32) (x : Ctx) (h : W64) (barrier : Bool) : Target :=
  if !handleOk h || hBarrier h != barrier then .bad
  else if !hHub h then
    match s.holder (hTeam h) with
    | some o => if o.1 = c then .here (.cluster (hTeam h)) (hIndex h) else .bad
    | none => .bad
  else if hPostcode h = 0xFFFF then
    if s.hubUsable (hIndex h) c barrier then .here .hub (hIndex h) else .bad
  else if x.span ≠ 1 then .bad
  else
    match s.role (hPostcode h) with
    | some r => if s.hubUsable (hIndex h) r.ctx barrier then .here .hub (hIndex h) else .bad
    | none => .away (hPostcode h) h

/-! ### Issue -/

/-- Issues an instruction that acts in every core whose mask is true, in core index order: `f`
gives its effect in one core. Where it cannot issue, nothing changes (notes/assumptions/1.md). -/
def State.issue (s : State) (t : Nat) (w : LumfyWord) (f : State → Nat → State) : State :=
  if s.canIssue t w then
    ((((s.team t).masked w.args.pred).foldl f s.bumpFree).nextPc t).settle t
  else s

/-- Issues an instruction that changes only the registers of each core whose mask is true. -/
def State.issueRegs (s : State) (t : Nat) (w : LumfyWord) (f : Core → Core) : State :=
  s.issue t w fun s' q => s'.modCore t q f

/-- Adds 1 to ADDR_DROP for an operation that does not act (R354). -/
def State.notActed (s : State) (t q : Nat) (w : LumfyWord) : State := s.finish t q w evAddr

/-- An operation that does not act completes at once (R354, R358): D, where it has one, is zero. -/
def State.zeroD (s : State) (t q : Nat) (w : LumfyWord) : State := (s.complete t q w 0).notActed t q w

/-- Notes that the launch of a team has acted on another module or waited with one (R414). -/
def State.markExternal (s : State) (t : Nat) : State :=
  match (s.team t).kernel with
  | some k =>
    let put (l : Launch) : Launch := { l with external := true }
    s.modCtx k.ctx fun x => { x with launches := modWhere (fun l => l.seq == k.seq) put x.launches }
  | none => s

/-- Sends an operation to the module that holds its object (R354), and remembers it. A frame that
was parked is resolved as one that was returned. -/
def State.sendOp (s : State) (c : W32) (t q : Nat) (dest : W16) (kind : Nat) (payload : List Byte)
    (work : RemoteWork) (onFail : State → State) : State :=
  let seq : W64 := match (s.team t).kernel with | some k => k.seq | none => 0
  let src := s.postcodeOf c
  let s0 := if [1, 3, 10].contains kind then s.markExternal t else s
  let r := s0.sendFrame src dest (classOf kind) kind 0 c payload
  if r.2.1 then
    r.1.modFabric fun f => { f with remote := f.remote ++ [⟨r.2.2, src, dest, t, q, c, seq, work⟩] }
  else onFail r.1

/-! ### Signals of units (R538) -/

/-- Records a fault of a launch whose kernel has ended in the team: it is the launch's first where none came before. -/
def State.faultLaunch (s : State) (c : W32) (seq : W64) (t : Nat) (kind : FaultKind) : State :=
  let f : FaultRec := ⟨s.postmark, t, 16, kind⟩
  let first (l : Launch) : Launch :=
    { l with fault := some (match l.fault with | some g => if f.before g then f else g | none => f) }
  let mine (k : Team) : Bool := match k.kernel with | some r => r.ctx == c && r.seq == seq | none => false
  let stop (k : Team) : Team :=
    if mine k then { k with kernel := k.kernel.map fun r => { r with stopped := true } } else k
  let quiet (k : Team) : Team :=
    if mine k then { k with cores := k.cores.map fun q => (q.1, q.2.dropExternal) } else k
  let s1 := s.modCtx c fun x =>
    { x with launches := modWhere (fun l => l.seq == seq) first x.launches
             saved := x.saved.map fun y => (y.1, quiet (stop y.2)) }
  { s1 with teams := s1.teams.map fun y => (y.1, stop y.2) }

/-- A fault that a unit's DONE signal raises: of the launch of the context that holds the team, in the saved state of a
PREEMPTED context as well; where none does, it is held for the context's next one there. -/
def State.unitFault (s : State) (t : Nat) (c : W32) (kind : FaultKind) : State :=
  let hold (k : Team) : Team := { k with heldFaults := k.heldFaults ++ [kind] }
  match s.ctx c with
  | none => s
  | some x =>
    let last := ((x.launches.filter fun l => bitOf l.teams t).getLast?).map fun l => l.seq
    let kernel := (if x.running then (s.team t).kernel else (mapGet x.saved t).bind fun k => k.kernel).filter
      fun k => k.ctx == c
    match kernel, last with
    | some _, _ => if x.running then (s.faultNow t 16 kind).admitUnits else s.faultSaved c t 16 kind
    | none, some seq =>
      if x.running then
        let s1 := s.faultLaunch c seq t kind
        ((s1.teams.map Prod.fst).foldl (fun s y => s.settleTeam y) s1).admitUnits
      else s.faultLaunch c seq t kind
    | none, none => if x.running then s.modTeam t hold else s.modSaved c t hold

/-- SIGNAL.ADD of 1 on DONE by a unit of a cluster (R274, R292, R303, R342). -/
def State.signalDone (s : State) (t : Nat) (c : W32) (h : W64) : State :=
  match s.ctx c with
  | none => s
  | some x =>
    match s.resolve c x h false with
    | .here u i =>
      let r := s.signal u i 1
      match r.2 with
      | some f => r.1.unitFault t c f
      | none => r.1
    | .away pc _ =>
      s.sendOp c t 16 pc 1 (leBytes 1 0 ++ leBytes 8 h.toNat ++ leBytes 8 1) (.signal 0 (hIndex h) false) fun s =>
        s.addEventsFor c t evAddr
    | .bad => s.addEventsFor c t evAddr

end Sys2Proof.Machine
end

