-- ==== Sys2Proof/Machine/Scalar.lean ====
section
/-! DEFINITION. Control and scalar instructions (spec/05 R150, R151; spec/04 R107 to R109, R123). -/

namespace Sys2Proof.Machine

open Sys2Proof

/-- What every meaning answers. -/
abbrev Result := Host.Outcome State Fault Refusal

/-- Issues a control instruction: `f` gives the kernel after it (R108, R109). -/
def State.control (s : State) (t : Nat) (w : LumfyWord) (f : Kernel → Kernel) : State :=
  if s.canIssue t w then s.bumpFree.modKernel t f else s

/-- The branch target in IMM[15:0] (R150). -/
def imm16 (x : Args) : Nat := x.imm.toNat % 65536

/-- Whether a conditional branch is taken (R108): ANY, or ALL over the cores whose loop masks are true. -/
def State.branchAny (s : State) (t : Nat) (x : Args) : Bool :=
  (s.team t).activeCores.any fun q => (s.core t q).pred x.a
def State.branchAll (s : State) (t : Nat) (x : Args) : Bool :=
  (s.team t).activeCores.all fun q => (s.core t q).pred x.a

/-- The private trip counts at loop entry (R109): ck of each core whose mask is true, else 0. -/
def State.tripCounts (s : State) (t : Nat) (x : Args) : List Nat :=
  (List.range 16).map fun q =>
    if (s.team t).activeCores.contains q then ((s.core t q).count x.a).toNat else 0

/-- The largest of a list of counts. -/
def maxOf (l : List Nat) : Nat := l.foldl max 0

/-- Enters a loop, or skips its body where T is 0 (R109). -/
def Kernel.enterLoop (k : Kernel) (counts : List Nat) (endAt : Nat) : Kernel :=
  if maxOf counts = 0 then { k with pc := endAt + 1 }
  else { k with pc := k.pc + 1, loops := ⟨k.pc, counts, maxOf counts, 0⟩ :: k.loops }

/-- Starts the next iteration of the innermost open loop, or leaves it (R109). -/
def Kernel.endLoop (k : Kernel) : Kernel :=
  match k.loops with
  | [] => { k with pc := k.pc + 1 }
  | f :: r =>
    if f.iter + 1 < f.trips then { k with pc := f.at_ + 1, loops := { f with iter := f.iter + 1 } :: r }
    else { k with pc := k.pc + 1, loops := r }

/-- NOP (R150): no effect. -/
def execNopInstruction (team : Nat) (x : Args) (s : State) : Result :=
  .next (s.issueRegs team ⟨0x000, x⟩ fun k => k)

/-- END (R123, R150): the stream ends in the team; the kernel ends once its units have drained. -/
def execEndI (team : Nat) (x : Args) (s : State) : Result :=
  .next (s.control team ⟨0x001, x⟩ fun k => { k with ended := true })

/-- BR (R150): always taken. -/
def execBr (team : Nat) (x : Args) (s : State) : Result :=
  .next (s.control team ⟨0x002, x⟩ fun k => { k with pc := imm16 x })

/-- BR.ANY (R108). -/
def execBrAny (team : Nat) (x : Args) (s : State) : Result :=
  .next (s.control team ⟨0x003, x⟩ fun k =>
    { k with pc := if s.branchAny team x then imm16 x else k.pc + 1 })

/-- BR.ALL (R108). -/
def execBrAll (team : Nat) (x : Args) (s : State) : Result :=
  .next (s.control team ⟨0x004, x⟩ fun k =>
    { k with pc := if s.branchAll team x then imm16 x else k.pc + 1 })

/-- LOOP (R109): IMM[15:0] is the index of the matching ENDLOOP. -/
def execLoop (team : Nat) (x : Args) (s : State) : Result :=
  .next (s.control team ⟨0x005, x⟩ fun k => k.enterLoop (s.tripCounts team x) (imm16 x))

/-- ENDLOOP (R109). -/
def execEndloop (team : Nat) (x : Args) (s : State) : Result :=
  .next (s.control team ⟨0x006, x⟩ fun k => k.endLoop)

/-- STATPTR (R144): a CORE address, a multiple of 32 below CORE_BYTES - 31; else the pointer is
empty and ADDR_DROP counts. -/
def execStatptr (team : Nat) (x : Args) (s : State) : Result :=
  .next (s.issue team ⟨0x007, x⟩ fun s' q =>
    let v := ((s'.core team q).value x false x.a).toNat
    if v % 32 = 0 ∧ v + 31 < s'.coreBytes team then
      s'.modCore team q fun k => { k with statusPtr := some v }
    else
      (s'.modCore team q fun k => { k with statusPtr := none }).finish team q ⟨0x007, x⟩ evAddr)

/-- PMREAD (R150): the postmark at issue. -/
def execPmread (team : Nat) (x : Args) (s : State) : Result :=
  .next (s.issueRegs team ⟨0x008, x⟩ fun k => k.putD x s.postmark)

/-- MOV (R150). -/
def execMov (team : Nat) (x : Args) (s : State) : Result :=
  .next (s.issueRegs team ⟨0x010, x⟩ fun k => k.putD x (k.value x false x.a))

/-- MOVHI (R150): D[63:48] := IMM[15:0], D[47:0] kept. -/
def execMovhi (team : Nat) (x : Args) (s : State) : Result :=
  .next (s.issueRegs team ⟨0x011, x⟩ fun k =>
    k.putD x (BitVec.ofNat 64 ((k.value x false x.d).toNat % 2 ^ 48 + x.imm.toNat % 65536 * 2 ^ 48)))

/-- LDC (R150): the u64 of the bank's constants at the byte offset in IMM[15:0]. -/
def execLdc (team : Nat) (x : Args) (s : State) : Result :=
  .next (s.issueRegs team ⟨0x012, x⟩ fun k =>
    k.putD x (match (s.team team).image with
      | some i => BitVec.ofNat 64 (fieldAt i.constants (imm16 x) 8)
      | none => 0))

/-- The CORE address of LD and ST: A + IMM with IMM signed (R150), rounded down to the access
width where it is not a multiple of it (R116). -/
def ldstAddr (k : Core) (x : Args) : Nat × Bool :=
  let w := elemBits x.ty / 8
  let a := (k.value x false x.a + immValue false x.imm).toNat
  (floorTo w a, a % w != 0)

/-- The value that LD gives: I-codes sign-extended, U-codes zero-extended (R150). -/
def ldExtend (ty : Nat) (v : Nat) : W64 :=
  match itypeOf ty with
  | some t => BitVec.ofInt 64 (t.decode v)
  | none => BitVec.ofNat 64 v

/-- LD (R150, R151, R116): bytes outside the kernel's CORE memory read as zeros. -/
def execLd (team : Nat) (x : Args) (s : State) : Result :=
  .next (s.issue team ⟨0x013, x⟩ fun s' q =>
    let k := s'.core team q
    let w := elemBits x.ty / 8
    let a := ldstAddr k x
    let m := s'.view ⟨team, some q, .sc, none⟩ (.core team q)
    let bytes := (List.range w).map fun i =>
      if s'.usable team 0 (a.1 + i) then memGet m (a.1 + i) else 0
    let bad := a.2 || (List.range w).any fun i => !s'.usable team 0 (a.1 + i)
    (s'.modCore team q fun k => k.putD x (ldExtend x.ty (leNat bytes))).finish team q ⟨0x013, x⟩
      (Events.withAddr { } bad))

/-- ST (R150, R151, R116): the low bits of B; bytes outside the kernel's CORE memory are dropped. -/
def execSt (team : Nat) (x : Args) (s : State) : Result :=
  .next (s.issue team ⟨0x014, x⟩ fun s' q =>
    let k := s'.core team q
    let w := elemBits x.ty / 8
    let a := ldstAddr k x
    let bytes := leBytes w (k.value x false x.b).toNat
    let cells := ((List.range w).map fun i => (a.1 + i, bytes.getD i 0)).filter fun c =>
      s'.usable team 0 c.1
    let bad := a.2 || decide (cells.length < w)
    (s'.store ⟨team, some q, .sc, none⟩ (.core team q) cells).finish team q ⟨0x014, x⟩
      (Events.withAddr { } bad))

/-- Operands of a two-operand scalar instruction. -/
def Core.ab (k : Core) (x : Args) (zeroExtend : Bool) : W64 × W64 :=
  (k.value x zeroExtend x.a, k.value x zeroExtend x.b)

/-- ADD (R150): mod 2^64. -/
def execAdd (team : Nat) (x : Args) (s : State) : Result :=
  .next (s.issueRegs team ⟨0x018, x⟩ fun k =>
    let a := (k.ab x false).1
    let b := (k.ab x false).2
    k.putD x (a + b))

/-- SUB (R150): mod 2^64. -/
def execSub (team : Nat) (x : Args) (s : State) : Result :=
  .next (s.issueRegs team ⟨0x019, x⟩ fun k =>
    let a := (k.ab x false).1
    let b := (k.ab x false).2
    k.putD x (a - b))

/-- MUL (R150): low 64 bits of the product. -/
def execMul (team : Nat) (x : Args) (s : State) : Result :=
  .next (s.issueRegs team ⟨0x01A, x⟩ fun k =>
    let a := (k.ab x false).1
    let b := (k.ab x false).2
    k.putD x (a * b))

/-- MULHI.S (R150): high 64 bits, signed operands. -/
def execMulhiS (team : Nat) (x : Args) (s : State) : Result :=
  .next (s.issueRegs team ⟨0x01B, x⟩ fun k =>
    let a := (k.ab x false).1
    let b := (k.ab x false).2
    k.putD x (BitVec.ofInt 64 (a.toInt * b.toInt / (2 ^ 64 : Nat))))

/-- MULHI.U (R150): high 64 bits, unsigned operands. -/
def execMulhiU (team : Nat) (x : Args) (s : State) : Result :=
  .next (s.issueRegs team ⟨0x01C, x⟩ fun k =>
    let a := (k.ab x true).1
    let b := (k.ab x true).2
    k.putD x (BitVec.ofNat 64 (a.toNat * b.toNat / 2 ^ 64)))

/-- DIV.U (R150): the floor of A ÷ B, all ones when B = 0. -/
def execDivU (team : Nat) (x : Args) (s : State) : Result :=
  .next (s.issueRegs team ⟨0x01D, x⟩ fun k =>
    let a := (k.ab x true).1
    let b := (k.ab x true).2
    k.putD x (if b = 0 then 0xFFFFFFFFFFFFFFFF else a / b))

/-- REM.U (R150): A mod B, A when B = 0. -/
def execRemU (team : Nat) (x : Args) (s : State) : Result :=
  .next (s.issueRegs team ⟨0x01E, x⟩ fun k =>
    let a := (k.ab x true).1
    let b := (k.ab x true).2
    k.putD x (if b = 0 then a else a % b))

/-- AND (R150): bitwise. -/
def execAndI (team : Nat) (x : Args) (s : State) : Result :=
  .next (s.issueRegs team ⟨0x020, x⟩ fun k =>
    let a := (k.ab x true).1
    let b := (k.ab x true).2
    k.putD x (a &&& b))

/-- OR (R150): bitwise. -/
def execOrI (team : Nat) (x : Args) (s : State) : Result :=
  .next (s.issueRegs team ⟨0x021, x⟩ fun k =>
    let a := (k.ab x true).1
    let b := (k.ab x true).2
    k.putD x (a ||| b))

/-- XOR (R150): bitwise. -/
def execXorI (team : Nat) (x : Args) (s : State) : Result :=
  .next (s.issueRegs team ⟨0x022, x⟩ fun k =>
    let a := (k.ab x true).1
    let b := (k.ab x true).2
    k.putD x (a ^^^ b))

/-- SHL (R150): shift count B mod 64. -/
def execShl (team : Nat) (x : Args) (s : State) : Result :=
  .next (s.issueRegs team ⟨0x023, x⟩ fun k =>
    let a := (k.ab x false).1
    let b := (k.ab x false).2
    k.putD x (a <<< (b.toNat % 64)))

/-- SHR (R150): logical, shift count B mod 64. -/
def execShr (team : Nat) (x : Args) (s : State) : Result :=
  .next (s.issueRegs team ⟨0x024, x⟩ fun k =>
    let a := (k.ab x false).1
    let b := (k.ab x false).2
    k.putD x (a >>> (b.toNat % 64)))

/-- SAR (R150): arithmetic, shift count B mod 64. -/
def execSar (team : Nat) (x : Args) (s : State) : Result :=
  .next (s.issueRegs team ⟨0x025, x⟩ fun k =>
    let a := (k.ab x false).1
    let b := (k.ab x false).2
    k.putD x (a.sshiftRight (b.toNat % 64)))

/-- MIN.S (R150): signed. -/
def execMinS (team : Nat) (x : Args) (s : State) : Result :=
  .next (s.issueRegs team ⟨0x026, x⟩ fun k =>
    let a := (k.ab x false).1
    let b := (k.ab x false).2
    k.putD x (if a.toInt ≤ b.toInt then a else b))

/-- MIN.U (R150): unsigned. -/
def execMinU (team : Nat) (x : Args) (s : State) : Result :=
  .next (s.issueRegs team ⟨0x027, x⟩ fun k =>
    let a := (k.ab x true).1
    let b := (k.ab x true).2
    k.putD x (if a.toNat ≤ b.toNat then a else b))

/-- MAX.S (R150): signed. -/
def execMaxS (team : Nat) (x : Args) (s : State) : Result :=
  .next (s.issueRegs team ⟨0x028, x⟩ fun k =>
    let a := (k.ab x false).1
    let b := (k.ab x false).2
    k.putD x (if a.toInt ≤ b.toInt then b else a))

/-- MAX.U (R150): unsigned. -/
def execMaxU (team : Nat) (x : Args) (s : State) : Result :=
  .next (s.issueRegs team ⟨0x029, x⟩ fun k =>
    let a := (k.ab x true).1
    let b := (k.ab x true).2
    k.putD x (if a.toNat ≤ b.toNat then b else a))

/-- CMP.EQ (R150): D := (A = B). -/
def execCmpEq (team : Nat) (x : Args) (s : State) : Result :=
  .next (s.issueRegs team ⟨0x030, x⟩ fun k =>
    let a := (k.ab x false).1
    let b := (k.ab x false).2
    k.putPD x (a == b))

/-- CMP.NE (R150): D := (A ≠ B). -/
def execCmpNe (team : Nat) (x : Args) (s : State) : Result :=
  .next (s.issueRegs team ⟨0x031, x⟩ fun k =>
    let a := (k.ab x false).1
    let b := (k.ab x false).2
    k.putPD x (a != b))

/-- CMP.LT (R150): signed. -/
def execCmpLt (team : Nat) (x : Args) (s : State) : Result :=
  .next (s.issueRegs team ⟨0x032, x⟩ fun k =>
    let a := (k.ab x false).1
    let b := (k.ab x false).2
    k.putPD x (decide (a.toInt < b.toInt)))

/-- CMP.LE (R150): signed. -/
def execCmpLe (team : Nat) (x : Args) (s : State) : Result :=
  .next (s.issueRegs team ⟨0x033, x⟩ fun k =>
    let a := (k.ab x false).1
    let b := (k.ab x false).2
    k.putPD x (decide (a.toInt ≤ b.toInt)))

/-- CMP.LTU (R150): unsigned. -/
def execCmpLtu (team : Nat) (x : Args) (s : State) : Result :=
  .next (s.issueRegs team ⟨0x034, x⟩ fun k =>
    let a := (k.ab x true).1
    let b := (k.ab x true).2
    k.putPD x (decide (a.toNat < b.toNat)))

/-- CMP.LEU (R150): unsigned. -/
def execCmpLeu (team : Nat) (x : Args) (s : State) : Result :=
  .next (s.issueRegs team ⟨0x035, x⟩ fun k =>
    let a := (k.ab x true).1
    let b := (k.ab x true).2
    k.putPD x (decide (a.toNat ≤ b.toNat)))

/-- The float format of an SF type code (R141, R151). -/
def sfFmt (ty : Nat) : Fmt := if ty = 0x02 then fmtF16 else fmtF32

/-- The scalar float value in the low bits of a register (R151). -/
def sfVal (ty : Nat) (v : W64) : FVal := (sfFmt ty).decode (v.toNat % 2 ^ elemBits ty)

/-- A scalar float result: rounded once to nearest-even, subnormals kept, infinity beyond the
largest finite value, the rest of D zero (R151). -/
def sfCode (ty : Nat) (v : FVal) : W64 := BitVec.ofNat 64 ((sfFmt ty).encode .nearest true v).1

/-- Minimum and maximum that order -0 below +0 and give NaN for a NaN (R151, R231). -/
def fMinOf (a b : FVal) : FVal :=
  if a.isNan || b.isNan then .nan
  else if FVal.lt a b || (FVal.eqv a b && a.sign) then a else b
def fMaxOf (a b : FVal) : FVal :=
  if a.isNan || b.isNan then .nan
  else if FVal.lt b a || (FVal.eqv a b && !a.sign) then a else b

/-- FADD (R151): A + B. -/
def execFadd (team : Nat) (x : Args) (s : State) : Result :=
  .next (s.issueRegs team ⟨0x038, x⟩ fun k =>
    let a := sfVal x.ty (k.ab x false).1
    let b := sfVal x.ty (k.ab x false).2
    k.putD x (sfCode x.ty (a.add b)))

/-- FSUB (R151): A - B. -/
def execFsub (team : Nat) (x : Args) (s : State) : Result :=
  .next (s.issueRegs team ⟨0x039, x⟩ fun k =>
    let a := sfVal x.ty (k.ab x false).1
    let b := sfVal x.ty (k.ab x false).2
    k.putD x (sfCode x.ty (a.sub b)))

/-- FMUL (R151): A × B. -/
def execFmul (team : Nat) (x : Args) (s : State) : Result :=
  .next (s.issueRegs team ⟨0x03A, x⟩ fun k =>
    let a := sfVal x.ty (k.ab x false).1
    let b := sfVal x.ty (k.ab x false).2
    k.putD x (sfCode x.ty (a.mul b)))

/-- FMA (R151): D := D + A × B with one rounding. -/
def execFma (team : Nat) (x : Args) (s : State) : Result :=
  .next (s.issueRegs team ⟨0x03B, x⟩ fun k =>
    let a := sfVal x.ty (k.ab x false).1
    let b := sfVal x.ty (k.ab x false).2
    k.putD x (sfCode x.ty ((sfVal x.ty (k.value x false x.d)).add (a.mul b))))

/-- FMIN (R151): minimum, -0 below +0, NaN for a NaN. -/
def execFmin (team : Nat) (x : Args) (s : State) : Result :=
  .next (s.issueRegs team ⟨0x03C, x⟩ fun k =>
    let a := sfVal x.ty (k.ab x false).1
    let b := sfVal x.ty (k.ab x false).2
    k.putD x (sfCode x.ty (fMinOf a b)))

/-- FMAX (R151): maximum, -0 below +0, NaN for a NaN. -/
def execFmax (team : Nat) (x : Args) (s : State) : Result :=
  .next (s.issueRegs team ⟨0x03D, x⟩ fun k =>
    let a := sfVal x.ty (k.ab x false).1
    let b := sfVal x.ty (k.ab x false).2
    k.putD x (sfCode x.ty (fMaxOf a b)))

/-- ITOF (R150, R151): signed 64-bit A to float, nearest-even. -/
def execItof (team : Nat) (x : Args) (s : State) : Result :=
  .next (s.issueRegs team ⟨0x03E, x⟩ fun k =>
    k.putD x (sfCode x.ty (FVal.ofInt (k.value x false x.a).toInt)))

/-- FTOI (R150): toward zero, saturating to the signed 64-bit range, NaN gives 0. -/
def execFtoi (team : Nat) (x : Args) (s : State) : Result :=
  .next (s.issueRegs team ⟨0x03F, x⟩ fun k =>
    k.putD x (BitVec.ofNat 64
      ((ITy.mk 64 true).ofFloat FVal.toIntZero (sfVal x.ty (k.value x false x.a))).1))

/-- FCMP.EQ (R150): false if either operand is NaN. -/
def execFcmpEq (team : Nat) (x : Args) (s : State) : Result :=
  .next (s.issueRegs team ⟨0x040, x⟩ fun k =>
    let a := sfVal x.ty (k.ab x false).1
    let b := sfVal x.ty (k.ab x false).2
    k.putPD x (FVal.eqv a b))

/-- FCMP.LT (R150): false if either operand is NaN. -/
def execFcmpLt (team : Nat) (x : Args) (s : State) : Result :=
  .next (s.issueRegs team ⟨0x041, x⟩ fun k =>
    let a := sfVal x.ty (k.ab x false).1
    let b := sfVal x.ty (k.ab x false).2
    k.putPD x (FVal.lt a b))

/-- FCMP.LE (R150): false if either operand is NaN. -/
def execFcmpLe (team : Nat) (x : Args) (s : State) : Result :=
  .next (s.issueRegs team ⟨0x042, x⟩ fun k =>
    let a := sfVal x.ty (k.ab x false).1
    let b := sfVal x.ty (k.ab x false).2
    k.putPD x (FVal.lt a b || FVal.eqv a b))

/-- PAND (R150). -/
def execPand (team : Nat) (x : Args) (s : State) : Result :=
  .next (s.issueRegs team ⟨0x048, x⟩ fun k => k.putPD x (k.pred x.a && k.pred x.b))

/-- POR (R150). -/
def execPor (team : Nat) (x : Args) (s : State) : Result :=
  .next (s.issueRegs team ⟨0x049, x⟩ fun k => k.putPD x (k.pred x.a || k.pred x.b))

/-- PXOR (R150). -/
def execPxor (team : Nat) (x : Args) (s : State) : Result :=
  .next (s.issueRegs team ⟨0x04A, x⟩ fun k => k.putPD x (k.pred x.a != k.pred x.b))

/-- PNOT (R150). -/
def execPnot (team : Nat) (x : Args) (s : State) : Result :=
  .next (s.issueRegs team ⟨0x04B, x⟩ fun k => k.putPD x (!k.pred x.a))

/-- PSET (R150). -/
def execPset (team : Nat) (x : Args) (s : State) : Result :=
  .next (s.issueRegs team ⟨0x04C, x⟩ fun k => k.putPD x (k.value x false x.a != 0))

/-- PGET (R150): 1 or 0. -/
def execPget (team : Nat) (x : Args) (s : State) : Result :=
  .next (s.issueRegs team ⟨0x04D, x⟩ fun k => k.putD x (if k.pred x.a then 1 else 0))

/-- CSET (R150): min(A, 2^32 - 1), with A taken as unsigned. -/
def execCset (team : Nat) (x : Args) (s : State) : Result :=
  .next (s.issueRegs team ⟨0x050, x⟩ fun k =>
    match x.d with
    | .creg n => k.setC n (BitVec.ofNat 32 (min (k.value x false x.a).toNat 0xFFFFFFFF))
    | _ => k)

/-- CGET (R150): zero-extended. -/
def execCget (team : Nat) (x : Args) (s : State) : Result :=
  .next (s.issueRegs team ⟨0x051, x⟩ fun k => k.putD x ((k.count x.a).zeroExtend 64))

end Sys2Proof.Machine
end

