-- ==== Sys2Proof/Machine/Sync.lean ====
section
/-! DEFINITION. The instructions of the sync unit and fences (spec/13 R351 to R365, spec/05 R165). -/

namespace Sys2Proof.Machine

open Sys2Proof

/-- The dies of a partition (R441). -/
def partDies (code : Nat) : List Nat :=
  if code = 0 then [0, 1, 2, 3]
  else if code = 1 then [0, 1]
  else if code = 2 then [2, 3]
  else if 4 ≤ code ∧ code ≤ 7 then [code - 4]
  else []

/-- The operands of a sync instruction in a core: the handle in A, and B as a signed value (R165). -/
def syncA (k : Core) (x : Args) : W64 := k.value x false x.a
def syncB (k : Core) (x : Args) : Int := (k.value x false x.b).toInt

/-- The kernel's context and its identifier. -/
def State.holderOf (s : State) (t : Nat) : W32 × Option Ctx :=
  match (s.team t).kernel with
  | some k => (k.ctx, s.ctx k.ctx)
  | none => (0, none)

/-- An entry on the scoreboard for an answer awaited by the instruction that issues now (R120). -/
def awaitedBy (s : State) (w : LumfyWord) (dest : Operand) (external : Bool) : Awaited :=
  ⟨dest, readsOf w, s.free, external, unitOf w.code, none⟩

/-! ### Signals and initialisations -/

/-- The payload of an operation on an object of another module (notes/assumptions/20.md). -/
def opPayload (op : Nat) (h : W64) (n : Int) : List Byte :=
  leBytes 1 op ++ leBytes 8 h.toNat ++ leBytes 8 (unsignedOf 64 n)

/-- Sends a signal or an initialisation to the module that holds its object; the acknowledgement
completes it (R357). -/
def State.sendSignal (s : State) (t q : Nat) (w : LumfyWord) (c : W32) (pc : W16) (op : Nat) (h : W64)
    (n : Int) : State :=
  let tag := s.free
  (s.await t q (awaitedBy s w .none false)).sendOp c t q pc 1 (opPayload op h n) (.signal tag (hIndex h) (op == 2)) fun s =>
    (s.deliver t q tag 0).notActed t q w

/-- One core's SIGNAL.ADD or SIGNAL.SUB (R354, R355). `sub` says which. -/
def State.signalCore (s : State) (t q : Nat) (w : LumfyWord) (sub : Bool) : State :=
  let h := syncA (s.core t q) w.args
  let b := syncB (s.core t q) w.args
  let n := if sub then -b else b
  match s.holderOf t with
  | (c, some x) =>
    match s.resolve c x h false with
    | .here u i =>
      let r := s.signal u i n
      match r.2 with
      | some f => r.1.launchFault t q f
      | none => r.1.complete t q w 0
    | .away pc _ => s.sendSignal t q w c pc (natOf sub) h b
    | .bad => s.zeroD t q w
  | (_, none) => s

/-- SIGNAL.ADD (R355). -/
def execSignalAdd (team : Nat) (x : Args) (s : State) : Result :=
  .next (s.issue team ⟨0x3C0, x⟩ fun s' q => s'.signalCore team q ⟨0x3C0, x⟩ false)

/-- SIGNAL.SUB (R355). -/
def execSignalSub (team : Nat) (x : Args) (s : State) : Result :=
  .next (s.issue team ⟨0x3C1, x⟩ fun s' q => s'.signalCore team q ⟨0x3C1, x⟩ true)

/-- Claims a free hub object for a context where its partition covers the object's quarter (R353). -/
def State.claimHub (s : State) (c : W32) (x : Ctx) (h : W64) : State :=
  if handleOk h && hHub h && hPostcode h == 0xFFFF && (mapGet s.hub (hIndex h)).isNone &&
      (partDies x.partition).contains (hIndex h / 16384) then
    { s with hub := mapPut s.hub (hIndex h) ({ owner := c, barrier := hBarrier h } : HubObj) }
  else s

/-- Whether a value lies in the range of SYNC.INIT for a kind of object (R356). -/
def initInRange (barrier : Bool) (v : Int) : Bool :=
  if barrier then decide (1 ≤ v) && decide (v ≤ 65535) else decide (0 ≤ v) && decide (v ≤ 2147483647)

/-! ### Watches and claims -/

/-- The operation code of a watch in a frame, and its least n (R358). -/
def WatchKind.op : WatchKind → Nat
  | .ge => 3 | .eq => 4 | .claim => 5
def WatchKind.least : WatchKind → Int
  | .claim => 1
  | _ => 0


/-- One core's WATCH (R358). -/
def State.watchCore (s : State) (t q : Nat) (w : LumfyWord) (kind : WatchKind) : State :=
  let h := syncA (s.core t q) w.args
  let n := syncB (s.core t q) w.args
  let tag := s.free
  match s.holderOf t with
  | (c, some x) =>
    if n < kind.least ∨ 2147483647 < n then s.zeroD t q w
    else
      let s1 := s.await t q (awaitedBy s w w.args.d true)
      match s.resolve c x h false with
      | .here u i => s1.register u ⟨i, kind, n.toNat, c, .core t q tag⟩
      | .away pc _ =>
        s1.sendOp c t q pc 1 (opPayload kind.op h n) (.watch tag (hIndex h)) fun s =>
          (s.deliver t q tag 0).notActed t q w
      | .bad => s.zeroD t q w
  | (_, none) => s

/-- WATCH.GE (R358). -/
def execWatchGe (team : Nat) (x : Args) (s : State) : Result :=
  .next (s.issue team ⟨0x3C8, x⟩ fun s' q => s'.watchCore team q ⟨0x3C8, x⟩ .ge)

/-- WATCH.EQ (R358). -/
def execWatchEq (team : Nat) (x : Args) (s : State) : Result :=
  .next (s.issue team ⟨0x3C9, x⟩ fun s' q => s'.watchCore team q ⟨0x3C9, x⟩ .eq)

/-- WATCH.CLAIM (R358). -/
def execWatchClaim (team : Nat) (x : Args) (s : State) : Result :=
  .next (s.issue team ⟨0x3CA, x⟩ fun s' q => s'.watchCore team q ⟨0x3CA, x⟩ .claim)

/-! ### Fences (R364, R365) -/

/-- The scope of a fence. -/
inductive Scope where
  | local_ | module | fabric
  deriving DecidableEq, Repr

/-- What a fence of core (t, q) makes of the unfenced writes: its own writes become visible in its
scope, and a FENCE.LOCAL orders the core's later reads after the writes already visible in the
module (R365). -/
def Unfenced.fence (e : Unfenced) (t q : Nat) (scope : Scope) : Unfenced :=
  let own := e.team == t && e.core == q
  match scope with
  | .local_ =>
    { e with localDone := e.localDone || own
             seenBy := if e.moduleDone && !own then (t, q) :: e.seenBy else e.seenBy }
  | _ => { e with localDone := e.localDone || own, moduleDone := e.moduleDone || own }

/-- Whether a fence of a core can complete: its earlier instructions have completed, the courier's
FABRIC writes among them (R364). -/
def State.fenceReady (s : State) (t q : Nat) : Bool :=
  let k := s.core t q
  k.awaited.isEmpty && k.tileQueue.isEmpty

/-- Issues a fence, which waits where it cannot complete yet. It acts in the cores whose loop mask is true, and waits for
those: the model's choice (R165, notes/assumptions/64.md). -/
def State.issueFence (s : State) (t : Nat) (w : LumfyWord) (scope : Scope) : State :=
  if ((s.team t).masked w.args.pred).all fun q => s.fenceReady t q then
    s.issue t w fun s' q => { s' with unfenced := s'.unfenced.map fun e => e.fence t q scope }
  else s

/-- FENCE.LOCAL (R364). -/
def execFenceLocal (team : Nat) (x : Args) (s : State) : Result :=
  .next (s.issueFence team ⟨0x3D0, x⟩ .local_)

/-- FENCE.MODULE (R364). -/
def execFenceModule (team : Nat) (x : Args) (s : State) : Result :=
  .next (s.issueFence team ⟨0x3D1, x⟩ .module)

/-- FENCE.FABRIC (R364). -/
def execFenceFabric (team : Nat) (x : Args) (s : State) : Result :=
  .next (s.issueFence team ⟨0x3D2, x⟩ .fabric)

/-! ### COMMIT.ARRIVE (R361) -/

/-- Whether a mirror write of a context is on its way and unacknowledged (R303, R304). -/
def State.mirroring (s : State) (c : W32) : Bool :=
  s.fabric.remote.any fun r =>
    r.ctx == c && match r.work with
      | .mirror _ _ _ => true
      | _ => false

/-- Whether a postcode's role is LOST (R423). -/
def State.lost (s : State) (pc : W16) : Bool :=
  match s.route pc with
  | some r => r.lost
  | none => false

/-- The handle of a barrier at a postcode. -/
def barrierHandle (pc : W16) (index : Nat) : W64 :=
  BitVec.ofNat 64 (index + 3 * 2 ^ 24 + pc.toNat * 2 ^ 32)

/-- The arrival record in CORE (R339, R361): none where its address or its bytes break the rule. -/
def State.arrivalRecord (s : State) (t q : Nat) (at_ : Nat) : Option (List Byte) :=
  let r := memRead (s.view ⟨t, some q, .sy, none⟩ (.core t q)) at_ 32
  if at_ % 32 = 0 ∧ at_ + 31 < s.coreBytes t ∧ (bytesAt r 0x14 12).all (· == 0) then some r else none

/-- An arrival of a core from its record (R339). -/
def arrivalOf (pc epoch : W16) (t q : Nat) (whom : ReplyTo) (c : W32) (r : List Byte) : Arrival :=
  ⟨pc, epoch, t, q, whom, c, BitVec.ofNat 64 (fieldAt r 0 8), BitVec.ofNat 32 (fieldAt r 8 4),
   BitVec.ofNat 32 (fieldAt r 0xC 4), BitVec.ofNat 32 (fieldAt r 0x10 4)⟩

/-- The payload of an arrival's frame (notes/assumptions/20.md). -/
def arrivalPayload (h : W64) (a : Arrival) : List Byte :=
  leBytes 8 h.toNat ++ leBytes 1 a.team ++ leBytes 1 a.core ++ leBytes 8 a.step.toNat ++
  leBytes 4 a.norm2.toNat ++ leBytes 4 a.count.toNat ++ leBytes 4 a.check.toNat

/-- Sends an arrival to its home: to the hub of this module, or by a frame of KIND 10. `onFail`
resolves one that was parked (R354). -/
def State.sendArrival (s : State) (c : W32) (dest : W16) (tag index : Nat) (a : Arrival) : State :=
  if dest = 0xFFFF || (s.role dest).isSome then s.modFabric fun f => { f with arriving := f.arriving ++ [(index, a)] }
  else
    s.sendOp c a.team a.core dest 10 (arrivalPayload (barrierHandle dest index) a)
      (.arrive tag index a false) fun s => (s.deliver a.team a.core tag 0).addEventsFor c a.team evAddr

end Sys2Proof.Machine
end

