-- ==== Sys2Proof/Machine/Tiles.lean ====
section
/-! DEFINITION. Reading and writing tiles (spec/04 R116 to R118, spec/06 R174 to R176, R180). -/

namespace Sys2Proof.Machine

open Sys2Proof

/-- The content of a tile: its lines as numbers of their bytes, and its scale bytes. -/
structure TileData where
  desc : TileDesc
  lines : List Nat
  scales : List (List Nat)
  deriving DecidableEq, Repr

/-- The line of element (i, j) and its place in the line (R175). -/
def TileDesc.lineOf (d : TileDesc) (i j : Nat) : Nat := if d.colMajor then j else i
def TileDesc.idxOf (d : TileDesc) (i j : Nat) : Nat := if d.colMajor then i else j

/-- Row and column of place `idx` of line `l`. -/
def TileDesc.rowCol (d : TileDesc) (l idx : Nat) : Nat × Nat :=
  if d.colMajor then (idx, l) else (l, idx)

/-- The address of the first byte of a line. -/
def TileDesc.lineAddr (d : TileDesc) (l : Nat) : Nat := d.base.toNat + l * d.stride.toNat

/-- Reads a tile through a byte reader. -/
def loadTile (rd : Nat → Byte) (d : TileDesc) : TileData :=
  ⟨d,
   (List.range d.lines).map fun l =>
     leNat ((List.range d.lineBytes).map fun k => rd (d.lineAddr l + k)),
   if isBlockTy d.tyN then
     (List.range d.lines).map fun l =>
       (List.range d.lineBlocks).map fun b => (rd (d.scaleBase.toNat + 4 * l + b)).toNat
   else []⟩

/-- The element code at (i, j). -/
def TileData.code (t : TileData) (i j : Nat) : Nat :=
  let w := elemBits t.desc.tyN
  bits (t.lines.getD (t.desc.lineOf i j) 0) (w * t.desc.idxOf i j) w

/-- The scale byte of element (i, j). -/
def TileData.scale (t : TileData) (i j : Nat) : Nat :=
  (t.scales.getD (t.desc.lineOf i j) []).getD (t.desc.idxOf i j / 32) 127

/-- The value of element (i, j), block scale applied (R173, R174). -/
def TileData.value (t : TileData) (i j : Nat) : FVal :=
  valueOf t.desc.tyN (t.code i j) (t.scale i j)

/-- The integer of element (i, j) of an integer type (R177). -/
def TileData.int (t : TileData) (i j : Nat) : Int :=
  match itypeOf t.desc.tyN with
  | some y => y.decode (t.code i j)
  | none => (t.code i j : Int)

/-- The bytes that writing a tile changes: the elements of each line, bits of the last byte
beyond them kept (notes/assumptions/16.md), and for block types the scales. -/
def tileCells (rd : Nat → Byte) (d : TileDesc) (code : Nat → Nat → Nat) (scale : Nat → Nat → Nat) :
    List (Nat × Byte) :=
  let w := elemBits d.tyN
  ((List.range d.lines).flatMap fun l =>
    let old := leNat ((List.range d.lineBytes).map fun k => rd (d.lineAddr l + k))
    let keep := old / 2 ^ (w * d.lineLen) * 2 ^ (w * d.lineLen)
    let v := (List.range d.lineLen).foldl (fun v k =>
      let rc := d.rowCol l k
      v + code rc.1 rc.2 % 2 ^ w * 2 ^ (w * k)) keep
    let bs := leBytes d.lineBytes v
    (List.range d.lineBytes).map fun k => (d.lineAddr l + k, bs.getD k 0)) ++
  (if isBlockTy d.tyN then
    (List.range d.lines).flatMap fun l =>
      (List.range d.lineBlocks).map fun b =>
        (d.scaleBase.toNat + 4 * l + b, BitVec.ofNat 8 (scale l b))
   else [])

/-- Whether a byte of the tile lies outside the usable part of its space (R116); a line is
contiguous, so its first and last bytes decide. -/
def tileOutside (ok : Nat → Bool) (d : TileDesc) : Bool :=
  (List.range d.lines).any fun l =>
    !ok (d.lineAddr l) || !ok (d.lineAddr l + d.lineBytes - 1) ||
    (isBlockTy d.tyN &&
      (!ok (d.scaleBase.toNat + 4 * l) || !ok (d.scaleBase.toNat + 4 * l + d.lineBlocks - 1)))

/-- A byte as an access that R116 resolves reads it: zero outside. -/
def guarded (ok : Nat → Bool) (m : Memory) (a : Nat) : Byte := if ok a then memGet m a else 0

/-- The register number of a tile operand. -/
def tregOf : Operand → Option Nat
  | .treg n => some n
  | _ => none

/-- A tile of CORE as an engine of the core reads it through a tile register. -/
def State.readTile (s : State) (t q : Nat) (unit : EngineUnit) (reg : Option Nat) (d : TileDesc) :
    TileData :=
  let m := s.view ⟨t, some q, unit, reg⟩ (.core t q)
  loadTile (guarded (s.usable t 0) m) d

/-- The CORE bytes that writing D changes, those outside CORE_BYTES dropped (R116). -/
def State.coreCells (s : State) (t q : Nat) (d : TileDesc) (code : Nat → Nat → Nat)
    (scale : Nat → Nat → Nat) : List (Nat × Byte) :=
  (tileCells (memGet (s.core t q).mem) d code scale).filter fun c => s.usable t 0 c.1

/-- Whether a CORE tile reaches outside the kernel's CORE memory. -/
def State.coreOutside (s : State) (t : Nat) (d : TileDesc) : Bool := tileOutside (s.usable t 0) d

/-- The scales of a tile whose blocks all have the scale 1 (R153, R210). -/
def unitScale (_ _ : Nat) : Nat := 127

/-- Issue to a unit that reads tiles: it waits while a core's tile queue still drains a tile
register that the instruction reads, except in the vector engine (R207). -/
def drained (k : Core) (unit : EngineUnit) (regs : List Operand) : Bool :=
  unit == .ve || regs.all fun o =>
    match o with
    | .treg n => !k.tileQueue.contains n
    | _ => true

/-- Issue of a tile-reading instruction: as `State.issue`, with the waits of R207 and R208. -/
def State.issueTiles (s : State) (t : Nat) (w : LumfyWord) (regs : List Operand)
    (f : State → Nat → State) : State :=
  if ((s.team t).masked w.args.pred).all fun q =>
      drained (s.core t q) (unitOf w.code) regs &&
      (unitOf w.code != .me || decide ((s.core t q).tileQueue.length < 8)) then
    s.issue t w f
  else s

end Sys2Proof.Machine
end

