-- ==== Sys2Proof/Machine/TileMove.lean ====
section
/-! DEFINITION. Tile descriptors at run time and the tile mover (spec/05 R152, R153; spec/04 R118). -/

namespace Sys2Proof.Machine

open Sys2Proof

/-- Issues a descriptor change: `f` gives the new descriptor, none where the instruction would
read or write a null descriptor (R118). -/
def State.issueDesc (s : State) (t : Nat) (w : LumfyWord) (f : Core → Option (TileDesc × Bool)) : State :=
  s.issue t w fun s' q =>
    let k := s'.core t q
    match f k, w.args.d with
    | some r, .treg n => (s'.modCore t q fun k => k.setT n r.1).finish t q w (Events.withAddr { } r.2)
    | _, _ => s'.finish t q w evNull

/-- A descriptor that any instruction treats as null (R118): null, or of a block type whose extent is illegal. -/
def TileDesc.nullForAny (d : TileDesc) : Bool := d.isNull || d.badBlock

/-- The descriptor in D, changed by `f` and fixed under R118; none where it is treated as null. -/
def changeDesc (d : TileDesc) (f : TileDesc → TileDesc) : Option (TileDesc × Bool) :=
  if d.nullForAny then none else some (f d).fix

/-- DESC (R153): loads descriptor IMM[10:0] of the bank, also a null one, which counts no event here: the model's choice
(R118, notes/assumptions/64.md). -/
def execDesc (team : Nat) (x : Args) (s : State) : Result :=
  .next (s.issueDesc team ⟨0x080, x⟩ fun _ =>
    match (s.team team).image with
    | some i =>
      let d := i.descs.getD (x.imm.toNat % 2048) TileDesc.null
      if d.isNull then some (TileDesc.null, false) else some d.fix
    | none => some (TileDesc.null, false))

/-- TSETBASE (R153): BASE := A. -/
def execTsetbase (team : Nat) (x : Args) (s : State) : Result :=
  .next (s.issueDesc team ⟨0x081, x⟩ fun k =>
    changeDesc (k.tile x.d) fun d => { d with base := k.value x false x.a })

/-- TADDBASE (R153): BASE := BASE + A mod 2^64. -/
def execTaddbase (team : Nat) (x : Args) (s : State) : Result :=
  .next (s.issueDesc team ⟨0x082, x⟩ fun k =>
    changeDesc (k.tile x.d) fun d => { d with base := d.base + k.value x false x.a })

/-- TSETDIM (R153): rows A and columns B; outside 1 to 128 the register holds the null descriptor (R118). -/
def execTsetdim (team : Nat) (x : Args) (s : State) : Result :=
  .next (s.issueDesc team ⟨0x083, x⟩ fun k =>
    let r := (k.value x false x.a).toNat
    let c := (k.value x false x.b).toNat
    let d := k.tile x.d
    if d.nullForAny then none
    else if 1 ≤ r ∧ r ≤ 128 ∧ 1 ≤ c ∧ c ≤ 128 then
      changeDesc d fun d =>
        { d with rowsM1 := BitVec.ofNat 8 (r - 1), colsM1 := BitVec.ofNat 8 (c - 1) }
    else some (TileDesc.null, false))

/-- TSETSTRIDE (R153): STRIDE := A mod 2^32. -/
def execTsetstride (team : Nat) (x : Args) (s : State) : Result :=
  .next (s.issueDesc team ⟨0x084, x⟩ fun k =>
    changeDesc (k.tile x.d) fun d => { d with stride := (k.value x false x.a).setWidth 32 })

/-- TSETTYPE (R153): TYPE := the TYPE field. -/
def execTsettype (team : Nat) (x : Args) (s : State) : Result :=
  .next (s.issueDesc team ⟨0x085, x⟩ fun k =>
    changeDesc (k.tile x.d) fun d => { d with ty := BitVec.ofNat 8 x.ty })

/-- TGETBASE (R152): reads BASE into a scalar; a null descriptor writes nothing (R118). -/
def execTgetbase (team : Nat) (x : Args) (s : State) : Result :=
  .next (s.issue team ⟨0x086, x⟩ fun s' q =>
    let d := (s'.core team q).tile x.a
    if d.nullForAny then s'.finish team q ⟨0x086, x⟩ evNull
    else s'.modCore team q fun k => k.putD x d.base)

/-- TFLIP (R153): the transpose of A's tile in the same bytes. -/
def execTflip (team : Nat) (x : Args) (s : State) : Result :=
  .next (s.issueDesc team ⟨0x087, x⟩ fun k =>
    changeDesc (k.tile x.a) fun d =>
      { d with rowsM1 := d.colsM1, colsM1 := d.rowsM1, layout := d.layout ^^^ 1 })

/-- Whether TCOPY treats its tiles as null (R153): one of them null, neither in CORE, TYPE or
extents differing, or a block type with an illegal extent or a different LAYOUT. -/
def tcopyNull (d a : TileDesc) : Bool :=
  d.nullForAny || a.nullForAny || (d.space != 0 && a.space != 0) || d.ty != a.ty ||
  d.rowsM1 != a.rowsM1 || d.colsM1 != a.colsM1 || (isBlockTy d.tyN && d.layout != a.layout)

/-- Whether TFILL treats D as null: under R118, or because its TYPE is not the one that the instruction describes
(R142, R152). -/
def tfillNull (d : TileDesc) (ty : Nat) : Bool := d.nullForAny || d.tyN != ty

/-- The TCOPY of one core between spaces of the module (R153). -/
def tcopyLocal (s : State) (t q : Nat) (w : LumfyWord) (d a : TileDesc) : State :=
  let src := s.view ⟨t, some q, .tm, tregOf w.args.a⟩ (placeOf t q a.space.toNat)
  let td := loadTile (guarded (s.usable t a.space.toNat) src) a
  let dst := s.memAt (placeOf t q d.space.toNat)
  let cells := (tileCells (memGet dst) d td.code
    (fun l b => (td.scales.getD l []).getD b 127)).filter fun c => s.usable t d.space.toNat c.1
  let bad := tileOutside (s.usable t a.space.toNat) a || tileOutside (s.usable t d.space.toNat) d
  (s.store ⟨t, some q, .tm, tregOf w.args.d⟩ (placeOf t q d.space.toNat) cells).finish t q w
    (Events.withAddr { } bad)

/-- TFILL in a space of the module: the low bits of A in every element, scales 127 (R153). -/
def tfillLocal (s : State) (t q : Nat) (w : LumfyWord) (d : TileDesc) (v : Nat) : State :=
  let dst := s.memAt (placeOf t q d.space.toNat)
  let cells := (tileCells (memGet dst) d (fun _ _ => v) unitScale).filter fun c =>
    s.usable t d.space.toNat c.1
  (s.store ⟨t, some q, .tm, tregOf w.args.d⟩ (placeOf t q d.space.toNat) cells).finish t q w
    (Events.withAddr { } (tileOutside (s.usable t d.space.toNat) d))

end Sys2Proof.Machine
end

