-- ==== Sys2Proof/Machine/Courier.lean ====
section
/-! DEFINITION. TCOPY and TFILL, with the courier's FABRIC accesses (spec/05 R153, R154, spec/04 R115,
R116, spec/14 R386). -/

namespace Sys2Proof.Machine

open Sys2Proof

/-- A range of FABRIC addresses, cut where the postcode part changes. -/
def splitRange (a n : Nat) : List (Nat × Nat) :=
  if n = 0 then []
  else if a / 2 ^ 40 = (a + n - 1) / 2 ^ 40 then [(a, n)]
  else
    let k := 2 ^ 40 - a % 2 ^ 40
    [(a, k), (a + k, n - k)]

/-- The pieces of a FABRIC tile: its lines, and the scales of each line. -/
def fabricPieces (d : TileDesc) : List (Nat × Nat) :=
  ((List.range d.lines).flatMap fun l => splitRange (d.lineAddr l) d.lineBytes) ++
  (if isBlockTy d.tyN then
    (List.range d.lines).flatMap fun l => splitRange (d.scaleBase.toNat + 4 * l) d.lineBlocks
   else [])

/-- Where a FABRIC address leads (R115, R116): nowhere, to the context of a role of this module, or
to another module. -/
inductive FabricSide where
  | nowhere
  | own (x : Ctx)
  | away (postcode : W16)
  deriving DecidableEq, Repr

/-- The side that a FABRIC address of a team's kernel names. -/
def State.fabricSide (s : State) (t a : Nat) : FabricSide :=
  let pc : W16 := BitVec.ofNat 16 (a / 2 ^ 48)
  match s.kernelCtx t with
  | some x =>
    if x.span ≠ 1 ∨ 2 ^ 64 ≤ a ∨ bits a 40 8 ≠ 0 then .nowhere
    else
      match s.role pc with
      | some r =>
        (match s.ctx r.ctx with
         | some y => .own y
         | none => .nowhere)
      | none => .away pc
  | none => .nowhere

/-- Whether an offset from a context's REGION_BASE is usable (R113, R116). -/
def State.offsetUsable (s : State) (x : Ctx) (off : Nat) : Bool :=
  decide (off < x.regionSize.toNat) && !s.reserved (x.regionBase.toNat + off)

/-- What a region holds at offsets: zeros where they are not usable (R116). -/
def State.regionRead (s : State) (x : Ctx) (m : Memory) (off n : Nat) : List Byte :=
  (List.range n).map fun i =>
    if s.offsetUsable x (off + i) then memGet m (x.regionBase.toNat + off + i) else 0

/-- Whether a range of offsets holds one that is not usable. -/
def State.regionDrops (s : State) (x : Ctx) (off n : Nat) : Bool :=
  (List.range n).any fun i => !s.offsetUsable x (off + i)

/-- The cells that a write at an offset of a region changes. -/
def State.regionCells (s : State) (x : Ctx) (off : Nat) (data : List Byte) : List (Nat × Byte) :=
  ((List.range data.length).filter fun i => s.offsetUsable x (off + i)).map fun i =>
    (x.regionBase.toNat + off + i, data.getD i 0)

/-- A write from outside the cores: it lies among the unfenced writes as R121 says, and is itself
visible in the module at once. -/
def State.busWrite (s : State) (cells : List (Nat × Byte)) : State :=
  { s.store ⟨24, none, .tm, none⟩ .stack cells with unfenced := s.unfenced }

/-- What reads from outside the cores see of STACK. -/
def State.busView (s : State) : Memory := s.view ⟨24, none, .tm, none⟩ .stack

/-- A TCOPY or TFILL of one core that needs no FABRIC: on null tiles it writes nothing (R118, R153). -/
def tmHere (s : State) (t q : Nat) (w : LumfyWord) (d a : TileDesc) (v : Nat) : State :=
  if w.code = 0x088 then
    if tcopyNull d a then s.finish t q w evNull else tcopyLocal s t q w d a
  else if tfillNull d w.args.ty then s.finish t q w evNull
  else tfillLocal s t q w d v

/-- The effect of a transfer as it completes: a read writes its CORE tile from the bytes that came. -/
def State.endTransfer (s : State) (r : Transfer) : State :=
  match r.kind with
  | .here => tmHere s r.team r.core r.word r.dst r.src r.value
  | .write => s.finish r.team r.core r.word (Events.withAddr { } r.dropped)
  | .read =>
    let td := loadTile (memGet r.data) r.src
    let cells := (tileCells (memGet (s.core r.team r.core).mem) r.dst td.code
      (fun l b => (td.scales.getD l []).getD b 127)).filter fun c => s.usable r.team 0 c.1
    (s.store ⟨r.team, some r.core, .tm, tregOf r.word.args.d⟩ (.core r.team r.core) cells).finish r.team r.core r.word
      (Events.withAddr { } (r.dropped || tileOutside (s.usable r.team 0) r.dst))

/-- Completes the instructions of a core's tile mover that are answered, in issue order, up to the first that is not
(R119). -/
def State.runTransfers : Nat → Nat → Nat → State → State
  | 0, _, _, s => s
  | n + 1, t, q, s =>
    let mine (r : Transfer) : Bool := r.team == t && r.core == q
    match s.fabric.reads.find? mine with
    | none => s
    | some r =>
      if r.left = 0 then
        State.runTransfers n t q
          (((s.modFabric fun f => { f with reads := eraseFirst mine f.reads }).endTransfer r).deliver t q r.tag 0)
      else s

/-- Completes what a core's tile mover can complete now. -/
def State.moveOn (s : State) (t q : Nat) : State := State.runTransfers s.fabric.reads.length t q s

/-- One answer to a transfer: bytes of a read, and whether something was dropped. -/
def State.answerTransfer (s : State) (t q tag : Nat) (at_ : Nat) (data : List Byte) (dropped : Bool) : State :=
  let mine (r : Transfer) : Bool := r.team == t && r.core == q && r.tag == tag
  let put (r : Transfer) : Transfer :=
    { r with left := r.left - 1, data := memWrite r.data at_ data, dropped := r.dropped || dropped }
  (s.modFabric fun f => { f with reads := modWhere mine put f.reads }).moveOn t q

/-- The payload of a FABRIC write (notes/assumptions/20.md): 0 for a transfer of the courier, 1 for
a part and 2 for the last part of a HALO transfer, with the collective's number. -/
def writePayload (what number off : Nat) (data : List Byte) : List Byte :=
  leBytes 1 what ++ leBytes 4 number ++ leBytes 8 off ++ data

/-- The payload of a FABRIC read request. -/
def readPayload (off n : Nat) : List Byte := leBytes 8 off ++ leBytes 2 n

/-- Sends one piece of a transfer to another module; a frame that is parked counts as returned (R386). -/
def State.sendPiece (s : State) (t q tag : Nat) (pc : W16) (a n : Nat) (data : Option (List Byte)) : State :=
  let c : W32 := match (s.team t).kernel with | some k => k.ctx | none => 0
  let lost (s : State) : State := s.answerTransfer t q tag a [] true
  match data with
  | some l => s.sendOp c t q pc 3 (writePayload 0 0 (a % 2 ^ 40) l) (.write tag) lost
  | none => s.sendOp c t q pc 4 (readPayload (a % 2 ^ 40) n) (.read tag a) lost

/-- Whether one piece is dropped on this module, and the bytes that it reads here. -/
def State.pieceHere (s : State) (m : Memory) (t : Nat) (p : Nat × Nat) : Bool × List Byte :=
  match s.fabricSide t p.1 with
  | .nowhere => (true, [])
  | .own x => (s.regionDrops x (p.1 % 2 ^ 40) p.2, s.regionRead x m (p.1 % 2 ^ 40) p.2)
  | .away _ => (false, [])

/-- The pieces that another module serves. -/
def State.piecesAway (s : State) (t : Nat) (l : List (Nat × Nat)) : List (W16 × Nat × Nat) :=
  l.filterMap fun p =>
    match s.fabricSide t p.1 with
    | .away pc => some (pc, p)
    | _ => none

/-- Starts a transfer: what this module answers is in it, and the rest is sent. `bytes` gives the
data of a write. -/
def State.startTransfer (s : State) (w : LumfyWord) (r : Transfer) (pieces : List (Nat × Nat))
    (bytes : Nat → Nat → Option (List Byte)) : State :=
  let away := s.piecesAway r.team pieces
  let s1 := s.await r.team r.core (awaitedBy s w w.args.d false)
  let s2 := s1.modFabric fun f => { f with reads := f.reads ++ [{ r with left := away.length }] }
  (away.foldl (fun s p => s.sendPiece r.team r.core r.tag p.1 p.2.1 p.2.2 (bytes p.2.1 p.2.2)) s2).moveOn r.team r.core

/-- TCOPY from FABRIC in one core. -/
def tcopyFrom (s : State) (t q : Nat) (w : LumfyWord) (d a : TileDesc) : State :=
  let m := s.view ⟨t, some q, .tm, tregOf w.args.a⟩ .stack
  let pieces := fabricPieces a
  let here := pieces.map fun p => (p.1, s.pieceHere m t p)
  let data : Memory := here.foldl (fun m x => memWrite m x.1 x.2.2) []
  s.startTransfer w ⟨s.free, .read, t, q, w, d, a, 0, 0, data, here.any fun x => x.2.1⟩ pieces fun _ _ => none

/-- A write of a FABRIC tile in one core: the bytes of its lines and scales lie in `img` by FABRIC
address; `dropped` says whether reading the source dropped something. Bits beyond the last element of a line are sent as zero (notes/assumptions/16.md). -/
def fabricStore (s : State) (t q : Nat) (w : LumfyWord) (d : TileDesc) (img : Memory)
    (dropped : Bool) : State :=
  let pieces := fabricPieces d
  let m := s.stack
  let s1 := pieces.foldl (fun s p =>
    match s.fabricSide t p.1 with
    | .own x =>
      (s.markExternal t).store ⟨t, some q, .tm, tregOf w.args.d⟩ .stack
        (s.regionCells x (p.1 % 2 ^ 40) (memRead img p.1 p.2))
    | _ => s) s
  let bad := dropped || pieces.any fun p => (s.pieceHere m t p).1
  s1.startTransfer w ⟨s.free, .write, t, q, w, d, d, 0, 0, [], bad⟩ pieces fun a n => some (memRead img a n)

/-- The image of a tile by address. -/
def tileImage (d : TileDesc) (code : Nat → Nat → Nat) (scale : Nat → Nat → Nat) : Memory :=
  (tileCells (fun _ => 0) d code scale).foldl (fun m c => memSet m c.1 c.2) []

/-- TCOPY to FABRIC in one core. -/
def tcopyTo (s : State) (t q : Nat) (w : LumfyWord) (d a : TileDesc) : State :=
  let src := s.view ⟨t, some q, .tm, tregOf w.args.a⟩ (.core t q)
  let td := loadTile (guarded (s.usable t 0) src) a
  let img := tileImage d td.code fun l b => (td.scales.getD l []).getD b 127
  fabricStore s t q w d img (tileOutside (s.usable t 0) a)

/-- A TCOPY or TFILL that needs no FABRIC: it completes at once, or behind the earlier ones of the core (R119). -/
def tmLocal (s : State) (t q : Nat) (w : LumfyWord) (d a : TileDesc) (v : Nat) : State :=
  if s.fabric.reads.any fun r => r.team == t && r.core == q then
    (s.await t q (awaitedBy s w w.args.d false)).modFabric fun f =>
      { f with reads := f.reads ++ [⟨s.free, .here, t, q, w, d, a, v, 0, [], false⟩] }
  else tmHere s t q w d a v

/-- TCOPY (R153). -/
def execTcopy (team : Nat) (x : Args) (s : State) : Result :=
  .next (s.issueTiles team ⟨0x088, x⟩ [x.a] fun s' q =>
    let w : LumfyWord := ⟨0x088, x⟩
    let d := (s'.core team q).tile x.d
    let a := (s'.core team q).tile x.a
    if tcopyNull d a then tmLocal s' team q w d a 0
    else if a.space = 3 then tcopyFrom s' team q w d a
    else if d.space = 3 then tcopyTo s' team q w d a
    else tmLocal s' team q w d a 0)

/-- TFILL (R153): the low bits of A, in D's TYPE, to every element. -/
def execTfill (team : Nat) (x : Args) (s : State) : Result :=
  .next (s.issueTiles team ⟨0x089, x⟩ [] fun s' q =>
    let w : LumfyWord := ⟨0x089, x⟩
    let d := (s'.core team q).tile x.d
    let v := ((s'.core team q).value x false x.a).toNat
    if !tfillNull d x.ty && d.space == 3 then fabricStore s' team q w d (tileImage d (fun _ _ => v) unitScale) false
    else tmLocal s' team q w d d v)

end Sys2Proof.Machine
end

