-- ==== Sys2Proof/Machine/Order.lean ====
section
/-! DEFINITION. The order of the events that fall on one postmark (spec/02 R63, R64). -/

namespace Sys2Proof.Machine

open Sys2Proof

/-- The length of a franking period in ns (R455). -/
def frankNs : Nat := 3600000000000

/-- Whether another mailbag occupies a port now (R392). -/
def State.portBusy (s : State) (p : Nat) : Bool := decide (s.postmark.toNat < mapGetD s.fabric.busy 0 p)

/-- Whether a slot begins now in the active schedule (R60, R390). -/
def Schedule.slotNow (c : Schedule) (p : W64) (slot : Nat) : Bool :=
  decide (c.start.toNat ≤ p.toNat) && c.roundNs != 0 &&
  (p.toNat - c.start.toNat) % c.roundNs == 64 * slot

/-- Whether a franking boundary falls on this postmark and has not been acted on (R63, R455). -/
def State.frankDue (s : State) : Bool :=
  s.time.everLocked && s.postmark.toNat % frankNs == 0 && (s.fn 0).frank.start != s.postmark.toNat &&
  s.power.boot != .noSupply

/-- The postmark at which a snapshot may start (R63, R418): at or after AT, at a round boundary where a schedule is
active. -/
def State.snapTime (s : State) (at_ : W64) : Bool :=
  decide (at_.toNat ≤ s.postmark.toNat) &&
  match s.time.active with
  | some c => decide (c.start.toNat ≤ s.postmark.toNat) && (s.postmark.toNat - c.start.toNat) % c.roundNs == 0
  | none => true

/-- Whether the start of a context's snapshot falls on this postmark and has not been acted on. -/
def State.snapDue (s : State) (x : Ctx) : Bool :=
  match x.snapping with
  | some p => p.startedAt.isNone && x.running && s.snapTime p.at_ && (s.time.active.isSome || p.at_ == s.postmark)
  | none => false

/-- Whether the pre-emption point of a single-module context falls on this postmark and has not been acted on; that of
a fabric context is no postmark but its next quiescent boundary (R368). -/
def State.pointDue (s : State) (x : Ctx) : Bool :=
  match x.preempting with
  | some p => p.stoppedAt.isNone && x.running && x.span != 1 && p.at_ == s.postmark
  | none => false

/-- Whether a barrier release falls on this postmark and has not been acted on. -/
def State.releaseDue (s : State) : Bool :=
  (s.hub.any fun o => o.2.placed.any fun p => p.at_ == s.postmark) ||
  s.fabric.releases.any fun x => x.at_ == s.postmark

/-- Whether a scheduled slot with something to send begins on this postmark and has not been acted on (R390). -/
def State.slotDue (s : State) : Bool :=
  match s.time.active with
  | some a =>
    decide (s.fabric.retained.length < 2048) && a.entries.any fun e =>
      e.send && a.slotNow s.postmark e.slot && !s.portBusy e.outPort &&
      !(mapGetD s.fabric.chans { } e.channel.toNat).queue.isEmpty
  | none => false

/-- Whether an event of class `n` of R64 may take effect now: none of an earlier class is due on this postmark. -/
def State.inTurn (s : State) (n : Nat) : Bool :=
  (decide (n < 2) || !s.frankDue) && (decide (n < 3) || !(mapVals s.ctxs).any s.snapDue) &&
  (decide (n < 4) || !(mapVals s.ctxs).any s.pointDue) && (decide (n < 5) || !s.releaseDue) &&
  (decide (n < 6) || !s.slotDue)

end Sys2Proof.Machine
end

