-- ==== Sys2Proof/Machine/Functions.lean ====
section
/-! DEFINITION. The functions of spec/08 R236 and the derivatives of spec/11 R314: their exact values
in fixed point, and the binary32 results that R237 and R317 allow, one of which the part gives
(notes/assumptions/8.md). -/

namespace Sys2Proof.Machine

open Sys2Proof

/-- The fraction bits of the fixed-point numbers below: every binary32 value is a multiple of
2^-320, and the error of each function here stays below 2^-40 of the bound that R237 gives it. -/
def fixBits : Nat := 320

/-- One. -/
def fixOne : Int := ((2 ^ fixBits : Nat) : Int)

/-- A finite value in fixed point; NaN and infinities are not asked for. -/
def fixOf : FVal → Int
  | .fin neg m e => finInt neg m e (-(fixBits : Int))
  | _ => 0

/-- Product and quotient of fixed-point numbers. -/
def fixMul (a b : Int) : Int := a * b / fixOne
def fixDiv (a b : Int) : Int := a * fixOne / b

/-- The magnitude of x, and x limited to [-b, b]. -/
def fixAbs (x : Int) : Int := (x.natAbs : Int)
def fixClamp (b x : Int) : Int := max (-b) (min b x)

/-- e^x for |x| ≤ 256: the series at x ÷ 256, squared eight times. -/
def fixExp (x : Int) : Int :=
  let r := x / 256
  let small := (List.range 64).foldr (fun (n : Nat) acc => fixOne + fixMul r acc / (n + 1)) fixOne
  (List.range 8).foldl (fun v _ => fixMul v v) small

/-- 2 × artanh z for 0 ≤ z ≤ 1/3. -/
def fixLog1 (z : Int) : Int :=
  let z2 := fixMul z z
  2 * fixMul z ((List.range 110).foldr (fun (n : Nat) acc => fixOne / (2 * n + 1) + fixMul z2 acc) 0)

/-- ln (m × 2^e) for m > 0. -/
def fixLn (m : Nat) (e : Int) : Int :=
  let k := Nat.log2 m
  let u : Int := ((m * 2 ^ (fixBits - k) : Nat) : Int)
  fixLog1 (fixDiv (u - fixOne) (u + fixOne)) + (e + k) * fixLog1 (fixOne / 3)

/-- 1 ÷ (1 + e^-x). -/
def fixSigmoid (x : Int) : Int :=
  let e := fixExp (-(min (200 * fixOne) (fixAbs x)))
  fixDiv (if x < 0 then e else fixOne) (fixOne + e)

/-- tanh of |x|. -/
def fixTanh (x : Int) : Int :=
  let e := fixExp (-2 * min (100 * fixOne) (fixAbs x))
  fixDiv (fixOne - e) (fixOne + e)

/-- 1 ÷ √(2π), to 2^-320: π by Machin's formula. -/
def fixArctanInv (n : Int) : Int :=
  ((List.range 230).foldr (fun (k : Nat) acc =>
    fixOne / (2 * k + 1) - acc / (n * n)) 0) / n
def fixPi : Int := 4 * (4 * fixArctanInv 5 - fixArctanInv 239)
def fixInvRootTau : Int :=
  ((isqrt ((fixOne * fixOne * fixOne / (2 * fixPi)).toNat) : Nat) : Int)

/-- φ(x), the standard normal density, for |x| ≤ 16. -/
def fixDensity (x : Int) : Int := fixMul fixInvRootTau (fixExp (-(fixMul x x / 2)))

/-- Φ(x), the standard normal distribution function: 1/2 + φ(x) × Σ x^(2n+1) ÷ (1 × 3 × … × (2n+1)). -/
def fixNormal (x : Int) : Int :=
  let a := min (16 * fixOne) (fixAbs x)
  let a2 := fixMul a a
  let sum := fixMul a ((List.range 500).foldr (fun (n : Nat) acc => fixOne + fixMul a2 acc / (2 * n + 3)) fixOne)
  let half := fixMul (fixDensity a) sum
  if x < 0 then fixOne / 2 - half else fixOne / 2 + half

/-- The spacing of binary32 values at a fixed-point number (R237). -/
def fixUlp (y : Int) : Int := ((2 ^ (max (Nat.log2 y.natAbs) (fixBits - 126) - 23) : Nat) : Int)

/-- The rank of a binary32 value in the order of the finite ones: its code for a positive sign,
minus its magnitude's code for a negative one. -/
abbrev Rank := Int

/-- The rank of a code, and the value at a rank; a rank beyond the finite values is the last. -/
def rankOf (code : Nat) : Rank :=
  let m : Int := ((code % 2 ^ 31 : Nat) : Int)
  if bitOf code 31 then -m else m
def valueAtRank (z : Rank) : FVal :=
  fmtF32.decode (min 0x7F7FFFFF z.natAbs + fmtF32.signBit (decide (z < 0)))

/-- The last rank at or below a fixed-point number, and the first at or above it. -/
def rankBelow (v : Int) : Rank :=
  let code := (fmtF32.encode (.away (decide (v < 0))) false (.fin false v.natAbs (-(fixBits : Int)))).1
  if v < 0 then -(code : Int) else code
def rankAbove (v : Int) : Rank := -(rankBelow (-v))

/-- The ranks of the binary32 values within `b` of `y`. -/
structure Allowed where
  lo : Rank
  hi : Rank
  deriving DecidableEq, Repr

def allowedWithin (y b : Int) : Allowed := ⟨rankAbove (y - b), rankBelow (y + b)⟩

/-- The allowed rank next to a wanted one. -/
def Allowed.next (r : Allowed) (z : Rank) : Rank := max r.lo (min r.hi z)

/-- The bound of `n` ulp below |y| kept when y crosses a power of two, where the ulp doubles: a
non-decreasing function within `n` ulp is at least this. -/
def steadyBelow (n y : Int) : Int :=
  let start : Int := ((2 ^ Nat.log2 y.natAbs : Nat) : Int)
  let u := fixUlp y
  let b := y.natAbs - n * u
  if decide (Nat.log2 y.natAbs ≤ fixBits - 126) then b else max b (start - n * u / 2)

/-- The ranks that a non-decreasing function within `n` ulp of y > 0, or of y < 0, may give. -/
def allowedSteady (n y : Int) : Allowed :=
  let lo := rankAbove (steadyBelow n y)
  let hi := rankBelow (y.natAbs + n * fixUlp y)
  if y < 0 then ⟨-hi, -lo⟩ else ⟨lo, hi⟩

/-- The result of a non-decreasing function (R237): the last allowed rank whose turn has come by
the input's rank, the turns being the part's. -/
def Allowed.steady (r : Allowed) (f : Config.Fn) (input : Rank) : Rank :=
  (List.range ((r.hi - r.lo).toNat)).foldl (fun z (i : Nat) =>
    let u := r.lo + i + 1
    if Config.turn f u ≤ input then u else z) r.lo

/-- The binary32 code of a value of a VF type, which binary32 holds exactly. -/
def f32Code (v : FVal) : W32 := BitVec.ofNat 32 (fmtF32.encode .nearest true v).1

/-- The rank that the part's free word names for an input. -/
def freeRank (f : Config.Fn) (v : FVal) : Rank := rankOf (Config.nonlinear f (f32Code v)).toNat

/-- The bound of VGELU and VSILU: 2 ulp, or 2^-40 where that is larger (R237). -/
def gelBound (y : Int) : Int := max (2 * fixUlp y) ((2 ^ (fixBits - 40) : Nat) : Int)

/-- The binary32 values of the functions of R236 at a finite input, zero only for VSIGMOID: one
within the bound of R237, VEXP, VLOG and VSIGMOID non-decreasing, VTANH odd (notes/assumptions/8.md). -/
def nonlinearAt (f : Config.Fn) (v : FVal) : FVal :=
  let x := fixOf v
  let rank := rankOf (f32Code v).toNat
  match f with
  | .exp =>
    let r := allowedSteady 1 (fixExp (fixClamp (200 * fixOne) x))
    let one : Rank := 0x3F800000
    let r := if x < 0 then { r with hi := min r.hi one } else { r with lo := max r.lo one }
    valueAtRank (r.steady .exp rank)
  | .log =>
    match v with
    | .fin _ m e => valueAtRank ((allowedSteady 1 (fixLn m e)).steady .log rank)
    | _ => v
  | .sigmoid =>
    let r := allowedSteady 2 (fixSigmoid x)
    valueAtRank (Allowed.steady ⟨max r.lo 0, min r.hi 0x3F800000⟩ .sigmoid rank)
  | .tanh =>
    let y := fixTanh x
    let r := allowedWithin y (2 * fixUlp y)
    let z := Allowed.next { r with hi := min r.hi 0x3F800000 } (freeRank .tanh v.abs)
    if v.sign then (valueAtRank z).neg else valueAtRank z
  | .gelu =>
    if x < -16 * fixOne then
      -- The exact value lies between -2^-186 and 0.
      let r := allowedWithin 0 (gelBound 0)
      valueAtRank (Allowed.next { r with hi := r.hi - 1 } (freeRank .gelu v))
    else
      let y := fixMul x (fixNormal x)
      valueAtRank ((allowedWithin y (gelBound y)).next (freeRank .gelu v))
  | .silu =>
    let y := fixMul x (fixSigmoid x)
    valueAtRank ((allowedWithin y (gelBound y)).next (freeRank .silu v))

/-- The values of VSIGMOID and VTANH at any value that is not NaN (R236). -/
def sigmoidAt : FVal → FVal
  | .inf neg => if neg then FVal.zero else .fin false 1 0
  | v => nonlinearAt .sigmoid v
def tanhAt : FVal → FVal
  | .inf neg => .fin neg 1 0
  | v => if v.isZero then v else nonlinearAt .tanh v

/-- The binary32 value of a code. -/
def f32 (code : Nat) : FVal := fmtF32.decode code

/-- A binary32 rounding to nearest-even with IEEE 754 overflow. -/
def toF32 (v : FVal) : FVal := f32 (fmtF32.encode .nearest true v).1

/-- The exact derivative of a code 0x08 to 0x0B at a finite value (R314). -/
def fixDerivative (code : Nat) (x : Int) : Int :=
  let s := fixSigmoid x
  let slope := fixMul s (fixSigmoid (-x))
  match code with
  | 0x08 => slope
  | 0x09 => let t := fixTanh x; fixOne - fixMul t t
  | 0x0A =>
    let d := if 16 * fixOne ≤ fixAbs x then 0 else fixMul x (fixDensity x)
    fixNormal x + d
  | _ => s + fixMul x slope

/-- The factor of a code 0x08 to 0x0B as binary32 arithmetic makes it from the value of VSIGMOID or
VTANH, each operation rounded once; that of GELU, and one that is no number, is the part's. -/
def factorMade (code : Nat) (v : FVal) : FVal :=
  let one : FVal := .fin false 1 0
  let free := f32 (Config.derivative code (f32Code v)).toNat
  let s := sigmoidAt v
  let rest := toF32 (one.sub s)
  let made := match code with
    | 0x08 => toF32 (s.mul rest)
    | 0x09 => let t := tanhAt v; toF32 (one.sub (t.mul t))
    | 0x0A => free
    | _ => toF32 (s.add (toF32 ((toF32 (v.mul s)).mul rest)))
  if made.isNan then free else made

/-- The factor of R314 for codes 0x08 to 0x0B: within 4 ulp of the exact derivative, or 2^-22
where that is larger (R317); at an infinite z the limit of the derivative, 0 or 1. -/
def smoothFactor (code : Nat) (v : FVal) : FVal :=
  match v with
  | .inf neg => if code ≤ 0x09 || neg then FVal.zero else .fin false 1 0
  | _ =>
    let y := fixDerivative code (fixOf v)
    let r := allowedWithin y (max (4 * fixUlp y) ((2 ^ (fixBits - 22) : Nat) : Int))
    let made := factorMade code v
    valueAtRank (r.next (rankOf (f32Code made).toNat))

end Sys2Proof.Machine
end

