-- ==== Sys2Proof/Machine/Generator.lean ====
section
/-! DEFINITION. The stream generator (spec/09 R256 to R261) and the draws of rounding and dropout
(spec/06 R186, spec/08 R239). -/

namespace Sys2Proof.Machine

open Sys2Proof

/-- The rotation counts of R256. -/
def genA : List Nat := [13, 17, 5, 24, 16, 29, 11, 7, 19, 3]
def genB : List Nat := [9, 22, 14, 27, 2, 18, 30, 12, 25, 8]

/-- The four words of the generator's state. -/
structure Quad where
  x0 : W32
  x1 : W32
  x2 : W32
  x3 : W32
  deriving DecidableEq, Repr

/-- Round i of R256. -/
def genRound (k0 k1 : W32) (x : Quad) (i : Nat) : Quad :=
  let x0 := x.x0 + x.x1
  let x1 := (x.x1.rotateLeft (genA.getD i 0)) ^^^ x0
  let x2 := x.x2 + x.x3
  let x3 := (x.x3.rotateLeft (genB.getD i 0)) ^^^ x2
  let ii := BitVec.ofNat 32 i
  ⟨x0 ^^^ (k0 + ii * 0x6C8E9CF5#32), x3, x2 ^^^ (k1 + ii * 0x3B5D1A27#32), x1⟩

/-- The generator (R256). -/
def generate (k0 k1 : W32) (c : Quad) : Quad :=
  let x := (List.range 10).foldl (genRound k0 k1) c
  ⟨x.x0 + c.x0, x.x1 + c.x1, x.x2 + c.x2, x.x3 + c.x3⟩

/-- Output word w mod 4 of a call. -/
def Quad.word (x : Quad) (w : Nat) : W32 :=
  match w % 4 with
  | 0 => x.x0
  | 1 => x.x1
  | 2 => x.x2
  | _ => x.x3

/-- SEED and DRAWS of entry `i` of a stream table (R260). -/
def genSeed (tab : Memory) (i : Nat) : W64 := BitVec.ofNat 64 (memNat tab (16 * i) 8)
def genDraws (tab : Memory) (i : Nat) : W64 := BitVec.ofNat 64 (memNat tab (16 * i + 8) 8)

/-- A call on stream `i` with the counter (c[31:0], c[63:32], c2, c3) (R260). -/
def streamCall (tab : Memory) (i : Nat) (c : W64) (c2 c3 : W32) : Quad :=
  let seed := genSeed tab i
  generate (seed.setWidth 32 ^^^ BitVec.ofNat 32 i) ((seed >>> 32).setWidth 32)
    ⟨c.setWidth 32, (c >>> 32).setWidth 32, c2, c3⟩

/-- The stream table and the STEP of the kernel that runs on a team. -/
def State.genTable (s : State) (t : Nat) : Memory :=
  match (s.team t).kernel with
  | some k => k.genTable
  | none => []
def State.step (s : State) (t : Nat) : W64 :=
  match (s.team t).kernel with
  | some k => k.step
  | none => 0

/-- The draw of element e of an instruction for streams 0x002 and 0x003 (R186, R239). -/
def State.coreDraw (s : State) (t q stream : Nat) (count : W64) (e : Nat) : Nat :=
  ((streamCall (s.genTable t) stream (count + BitVec.ofNat 64 (e / 4))
    (BitVec.ofNat 32 (16 * t + q)) ((s.step t).setWidth 32)).word e).toNat

/-- The rounding of element (i, j) of an m × n D in type `ty`: stochastic where SROUND is set and
the target is a float narrower than binary32 (R143, R185, R186). -/
def State.rounding (s : State) (t q : Nat) (x : Args) (n ty i j : Nat) : Rounding :=
  if x.mod.getLsbD 4 && ty != 0x00 && decide (ty ≤ 0x0A) then
    .stochastic (s.coreDraw t q 3 (s.core t q).q (i * n + j))
  else .nearest

/-- The draws that an instruction with SROUND consumes for an m × n D (R186). -/
def Core.useDraws (k : Core) (x : Args) (m n : Nat) : Core :=
  if x.mod.getLsbD 4 then { k with q := k.q + BitVec.ofNat 64 (ceilDiv (m * n) 4) } else k

end Sys2Proof.Machine
end

