-- ==== Sys2Proof/Machine/Matrix.lean ====
section
/-! DEFINITION. Matrix products, their two contracts, the derivative in the drain, and the
accumulation store (spec/05 R155 to R157; spec/06 R188 to R195; spec/07 R205, R207; spec/11). -/

namespace Sys2Proof.Machine

open Sys2Proof

/-- An accumulator with whether the element became NaN through an invalid case (R194). -/
structure Acc where
  v : FVal
  invalid : Bool
  deriving DecidableEq, Repr

/-- ⌊p ÷ 2^f⌋ of a finite value (R188: truncated toward minus infinity). -/
def floorUnits (neg : Bool) (m : Nat) (e f : Int) : Int :=
  if f ≤ e then finInt neg m e f
  else
    let z : Int := if neg then -(m : Int) else m
    z / ((2 ^ (f - e).toNat : Nat) : Int)

/-- The group sum of R188 for finite products that are not all zero, with e the largest exponent. -/
def groupSum (e : Int) (ps : List FVal) : FVal :=
  let z := ps.foldl (fun z p =>
    match p with
    | .fin neg m x => z + floorUnits neg m x (e - 40)
    | _ => z) (0 : Int)
  if z = 0 then FVal.zero else roundX32 (.fin (decide (z < 0)) z.natAbs (e - 40))

/-- Whether a product of two values is the invalid case 0 × ∞. -/
def badProduct (a b : FVal) : Bool := (a.isZero && b.isInf) || (a.isInf && b.isZero)

/-- The group value G of R188 and R194 for the operand pairs of a group. -/
def groupValue (ab : List (FVal × FVal)) : Acc :=
  if ab.any fun p => p.1.isNan || p.2.isNan then ⟨.nan, false⟩
  else if ab.any fun p => badProduct p.1 p.2 then ⟨.nan, true⟩
  else
    let ps := ab.map fun p => p.1.mul p.2
    let pos := ps.any fun p => p == .inf false
    let neg := ps.any fun p => p == .inf true
    if pos && neg then ⟨.nan, true⟩
    else if pos || neg then ⟨.inf neg, false⟩
    else
      match maxLog2 ps with
      | none => ⟨FVal.zero, false⟩
      | some e => ⟨groupSum e ps, false⟩

/-- Adds a group or step to the accumulator (R188, R190, R194). -/
def accAdd (acc g : Acc) : Acc :=
  let s := acc.v.add g.v
  ⟨roundX32 s,
   acc.invalid ||
     (!acc.v.isNan && (g.invalid || (s.isNan && !g.v.isNan)))⟩

/-- The normal contract (R188) over operand pairs. -/
def normalDot (k : Nat) (ab : Nat → FVal × FVal) (acc0 : FVal) : Acc :=
  (List.range (ceilDiv k 32)).foldl (fun acc g =>
    accAdd acc (groupValue ((List.range (min 32 (k - 32 * g))).map fun i => ab (32 * g + i))))
    ⟨acc0, false⟩

/-- The step-by-step contract (R190). -/
def stepwiseDot (k : Nat) (ab : Nat → FVal × FVal) (acc0 : FVal) : Acc :=
  (List.range k).foldl (fun acc t =>
    let p := ab t
    accAdd acc ⟨roundX32 (p.1.mul p.2), badProduct p.1 p.2⟩) ⟨acc0, false⟩

/-- The dot product of row i of A and column j of B under the contract that STEPWISE selects. -/
def dotOf (stepwise : Bool) (a b : TileData) (i j : Nat) (acc0 : FVal) : Acc :=
  let ab := fun t => (a.value i t, b.value t j)
  if stepwise then stepwiseDot a.desc.cols ab acc0 else normalDot a.desc.cols ab acc0

/-- The integer product of R195. -/
def intDot (a b : TileData) (i j : Nat) (s0 : Int) : Int :=
  (List.range a.desc.cols).foldl (fun s t => s + a.int i t * b.int t j) s0

/-- The other member of the pair that holds a type (R142). -/
def pairOf : Nat → Nat
  | 0x03 => 0x04 | 0x04 => 0x03 | 0x05 => 0x06 | 0x06 => 0x05 | 0x07 => 0x08 | 0x08 => 0x07
  | t => t

/-- Whether A and B may be multiplied by an instruction of type `ty` (R142, R156, R205). -/
def operandsOk (part9620 : Bool) (ty : Nat) (a b : TileDesc) : Bool :=
  !a.nullForCompute && !b.nullForCompute && a.tyN == ty && (b.tyN == ty || b.tyN == pairOf ty) &&
  !(part9620 && ty == 0x09) && a.cols == b.rows &&
  (!isBlockTy ty || (!a.colMajor && b.colMajor))

/-- Whether a type is an integer type of a matrix product (R195). -/
def isIntTy (ty : Nat) : Bool := ty == 0x10 || ty == 0x11 || ty == 0x14

/-- Whether D may take the product (R156, R167). -/
def resultOk (ty : Nat) (d a b : TileDesc) : Bool :=
  !d.nullForCompute && d.rows == a.rows && d.cols == b.cols &&
  (if isIntTy ty then d.tyN == 0x13 else d.tyN == 0 || d.tyN == 1 || d.tyN == 2) &&
  !d.overlaps a && !d.overlaps b

/-- Every (row, column) of an m × n tile in row order. -/
def coords (m n : Nat) : List (Nat × Nat) :=
  (List.range m).flatMap fun i => (List.range n).map fun j => (i, j)

/-- The codes and flags of the elements of D, computed once each, in row order. -/
abbrev Elems := List (Nat × Flags)

/-- The events of the elements of an m × n D. -/
def elemEvents (n : Nat) (es : Elems) : Events :=
  (List.range es.length).foldl (fun ev e =>
    ev.count (e / n) (e % n) (es.getD e (0, { })).2) { }

/-- The code of element (i, j). -/
def elemCode (n : Nat) (es : Elems) (i j : Nat) : Nat := (es.getD (i * n + j) (0, { })).1

/-- Drains an X32 result with the INVALID of the product (R192, R194). -/
def drainElem (f : Fmt) (mode : Rounding) (satInf stepwise : Bool) (r : Acc) : Nat × Flags :=
  let d := f.drain mode satInf (!stepwise) r.v
  (d.1, { d.2 with invalid := r.invalid })

/-- The float format of a drained type. -/
def drainFmt (ty : Nat) : Fmt := (fmtOf ty).getD fmtF32

/-- Completes an instruction that writes nothing: every element index of a D that is a tile still
consumes its draw of SROUND (R186). -/
def State.finishEmpty (s : State) (t q : Nat) (w : LumfyWord) (ev : Events) : State :=
  let d := (s.core t q).tile w.args.d
  (if d.nullForCompute then s
    else s.modCore t q fun k => k.useDraws w.args d.rows d.cols).finish t q w ev

/-- Completes a matrix instruction that wrote D: its bytes, the draws of SROUND, the entry in
the tile queue (R207), its events. -/
def State.matrixDone (s : State) (t q : Nat) (w : LumfyWord) (d : TileDesc) (es : Elems) (bad queue : Bool) :
    State :=
  let k := (s.core t q).useDraws w.args d.rows d.cols
  let k := if queue then
      match w.args.d with
      | .treg n => { k with tileQueue := k.tileQueue ++ [n] }
      | _ => k
    else k
  s.apply t q w (tregOf w.args.d)
    { core := k, cells := s.coreCells t q d (elemCode d.cols es) unitScale,
      ev := (elemEvents d.cols es).withAddr bad }

/-- MMA in one core (R155, R156, R188 to R195). -/
def mmaCore (s : State) (t q : Nat) (w : LumfyWord) : State :=
  let k := s.core t q
  let x := w.args
  let a := k.tile x.a
  let b := k.tile x.b
  let d := k.tile x.d
  if operandsOk s.part9620 x.ty a b && resultOk x.ty d a b then
    let ta := s.readTile t q .me (tregOf x.a) a
    let tb := s.readTile t q .me (tregOf x.b) b
    let td := s.readTile t q .me (tregOf x.d) d
    let acc := x.mod.getLsbD 7
    let es : Elems := (coords d.rows d.cols).map fun c =>
      if isIntTy x.ty then
        (ITy.mk 32 true).encode (x.mod.getLsbD 2)
          (intDot ta tb c.1 c.2 (if acc then td.int c.1 c.2 else 0))
      else
        drainElem (drainFmt d.tyN) (s.rounding t q x d.cols d.tyN c.1 c.2) (x.mod.getLsbD 3)
          (x.mod.getLsbD 1)
          (dotOf (x.mod.getLsbD 1) ta tb c.1 c.2
            (if acc then td.value c.1 c.2 else FVal.zero))
    let bad := s.coreOutside t a || s.coreOutside t b || s.coreOutside t d
    s.matrixDone t q w d es bad true
  else s.finishEmpty t q w evNull

/-- Whether the saved tile of a derivative code is allowed (R314). -/
def savedOk (code : Nat) (z d : TileDesc) : Bool :=
  !z.nullForCompute && z.rows == d.rows && z.cols == d.cols && !d.overlaps z &&
  (if code = 0x02 then z.tyN == 0x1A
   else decide (z.tyN ≤ 2) || (decide (5 ≤ z.tyN) && decide (z.tyN ≤ 8)))


/-- The factor f′ or f of R314 and R315 for a saved element. -/
def derivFactor (code : Nat) (z : TileData) (i j : Nat) : FVal :=
  let v := z.value i j
  let one : FVal := .fin false 1 0
  let slope := fun c => if FVal.lt v FVal.zero then f32 c else one
  match code with
  | 0x01 => if FVal.lt FVal.zero v then one else FVal.zero
  | 0x02 => if z.code i j = 1 then FVal.zero else one
  | 0x03 => slope 0x3C23D70A
  | 0x04 => slope 0x3DCCCCCD
  | 0x05 => slope 0x3E4CCCCD
  | 0x10 => toF32 (v.mul (toF32 (one.sub v)))
  | 0x11 => toF32 (one.sub (v.mul v))
  | _ => smoothFactor code v

/-- drv of R315 with the special cases of R316. -/
def derive_ (code : Nat) (z : TileData) (i j : Nat) (r : Acc) : Acc :=
  let zv := z.value i j
  let f := derivFactor code z i j
  if code != 0x02 && zv.isNan then ⟨.nan, r.invalid⟩
  else if code ≤ 0x05 ∧ f.isZero then ⟨FVal.zero, false⟩
  else if r.v.isNan then r
  else if r.v.isInf && f.isZero then ⟨.nan, true⟩
  else ⟨roundX32 (r.v.mul f), r.invalid⟩

/-- MMA.DRV in one core (R155, R314 to R316). -/
def mmaDrvCore (s : State) (t q : Nat) (w : LumfyWord) : State :=
  let k := s.core t q
  let x := w.args
  let code := bits x.imm.toNat 8 8
  let a := k.tile x.a
  let b := k.tile x.b
  let d := k.tile x.d
  let z := k.getT (x.imm.toNat % 32)
  if operandsOk s.part9620 x.ty a b && resultOk x.ty d a b && savedOk code z d then
    let ta := s.readTile t q .me (tregOf x.a) a
    let tb := s.readTile t q .me (tregOf x.b) b
    let tz := s.readTile t q .me (some (x.imm.toNat % 32)) z
    let es : Elems := (coords d.rows d.cols).map fun c =>
      drainElem (drainFmt d.tyN) (s.rounding t q x d.cols d.tyN c.1 c.2) (x.mod.getLsbD 3)
        (x.mod.getLsbD 1)
        (derive_ code tz c.1 c.2 (dotOf (x.mod.getLsbD 1) ta tb c.1 c.2 FVal.zero))
    let bad := s.coreOutside t a || s.coreOutside t b || s.coreOutside t d || s.coreOutside t z
    s.matrixDone t q w d es bad true
  else s.finishEmpty t q w evNull

/-- A word of a team's accumulation store; a word not listed is +0 (R320). -/
def Team.acsGet (k : Team) (w : Nat) : BitVec 40 := mapGetD k.acs 0 w

/-- Writes a word of the store, with the copy of its row as it stood when the launch began
before the first write (R322). -/
def Team.acsPut (k : Team) (w : Nat) (v : BitVec 40) : Team :=
  let row := w / 3
  let saved := match mapGet k.acsRows row with
    | some _ => k.acsRows
    | none => mapPut k.acsRows row ((List.range 3).map fun i => k.acsGet (3 * row + i))
  { k with acs := if v = 0 then mapDrop k.acs w else mapPut k.acs w v, acsRows := saved }

/-- Adds an X32 result into an A40 word (R193, R194). -/
def acsAdd (w : BitVec 40) (r : Acc) : BitVec 40 × Flags :=
  let old := a40Decode w.toNat
  let s := old.add r.v
  let c := a40Encode s
  (BitVec.ofNat 40 c.1,
   { c.2 with invalid := r.invalid || (s.isNan && !old.isNan && !r.v.isNan) })

/-- ACC_WORDS of the kernel that runs on a team (R128). -/
def State.accWords (s : State) (t : Nat) : Nat :=
  match (s.team t).kernel with
  | some k => k.stream.accWords
  | none => 0

/-- The rows of the store that `n` words from `idx` on lie in, read by core q: of these the store freely
found some with a single-bit error, corrected them and counted them (R323). -/
def State.correctSome (s : State) (key rows : Nat) : State :=
  let bad := (Config.freeWord (s.free * 2 ^ 32 + 2 ^ 31 + key)).toNat % (rows + 1)
  { s with regs := { s.regs with acsCorrected := (s.regs.acsCorrected + bad) % 2 ^ 32 } }
def State.correctRows (s : State) (q idx n : Nat) : State :=
  s.correctSome q (if n = 0 then 0 else (idx + n - 1) / 3 - idx / 3 + 1)

/-- A row of a store as it stands (R319): its three words, and in bits [127:120] the check code over them, which the spec does
not give (notes/assumptions/62.md). -/
def Team.acsRow (k : Team) (row : Nat) : BitVec 128 :=
  let words : BitVec 120 := k.acsGet (3 * row + 2) ++ k.acsGet (3 * row + 1) ++ k.acsGet (3 * row)
  Config.acsCode words ++ words

/-- The rows of n words from idx that a team has yet to copy before their first write of the launch (R322). -/
def Team.rowsToCopy (k : Team) (idx n : Nat) : Nat :=
  (((List.range n).map fun e => (idx + e) / 3).eraseDups.filter fun r => (mapGet k.acsRows r).isNone).length

/-- MMA.ACS in one core (R156, R157, R193). -/
def mmaAcsCore (s : State) (t q : Nat) (w : LumfyWord) : State :=
  let k := s.core t q
  let x := w.args
  let a := k.tile x.a
  let b := k.tile x.b
  let idx := (k.value x false x.d).toNat
  if operandsOk s.part9620 x.ty a b then
    let n := b.cols
    if idx + a.rows * n ≤ s.accWords t then
      let ta := s.readTile t q .me (tregOf x.a) a
      let tb := s.readTile t q .me (tregOf x.b) b
      let r := (coords a.rows n).foldl (fun (acc : Team × Events) c =>
          let p := dotOf (x.mod.getLsbD 1) ta tb c.1 c.2 FVal.zero
          let wd := idx + c.1 * n + c.2
          let y := acsAdd (acc.1.acsGet wd) p
          (acc.1.acsPut wd y.1, acc.2.count c.1 c.2 y.2)) (s.team t, ({ } : Events))
      ((s.correctRows q idx (a.rows * n)).modTeam t fun _ => r.1).finish t q w
        (r.2.withAddr (s.coreOutside t a || s.coreOutside t b))
    else s.finish t q w evAddr
  else s.finish t q w evNull

/-- ACS.READ in one core (R156, R193). -/
def acsReadCore (s : State) (t q : Nat) (w : LumfyWord) : State :=
  let k := s.core t q
  let x := w.args
  let d := k.tile x.d
  let idx := (k.value x false x.a).toNat
  if d.nullForCompute || d.tyN != x.ty then s.finishEmpty t q w evNull
  else
    let n := d.cols
    if idx + d.rows * n ≤ s.accWords t then
      let es : Elems := (coords d.rows n).map fun c =>
        (drainFmt d.tyN).drain (s.rounding t q x n d.tyN c.1 c.2) (x.mod.getLsbD 3) true
          (a40Decode ((s.team t).acsGet (idx + c.1 * n + c.2)).toNat)
      let s1 := if x.imm.getLsbD 0 then
          s.modTeam t fun k => (List.range (d.rows * n)).foldl (fun k e => k.acsPut (idx + e) 0) k
        else s
      (s1.correctRows q idx (d.rows * n)).matrixDone t q w d es (s.coreOutside t d) false
    else s.finishEmpty t q w evAddr

/-- ACS.ZERO in one core (R156). -/
def acsZeroCore (s : State) (t q : Nat) (w : LumfyWord) : State :=
  let k := s.core t q
  let x := w.args
  let idx := (k.value x false x.a).toNat
  let n := (k.value x false x.b).toNat
  if idx + n ≤ s.accWords t then
    (s.correctSome q ((s.team t).rowsToCopy idx n)).modTeam t fun k =>
      (List.range n).foldl (fun k e => k.acsPut (idx + e) 0) k
  else s.finish t q w evAddr

/-- MMA (R155): the product replaces D, or is added into it with ACC. -/
def execMma (team : Nat) (x : Args) (s : State) : Result :=
  .next (s.issueTiles team ⟨0x100, x⟩ [x.a, x.b, if x.mod.getLsbD 7 then x.d else .none] fun s' q =>
    mmaCore s' team q ⟨0x100, x⟩)

/-- MMA.DRV (R155, R315). -/
def execMmaDrv (team : Nat) (x : Args) (s : State) : Result :=
  .next (s.issueTiles team ⟨0x101, x⟩ [x.a, x.b, .treg (x.imm.toNat % 32)] fun s' q =>
    mmaDrvCore s' team q ⟨0x101, x⟩)

/-- MMA.ACS (R155, R156): added row by row into the accumulation store from index D on. -/
def execMmaAcs (team : Nat) (x : Args) (s : State) : Result :=
  .next (s.issueTiles team ⟨0x102, x⟩ [x.a, x.b] fun s' q => mmaAcsCore s' team q ⟨0x102, x⟩)

/-- ACS.READ (R155, R156). -/
def execAcsRead (team : Nat) (x : Args) (s : State) : Result :=
  .next (s.issueTiles team ⟨0x103, x⟩ [] fun s' q => acsReadCore s' team q ⟨0x103, x⟩)

/-- ACS.ZERO (R155, R156). -/
def execAcsZero (team : Nat) (x : Args) (s : State) : Result :=
  .next (s.issueTiles team ⟨0x104, x⟩ [] fun s' q => acsZeroCore s' team q ⟨0x104, x⟩)

/-- TILE_QUEUE_DRAIN (R207): the oldest entry of a core's tile queue leaves as its last element
reaches CORE; with an empty queue nothing happens. -/
def execTileQueueDrain (team core : Nat) (s : State) : Result :=
  .next (if (s.core team core).tileQueue.isEmpty then s
    else s.modCore team core fun k => { k with tileQueue := k.tileQueue.drop 1 })

end Sys2Proof.Machine
end

