-- ==== Sys2Proof/Machine/Vector.lean ====
section
/-! DEFINITION. Element-wise vector instructions, nonlinear functions, conversion, selection,
random fill and dropout (spec/05 R159, R160; spec/08 R229 to R240). -/

namespace Sys2Proof.Machine

open Sys2Proof

/-- Writes a tile of CORE through a tile register. -/
def State.storeTile (s : State) (t q : Nat) (unit : EngineUnit) (reg : Option Nat) (d : TileDesc)
    (code scale : Nat → Nat → Nat) : State :=
  s.store ⟨t, some q, unit, reg⟩ (.core t q) (s.coreCells t q d code scale)

/-- Completes a vector instruction that wrote D: draws of SROUND, D's bytes, events. -/
def State.vectorDone (s : State) (t q : Nat) (w : LumfyWord) (d : TileDesc) (es : Elems)
    (scale : Nat → Nat → Nat) (bad : Bool) : State :=
  let s1 := s.modCore t q fun k => k.useDraws w.args d.rows d.cols
  (s1.storeTile t q .ve (tregOf w.args.d) d (elemCode d.cols es) scale).finish t q w
    ((elemEvents d.cols es).withAddr bad)

/-- The B operand of an element-wise instruction: a tile that broadcasts, or a scalar (R160). -/
inductive BArg where
  | tile (t : TileData)
  | scalar (code : Nat)
  deriving DecidableEq, Repr

/-- The element code of B at (i, j) (R160): a 1-row or 1-column tile is broadcast. -/
def BArg.code (b : BArg) (i j : Nat) : Nat :=
  match b with
  | .tile t => t.code (if t.desc.rows = 1 then 0 else i) (if t.desc.cols = 1 then 0 else j)
  | .scalar c => c

/-- Whether B's shape broadcasts onto m × n (R160). -/
def bShapeOk (b d : TileDesc) : Bool :=
  (b.rows == d.rows || b.rows == 1) && (b.cols == d.cols || b.cols == 1)

/-- Whether D overlaps an input other than by being the same tile (R167). -/
def clash (d input : TileDesc) : Bool := d.overlaps input && d != input

/-- Whether an element-wise instruction treats its tiles as null: A and D of their types, D of A's
shape, a tile B of A's type that broadcasts, and no overlap but in place (R142, R160, R167, R118). -/
def elemNull (k : Core) (x : Args) (dTy : Nat) : Bool :=
  let a := k.tile x.a
  let d := k.tile x.d
  let b := k.tile x.b
  a.nullForCompute || d.nullForCompute || a.tyN != x.ty || d.tyN != dTy ||
  d.rows != a.rows || d.cols != a.cols || clash d a ||
  (match x.b with
   | .treg _ => b.nullForCompute || b.tyN != x.ty || !bShapeOk b d || clash d b
   | _ => false)

/-- The B operand: a tile, or the low bits of a scalar taken in the instruction's type (R233). -/
def State.bArg (s : State) (t q : Nat) (x : Args) (width : Nat) : BArg :=
  let k := s.core t q
  match x.b with
  | .treg n => .tile (s.readTile t q .ve (some n) (k.getT n))
  | o => .scalar ((k.value x false o).toNat % 2 ^ width)

/-- Whether any tile operand reaches outside CORE_BYTES. -/
def State.elemOutside (s : State) (t q : Nat) (x : Args) : Bool :=
  let k := s.core t q
  s.coreOutside t (k.tile x.a) || s.coreOutside t (k.tile x.d) ||
  (match x.b with
   | .treg n => s.coreOutside t (k.getT n)
   | _ => false)

/-- An element-wise instruction in one core: `f` computes the code of element (i, j) from the
codes of A, B and D. -/
def State.elementwise (s : State) (t q : Nat) (w : LumfyWord) (dTy : Nat)
    (f : Nat → Nat → Nat → Nat → Nat → Nat × Flags) : State :=
  let k := s.core t q
  let x := w.args
  if elemNull k x dTy then s.finishEmpty t q w evNull
  else
    let d := k.tile x.d
    let ta := s.readTile t q .ve (tregOf x.a) (k.tile x.a)
    let td := s.readTile t q .ve (tregOf x.d) d
    let b := s.bArg t q x (elemBits x.ty)
    let es : Elems := (coords d.rows d.cols).map fun c =>
      f c.1 c.2 (ta.code c.1 c.2) (b.code c.1 c.2) (td.code c.1 c.2)
    s.vectorDone t q w d es unitScale (s.elemOutside t q x)

/-- The float value of a code of a VF type. -/
def vfVal (ty code : Nat) : FVal := (drainFmt ty).decode code

/-- A float result from its exact value: INVALID where it is NaN and no input was (R229, R230). -/
def vfResult (ty : Nat) (mode : Rounding) (satInf anyNan : Bool) (v : FVal) : Nat × Flags :=
  let r := (drainFmt ty).encode mode satInf v
  (r.1, { r.2 with invalid := v.isNan && !anyNan })

/-- The rounding, SATINF and OVF of the instruction. -/
def satInfOf (x : Args) : Bool := x.mod.getLsbD 3
def ovfOf (x : Args) : Bool := x.mod.getLsbD 2

/-- A two-operand arithmetic element (R229, R230, R232). -/
def arith2 (ty : Nat) (mode : Rounding) (satInf ovf : Bool) (ff : FVal → FVal → FVal)
    (fi : Int → Int → Int) (a b : Nat) : Nat × Flags :=
  match itypeOf ty with
  | some it => it.encode ovf (fi (it.decode a) (it.decode b))
  | none =>
    let va := vfVal ty a
    let vb := vfVal ty b
    vfResult ty mode satInf (va.isNan || vb.isNan) (ff va vb)

/-- The code of a VF value that an operation returns unrounded: NaN becomes canonical (R172). -/
def vfKeep (ty code : Nat) : Nat :=
  if (vfVal ty code).isNan then (drainFmt ty).nanCode else code

/-- Maximum or minimum of two element codes (R231). -/
def pick2 (ty : Nat) (wantMax : Bool) (a b : Nat) : Nat :=
  match itypeOf ty with
  | some it =>
    let x := it.decode a
    let y := it.decode b
    if wantMax then (if x < y then b else a) else (if y < x then b else a)
  | none =>
    let x := vfVal ty a
    let y := vfVal ty b
    if x.isNan || y.isNan then (drainFmt ty).nanCode
    else
      let less := FVal.lt x y || (FVal.eqv x y && x.sign && !y.sign)
      if less == wantMax then b else a

/-- Comparison of two element codes (R231): 0 equal, 1 less, 2 less or equal. -/
def compare2 (ty : Nat) (how : Nat) (a b : Nat) : Bool :=
  match itypeOf ty with
  | some it =>
    let x := it.decode a
    let y := it.decode b
    if how = 0 then decide (x = y) else if how = 1 then decide (x < y) else decide (x ≤ y)
  | none =>
    let x := vfVal ty a
    let y := vfVal ty b
    if how = 0 then FVal.eqv x y else if how = 1 then FVal.lt x y
    else FVal.lt x y || FVal.eqv x y

/-- A binary32 result converted to D's type (R238): FLUSH counts once where the exact value is
not zero and the value written is. -/
def viaF32 (ty : Nat) (mode1 mode : Rounding) (satInf : Bool) (v : FVal) : Nat × Flags :=
  let r1 := fmtF32.encode mode1 satInf v
  if ty = 0 then r1
  else
    let r2 := (drainFmt ty).encode mode satInf (f32 r1.1)
    let zero := r2.1 % 2 ^ 15 == 0
    (r2.1, { sat := r1.2.sat || r2.2.sat, flush := zero && !v.isZero && !v.isNan && !v.isInf,
             invalid := false })

/-- The same with INVALID for a NaN made from inputs that are not NaN. -/
def viaF32Checked (ty : Nat) (mode1 mode : Rounding) (satInf anyNan : Bool) (v : FVal) : Nat × Flags :=
  let r := viaF32 ty mode1 mode satInf v
  (r.1, { r.2 with invalid := v.isNan && !anyNan })


/-- A nonlinear element whose exact value is not zero (R236 to R238): `v` is the binary32 result. -/
def nonlinearDone (ty : Nat) (mode : Rounding) (satInf : Bool) (v : FVal) : Nat × Flags :=
  let r := (drainFmt ty).encode mode satInf v
  (r.1, { r.2 with flush := r.1 % 2 ^ (elemBits ty - 1) == 0 })

/-- The threshold above which e^A lies beyond binary32, and that below which it is zero (R236). -/
def expHigh : FVal := f32 0x42B17217
def expLow : FVal := f32 0xC2CFF5C3

/-- VEXP of one element (R236, R237). -/
def vexpElem (ty : Nat) (mode : Rounding) (satInf : Bool) (v : FVal) : Nat × Flags :=
  let f := drainFmt ty
  match v with
  | .nan => (f.nanCode, { })
  | .inf neg => if neg then (0, { }) else (f.infCode, { })
  | .fin _ m _ =>
    if m = 0 then f.encode .nearest false (.fin false 1 0)
    else if FVal.lt expHigh v then
      (if satInf then f.infCode else f.maxCode, { sat := true })
    else if FVal.lt v expLow then (0, { flush := true })
    else nonlinearDone ty mode satInf (nonlinearAt .exp v)

/-- VLOG of one element (R236, R237). -/
def vlogElem (ty : Nat) (mode : Rounding) (v : FVal) : Nat × Flags :=
  let f := drainFmt ty
  match v with
  | .nan => (f.nanCode, { })
  | .inf neg => if neg then (f.nanCode, { invalid := true }) else (f.infCode, { })
  | .fin neg m _ =>
    if m = 0 then (f.infCode + f.signBit true, { })
    else if neg then (f.nanCode, { invalid := true })
    else if FVal.eqv v (.fin false 1 0) then (0, { })
    else nonlinearDone ty mode false (nonlinearAt .log v)

/-- VTANH, VSIGMOID, VGELU and VSILU of one element (R236, R237): results at -∞ and +∞ as values. -/
def vfunElem (f : Config.Fn) (atNeg atPos : FVal) (ty : Nat) (mode : Rounding) (v : FVal) : Nat × Flags :=
  let g := drainFmt ty
  match v with
  | .nan => (g.nanCode, { })
  | .inf neg => g.encode .nearest true (if neg then atNeg else atPos)
  | .fin _ m _ =>
    if m = 0 && f != .sigmoid then g.encode .nearest true v
    else nonlinearDone ty mode false (nonlinearAt f v)

/-- VRCP of one element (R236 to R238): either neighbour of the exact quotient, exact at powers of 2. -/
def vrcpElem (ty : Nat) (mode : Rounding) (satInf : Bool) (v : FVal) : Nat × Flags :=
  viaF32 ty (.away (Config.roundsUp false (f32Code v))) mode satInf
    (FVal.div (.fin false 1 0) v)

/-- VRSQRT of one element (R236 to R238): either neighbour of the exact value, exact at powers of 4. -/
def vrsqrtElem (ty : Nat) (mode : Rounding) (satInf : Bool) (v : FVal) : Nat × Flags :=
  match v with
  | .nan => ((drainFmt ty).nanCode, { })
  | .inf neg => if neg then ((drainFmt ty).nanCode, { invalid := true }) else (0, { })
  | .fin neg m e =>
    if m = 0 then ((drainFmt ty).infCode + (drainFmt ty).signBit neg, { })
    else if neg then ((drainFmt ty).nanCode, { invalid := true })
    else
      let r := FVal.sqrt (FVal.div (.fin false 1 0) (.fin false m e))
      viaF32 ty (.away (Config.roundsUp true (f32Code v))) mode satInf r

/-- Rounding of element (i, j) for the instruction. -/
def State.modeAt (s : State) (t q : Nat) (x : Args) (dTy i j : Nat) : Rounding :=
  s.rounding t q x ((s.core t q).tile x.d).cols dTy i j

/-- Issues an element-wise instruction. -/
def State.issueElem (s : State) (t : Nat) (w : LumfyWord) (dTy : Nat)
    (f : State → Nat → Nat → Nat → Nat → Nat → Nat → Nat × Flags) : State :=
  s.issueTiles t w [w.args.a, w.args.b] fun s' q => s'.elementwise t q w dTy (f s' q)

/-- VADD: R229, R230, R232. -/
def execVadd (team : Nat) (x : Args) (s : State) : Result :=
  .next (s.issueElem team ⟨0x180, x⟩ x.ty fun s' q i j a b _ =>
    arith2 x.ty (s'.modeAt team q x x.ty i j) (satInfOf x) (ovfOf x) FVal.add (· + ·) a b)

/-- VSUB: R229, R230, R232. -/
def execVsub (team : Nat) (x : Args) (s : State) : Result :=
  .next (s.issueElem team ⟨0x181, x⟩ x.ty fun s' q i j a b _ =>
    arith2 x.ty (s'.modeAt team q x x.ty i j) (satInfOf x) (ovfOf x) FVal.sub (· - ·) a b)

/-- VMUL: R229, R230, R232. -/
def execVmul (team : Nat) (x : Args) (s : State) : Result :=
  .next (s.issueElem team ⟨0x182, x⟩ x.ty fun s' q i j a b _ =>
    arith2 x.ty (s'.modeAt team q x x.ty i j) (satInfOf x) (ovfOf x) FVal.mul (· * ·) a b)

/-- VDIV: R229, R230, R238. -/
def execVdiv (team : Nat) (x : Args) (s : State) : Result :=
  .next (s.issueElem team ⟨0x183, x⟩ x.ty fun s' q i j a b _ =>
    let va := vfVal x.ty a
    let vb := vfVal x.ty b
    viaF32Checked x.ty .nearest (s'.modeAt team q x x.ty i j) (satInfOf x) (va.isNan || vb.isNan) (va.div vb))

/-- VMAX: R231. -/
def execVmax (team : Nat) (x : Args) (s : State) : Result :=
  .next (s.issueElem team ⟨0x184, x⟩ x.ty fun _ _ _ _ a b _ =>
    (pick2 x.ty true a b, { }))

/-- VMIN: R231. -/
def execVmin (team : Nat) (x : Args) (s : State) : Result :=
  .next (s.issueElem team ⟨0x185, x⟩ x.ty fun _ _ _ _ a b _ =>
    (pick2 x.ty false a b, { }))

/-- VFMA: R229, D := D + A × B with one rounding. -/
def execVfma (team : Nat) (x : Args) (s : State) : Result :=
  .next (s.issueElem team ⟨0x186, x⟩ x.ty fun s' q i j a b d =>
    let va := vfVal x.ty a
    let vb := vfVal x.ty b
    let vd := vfVal x.ty d
    vfResult x.ty (s'.modeAt team q x x.ty i j) (satInfOf x) (va.isNan || vb.isNan || vd.isNan) (vd.add (va.mul vb)))

/-- VAND: R232, bitwise. -/
def execVand (team : Nat) (x : Args) (s : State) : Result :=
  .next (s.issueElem team ⟨0x187, x⟩ x.ty fun _ _ _ _ a b _ =>
    (Nat.land a b, { }))

/-- VOR: R232, bitwise. -/
def execVor (team : Nat) (x : Args) (s : State) : Result :=
  .next (s.issueElem team ⟨0x188, x⟩ x.ty fun _ _ _ _ a b _ =>
    (Nat.lor a b, { }))

/-- VXOR: R232, bitwise. -/
def execVxor (team : Nat) (x : Args) (s : State) : Result :=
  .next (s.issueElem team ⟨0x189, x⟩ x.ty fun _ _ _ _ a b _ =>
    (Nat.xor a b, { }))

/-- VSHL: R232, A × 2^c with c := B mod w. -/
def execVshl (team : Nat) (x : Args) (s : State) : Result :=
  .next (s.issueElem team ⟨0x18A, x⟩ x.ty fun _ _ _ _ a b _ =>
    match itypeOf x.ty with
    | some it => it.encode (ovfOf x) (it.decode a * (2 ^ (b % it.width) : Nat))
    | none => (a, { }))

/-- VSHR: R232, arithmetic for the signed types. -/
def execVshr (team : Nat) (x : Args) (s : State) : Result :=
  .next (s.issueElem team ⟨0x18B, x⟩ x.ty fun _ _ _ _ a b _ =>
    match itypeOf x.ty with
    | some it => (unsignedOf it.width (it.decode a / (2 ^ (b % it.width) : Nat)), { })
    | none => (a, { }))

/-- VNEG: R232; on VF types the sign inverted, a NaN canonical (R172). -/
def execVneg (team : Nat) (x : Args) (s : State) : Result :=
  .next (s.issueElem team ⟨0x190, x⟩ x.ty fun _ _ _ _ a _ _ =>
    match itypeOf x.ty with
    | some it => it.encode (ovfOf x) (-(it.decode a))
    | none => (drainFmt x.ty).encode .nearest true (vfVal x.ty a).neg)

/-- VABS: R232; on VF types the sign cleared, a NaN canonical (R172). -/
def execVabs (team : Nat) (x : Args) (s : State) : Result :=
  .next (s.issueElem team ⟨0x191, x⟩ x.ty fun _ _ _ _ a _ _ =>
    match itypeOf x.ty with
    | some it => it.encode (ovfOf x) (it.decode a).natAbs
    | none => (drainFmt x.ty).encode .nearest true (vfVal x.ty a).abs)

/-- VSQRT: R236 to R238, correctly rounded in binary32. -/
def execVsqrt (team : Nat) (x : Args) (s : State) : Result :=
  .next (s.issueElem team ⟨0x192, x⟩ x.ty fun s' q i j a _ _ =>
    let v := vfVal x.ty a
    viaF32Checked x.ty .nearest (s'.modeAt team q x x.ty i j) false v.isNan v.sqrt)

/-- VRSQRT: R236 to R238. -/
def execVrsqrt (team : Nat) (x : Args) (s : State) : Result :=
  .next (s.issueElem team ⟨0x193, x⟩ x.ty fun s' q i j a _ _ =>
    vrsqrtElem x.ty (s'.modeAt team q x x.ty i j) (satInfOf x) (vfVal x.ty a))

/-- VRCP: R236 to R238. -/
def execVrcp (team : Nat) (x : Args) (s : State) : Result :=
  .next (s.issueElem team ⟨0x194, x⟩ x.ty fun s' q i j a _ _ =>
    vrcpElem x.ty (s'.modeAt team q x x.ty i j) (satInfOf x) (vfVal x.ty a))

/-- VEXP: R236 to R238. -/
def execVexp (team : Nat) (x : Args) (s : State) : Result :=
  .next (s.issueElem team ⟨0x195, x⟩ x.ty fun s' q i j a _ _ =>
    vexpElem x.ty (s'.modeAt team q x x.ty i j) (satInfOf x) (vfVal x.ty a))

/-- VLOG: R236 to R238. -/
def execVlog (team : Nat) (x : Args) (s : State) : Result :=
  .next (s.issueElem team ⟨0x196, x⟩ x.ty fun s' q i j a _ _ =>
    vlogElem x.ty (s'.modeAt team q x x.ty i j) (vfVal x.ty a))

/-- VTANH: R236 to R238. -/
def execVtanh (team : Nat) (x : Args) (s : State) : Result :=
  .next (s.issueElem team ⟨0x197, x⟩ x.ty fun s' q i j a _ _ =>
    vfunElem .tanh (.fin true 1 0) (.fin false 1 0) x.ty (s'.modeAt team q x x.ty i j) (vfVal x.ty a))

/-- VSIGMOID: R236 to R238. -/
def execVsigmoid (team : Nat) (x : Args) (s : State) : Result :=
  .next (s.issueElem team ⟨0x198, x⟩ x.ty fun s' q i j a _ _ =>
    vfunElem .sigmoid FVal.zero (.fin false 1 0) x.ty (s'.modeAt team q x x.ty i j) (vfVal x.ty a))

/-- VGELU: R236 to R238. -/
def execVgelu (team : Nat) (x : Args) (s : State) : Result :=
  .next (s.issueElem team ⟨0x199, x⟩ x.ty fun s' q i j a _ _ =>
    vfunElem .gelu (.fin true 0 0) (.inf false) x.ty (s'.modeAt team q x x.ty i j) (vfVal x.ty a))

/-- VSILU: R236 to R238. -/
def execVsilu (team : Nat) (x : Args) (s : State) : Result :=
  .next (s.issueElem team ⟨0x19A, x⟩ x.ty fun s' q i j a _ _ =>
    vfunElem .silu (.fin true 0 0) (.inf false) x.ty (s'.modeAt team q x x.ty i j) (vfVal x.ty a))

/-- VRELU: R236: A for A > 0, else +0; a NaN canonical; no event. -/
def execVrelu (team : Nat) (x : Args) (s : State) : Result :=
  .next (s.issueElem team ⟨0x19B, x⟩ x.ty fun _ _ _ _ a _ _ =>
    let v := vfVal x.ty a
    (if v.isNan then (drainFmt x.ty).nanCode else if FVal.lt FVal.zero v then a else 0, { }))

/-- VLRELU (R236 to R238): A for A ≥ 0, slope × A rounded once for A < 0; the slope is the binary32
value in bits [31:0] of B whatever the type (R233). It has SATINF, which R236 names and the table of R159 does not
(notes/assumptions/42.md). -/
def execVlrelu (team : Nat) (x : Args) (s : State) : Result :=
  .next (s.issueElem team ⟨0x19C, x⟩ x.ty fun s' q i j a _ _ =>
    let v := vfVal x.ty a
    let slope := f32 (((s'.core team q).value x false x.b).toNat % 2 ^ 32)
    if v.isNan then ((drainFmt x.ty).nanCode, { })
    else if FVal.lt v FVal.zero then
      viaF32Checked x.ty .nearest (s'.modeAt team q x x.ty i j) (satInfOf x) slope.isNan (slope.mul v)
    else (a, { }))

/-- VCMP.EQ: R231, into a MASK1 tile. -/
def execVcmpEq (team : Nat) (x : Args) (s : State) : Result :=
  .next (s.issueElem team ⟨0x1A8, x⟩ 0x1A fun _ _ _ _ a b _ =>
    (natOf (compare2 x.ty 0 a b), { }))

/-- VCMP.LT: R231, into a MASK1 tile. -/
def execVcmpLt (team : Nat) (x : Args) (s : State) : Result :=
  .next (s.issueElem team ⟨0x1A9, x⟩ 0x1A fun _ _ _ _ a b _ =>
    (natOf (compare2 x.ty 1 a b), { }))

/-- VCMP.LE: R231, into a MASK1 tile. -/
def execVcmpLe (team : Nat) (x : Args) (s : State) : Result :=
  .next (s.issueElem team ⟨0x1AA, x⟩ 0x1A fun _ _ _ _ a b _ =>
    (natOf (compare2 x.ty 2 a b), { }))

/-- VSEL in one core (R160, R231): D := A where the mask bit is 1 and B elsewhere, bit for bit. -/
def vselCore (s : State) (t q : Nat) (w : LumfyWord) : State :=
  let k := s.core t q
  let x := w.args
  let d := k.tile x.d
  let m := k.getT (x.imm.toNat % 32)
  if elemNull k x x.ty || m.nullForCompute || m.tyN != 0x1A || m.rows != d.rows ||
      m.cols != d.cols || d.overlaps m then s.finish t q w evNull
  else
    let ta := s.readTile t q .ve (tregOf x.a) (k.tile x.a)
    let tm := s.readTile t q .ve (some (x.imm.toNat % 32)) m
    let b := s.bArg t q x (elemBits x.ty)
    let es : Elems := (coords d.rows d.cols).map fun c =>
      (if tm.code c.1 c.2 = 1 then ta.code c.1 c.2 else b.code c.1 c.2, { })
    s.vectorDone t q w d es unitScale (s.elemOutside t q x || s.coreOutside t m)

/-- VSEL (R160). -/
def execVsel (team : Nat) (x : Args) (s : State) : Result :=
  .next (s.issueTiles team ⟨0x1AB, x⟩ [x.a, x.b] fun s' q => vselCore s' team q ⟨0x1AB, x⟩)

/-- The blocks of D that VCVT quantises, one scale and 32 codes for each line and block (R187). -/
def quantTile (ty : Nat) (d : TileDesc) (mode : Nat → Nat → Rounding) (v : Nat → Nat → FVal) :
    List (List (Nat × List (Nat × Flags))) :=
  (List.range d.lines).map fun l =>
    (List.range d.lineBlocks).map fun b =>
      let at_ := (List.range 32).map fun i => d.rowCol l (32 * b + i)
      quantBlock ty (at_.map fun c => mode c.1 c.2) (at_.map fun c => v c.1 c.2)

/-- VCVT in one core (R184, R185, R187). -/
def vcvtCore (s : State) (t q : Nat) (w : LumfyWord) : State :=
  let k := s.core t q
  let x := w.args
  let a := k.tile x.a
  let d := k.tile x.d
  if a.nullForCompute || d.nullForCompute || !setVC.contains a.tyN || d.tyN != x.ty ||
      d.rows != a.rows || d.cols != a.cols || clash d a then s.finishEmpty t q w evNull
  else
    let ta := s.readTile t q .ve (tregOf x.a) a
    let bad := s.coreOutside t a || s.coreOutside t d
    if isBlockTy x.ty then
      let blocks := quantTile x.ty d (fun i j => s.modeAt t q x x.ty i j) ta.value
      let el := fun (i j : Nat) =>
        (((blocks.getD (d.lineOf i j) []).getD (d.idxOf i j / 32) (0, [])).2).getD
          (d.idxOf i j % 32) (0, { })
      let es : Elems := (coords d.rows d.cols).map fun c => el c.1 c.2
      s.vectorDone t q w d es (fun l b => ((blocks.getD l []).getD b (0, [])).1) bad
    else
      let es : Elems := (coords d.rows d.cols).map fun c =>
        convertTo x.ty (s.modeAt t q x x.ty c.1 c.2) (satInfOf x) (ovfOf x)
          (itypeOf a.tyN).isSome (ta.value c.1 c.2)
      s.vectorDone t q w d es unitScale bad

/-- VCVT (R159, R184). -/
def execVcvt (team : Nat) (x : Args) (s : State) : Result :=
  .next (s.issueTiles team ⟨0x1A0, x⟩ [x.a] fun s' q => vcvtCore s' team q ⟨0x1A0, x⟩)

/-- VRAND in one core (R261). -/
def vrandCore (s : State) (t q : Nat) (w : LumfyWord) : State :=
  let k := s.core t q
  let x := w.args
  let d := k.tile x.d
  let a := (k.value x false x.a).toNat
  let stream := a % 4096
  if d.nullForCompute || d.tyN != x.ty || stream < 0x100 || bits a 13 19 != 0 then
    s.finish t q w evNull
  else
    let tab := s.genTable t
    let b := k.value x false x.b
    let first := if bitOf a 12 then genDraws tab stream + b else b
    let es : Elems := (coords d.rows d.cols).map fun c =>
      let e := c.1 * d.cols + c.2
      let y := ((streamCall tab stream (first + BitVec.ofNat 64 (e / 4))
        (BitVec.ofNat 32 (a / 2 ^ 32)) ((s.step t).setWidth 32)).word e).toNat
      if x.ty = 0x00 then fmtF32.encode .nearest false (.fin false (y / 256) (-24)) else (y, { })
    s.vectorDone t q w d es unitScale (s.coreOutside t d)

/-- VRAND (R261). -/
def execVrand (team : Nat) (x : Args) (s : State) : Result :=
  .next (s.issueTiles team ⟨0x1B0, x⟩ [] fun s' q => vrandCore s' team q ⟨0x1B0, x⟩)

/-- ⌊p × 2^32⌋ of a binary32 p (R239). -/
def keepThreshold (p : FVal) : Nat :=
  match p.scale 32 with
  | .fin _ m e => if 0 ≤ e then scaleUp m e 0 else m / 2 ^ (-e).toNat
  | _ => 0

/-- The draws that VDROPOUT consumes for the element indexes of a D that is a tile (R239). -/
def Core.dropDraws (k : Core) (d : TileDesc) : Core :=
  if d.nullForCompute then k else { k with qd := k.qd + BitVec.ofNat 64 (ceilDiv (d.rows * d.cols) 4) }

/-- VDROPOUT in one core (R239, R240). -/
def vdropoutCore (s : State) (t q : Nat) (w : LumfyWord) : State :=
  let k := s.core t q
  let x := w.args
  let a := k.tile x.a
  let d := k.tile x.d
  let mreg := x.imm.toNat / 2 ^ 32 % 32
  let m := k.getT mreg
  if elemNull k x x.ty || m.nullForCompute || m.tyN != 0x1A || m.rows != d.rows ||
      m.cols != d.cols || d.overlaps m || m.overlaps a then
    (s.modCore t q fun k => k.dropDraws d).finish t q w evNull
  else
    let p := f32 (x.imm.toNat % 2 ^ 32)
    let g := f32 (fmtF32.encode .nearest false (FVal.div (.fin false 1 0) p)).1
    let ta := s.readTile t q .ve (tregOf x.a) a
    let kept := (coords d.rows d.cols).map fun c =>
      decide (s.coreDraw t q 2 k.qd (c.1 * d.cols + c.2) < keepThreshold p)
    let es : Elems := (coords d.rows d.cols).map fun c =>
      if kept.getD (c.1 * d.cols + c.2) false then
        let v := vfVal x.ty (ta.code c.1 c.2)
        vfResult x.ty .nearest false (v.isNan || g.isNan) (v.mul g)
      else (0, { })
    let s1 := s.modCore t q fun k => k.dropDraws d
    let s2 := s1.storeTile t q .ve (some mreg) m
      (fun i j => natOf (kept.getD (i * d.cols + j) false)) unitScale
    s2.vectorDone t q w d es unitScale (s.elemOutside t q x || s.coreOutside t m)

/-- VDROPOUT (R239). -/
def execVdropout (team : Nat) (x : Args) (s : State) : Result :=
  .next (s.issueTiles team ⟨0x1B1, x⟩ [x.a] fun s' q => vdropoutCore s' team q ⟨0x1B1, x⟩)

end Sys2Proof.Machine
end

