-- ==== Sys2Proof/Machine/Barrier.lean ====
section
/-! DEFINITION. The commit barrier at its home and at the participants (spec/13 R361 to R363, spec/12
R339 to R341, spec/15 R425, R428 to R430). -/

namespace Sys2Proof.Machine

open Sys2Proof

/-- Adds 1 to LATE_EVENTS (R63). -/
def State.lateEvent (s : State) : State := { s with time := { s.time with late := s.time.late + 1 } }

/-- The key of a barrier on another module. -/
def relKey (pc : W16) (index : Nat) : Nat := pc.toNat * 65536 + index

/-- The key of such a barrier's last release as a context received it. -/
def relKeyOf (c : W32) (pc : W16) (index : Nat) : Nat := c.toNat * 2 ^ 32 + relKey pc index

/-- Whether an answer has shown that an object of another module is poisoned (R342, R360). -/
def State.knownPoisoned (s : State) (pc : W16) (index : Nat) : Bool := s.fabric.poisoned.contains (pc, index)

/-- What this module knows of the poisoning of another module's object changes with an answer about it
(R342, notes/assumptions/65.md). -/
def State.notePoison (s : State) (pc : W16) (index : Nat) (on : Bool) : State :=
  s.modFabric fun f =>
    { f with poisoned := (f.poisoned.filter fun x => x != (pc, index)) ++ if on then [(pc, index)] else [] }

/-- The most recent release of a barrier as the update engines of this module know it (R341), and
whether the barrier is poisoned. -/
def State.lastRelease (s : State) (c : W32) (h : W64) : Option Release × Bool :=
  match s.ctx c with
  | none => (none, false)
  | some x =>
    match s.resolve c x h true with
    | .here _ i =>
      (match mapGet s.hub i with
       | some o => (o.released, o.poisoned)
       | none => (none, false))
    | .away pc _ => (mapGet s.fabric.lastRel (relKeyOf c pc (hIndex h)), s.knownPoisoned pc (hIndex h))
    | .bad => (none, false)

/-- The releases that this module received from the home of a postcode, by the index of their barriers (R430). -/
def State.heldReleases (s : State) (pc : W16) : List (Nat × Release) :=
  ((s.fabric.lastRel.filter fun x => x.1 / 65536 % 65536 == pc.toNat).map fun x => (x.1 % 65536, x.2)).eraseDups

/-- A context forgets the releases that it received (R341, R369, R420). -/
def State.forgetReleases (s : State) (c : W32) : State :=
  s.modFabric fun f => { f with lastRel := f.lastRel.filter fun x => x.1 / 2 ^ 32 != c.toNat }

/-- A barrier of another module that this module has initialised has no last release (R356). -/
def State.initAway (s : State) (pc : W16) (index : Nat) : State :=
  (s.notePoison pc index false).modFabric fun f =>
    { f with lastRel := f.lastRel.filter fun x => x.1 % 2 ^ 32 != relKey pc index }

/-- Mirroring resumes in the tables of a context whose buddy role has a new holder that arrives from this step on: with
this release that holder has joined (R427, notes/assumptions/26.md). -/
def Table.rejoined (k : Table) (step : W64) : Table :=
  match k.resumeAt with
  | some j => if j.toNat ≤ step.toNat then { k with mirrorLost := false, resumeAt := none } else k
  | none => k
def State.mirrorsResume (s : State) (c : W32) (step : W64) : State :=
  s.modCtx c fun x => { x with tables := x.tables.map fun t => (t.1, t.2.rejoined step) }

/-- A buddy role that is lost again does not join (R427). -/
def State.buddyGone (s : State) (pc : W16) : State :=
  let put (k : Table) : Table := if k.buddy = pc then { k with resumeAt := none } else k
  { s with ctxs := s.ctxs.map fun x => (x.1, { x.2 with tables := x.2.tables.map fun t => (t.1, put t.2) }) }

/-- Whether the barrier of a request has yet to release its STEP (R341). -/
def State.unreleased (s : State) (u : UpdReq) : Bool :=
  match (s.lastRelease u.ctx u.barrier).1 with
  | some r => decide (r.step.toNat < u.step.toNat)
  | none => true

/-- Changes the update requests of every team that a test picks, those of PREEMPTED contexts included. -/
def State.modRequests (s : State) (which : UpdReq → Bool) (f : UpdReq → UpdReq) : State :=
  let team (k : Team) : Team := { k with upd := { k.upd with queue := modWhere which f k.upd.queue } }
  { s with
    teams := s.teams.map fun y => (y.1, team y.2)
    ctxs := s.ctxs.map fun x => (x.1, { x.2 with saved := x.2.saved.map fun y => (y.1, team y.2) }) }

/-- Fails the update requests that wait on a barrier, with a REASON (R340, R342). -/
def State.failUpdates (s : State) (waits : W32 → W64 → Bool) (reason : Nat) : State :=
  s.modRequests (fun r => r.barrier != 0 && r.begun.isNone && waits r.ctx r.barrier && s.unreleased r)
    fun r => { r with fault := reason }

/-- A table of a context. -/
def State.table (s : State) (c : W32) (n : Nat) : Option Table :=
  match s.ctx c with
  | some x => mapGet x.tables n
  | none => none

/-- Whether a table of a context is in the pause of a TABLE_REPLACE (R306). -/
def Table.inPause (k : Table) : Bool :=
  match k.replacing with
  | some r => r.flipped.isNone
  | none => false
def State.paused (s : State) (c : W32) (n : Nat) : Bool :=
  match s.table c n with
  | some k => k.inPause
  | none => false

/-- Before a barrier's last release changes: the UPD.ROWS requests of that release's step that a pause holds keep it, and
act on it after the flip (R306). -/
def State.keepReleases (s : State) : State :=
  let due (r : UpdReq) : Option Release :=
    if r.rows && r.barrier != 0 && r.begun.isNone && r.kept.isNone && s.paused r.ctx (fieldAt r.record 0 4) then
      (s.lastRelease r.ctx r.barrier).1.filter fun x => x.step == r.step
    else none
  s.modRequests (fun r => (due r).isSome) fun r => { r with kept := due r }

/-- Whether a handle of a context names a target (R354). -/
def State.names (s : State) (tgt : Target) (c : W32) (h : W64) : Bool :=
  match s.ctx c, tgt with
  | some x, .away pc g =>
    (match s.resolve c x h true with
     | .away p k => p == pc && hIndex k == hIndex g
     | _ => false)
  | some x, _ => s.resolve c x h true == tgt
  | none, _ => false

/-- G2 in [31:0] and N in [63:32] (R363). -/
def releaseWord (r : Release) : W64 := BitVec.ofNat 64 (r.g2.toNat + r.n.toNat * 2 ^ 32)

/-- The payload of a reply or a release (notes/assumptions/20.md): the FLOW_SEQ answered, a code, a
value, and for a release its STEP and postmark. -/
def replyPayload (seq : W32) (code : Nat) (v : W64) (step at_ : W64) : List Byte :=
  leBytes 4 seq.toNat ++ leBytes 1 code ++ leBytes 8 v.toNat ++ leBytes 8 step.toNat ++ leBytes 8 at_.toNat

/-- How an arrival is answered other than by a release at its postmark. -/
inductive ArriveAnswer where
  | void | mismatch | lost | notActed
  deriving DecidableEq, Repr

/-- Answers an arrival (R340, R354, R360, R363, R429). -/
def State.answerArrival (s : State) (a : Arrival) (how : ArriveAnswer) (value : Nat) : State :=
  match a.whom with
  | .core t q tag =>
    match how with
    | .void => s.deliver t q tag (BitVec.allOnes 64)
    | .mismatch => (s.deliverFault t q tag 0 .stepMismatch).admitUnits
    | .lost => (s.deliverFault t q tag (replyWord 0x0202 value) .ownerLost).admitUnits
    | .notActed => (s.deliver t q tag 0).addEventsFor a.ctx t evAddr
  | .remote pc holder seq =>
    let send (code : Nat) (v : W64) : State := (s.sendFrame holder pc 0 2 0 0 (replyPayload seq code v 0 0)).1
    match how with
    | .void => send 0 (BitVec.allOnes 64)
    | .mismatch => send 17 0
    | .lost => send 1 (replyWord 0x0202 value)
    | .notActed => send 5 0

/-- Sends a release to the module of an arrival; one of this module takes nothing here (R362). -/
def State.sendRelease (s : State) (r : Release) (at_ : W64) (a : Arrival) : State :=
  match a.whom with
  | .core _ _ _ => s
  | .remote pc holder seq =>
    (s.sendFrame holder pc 0 2 0 0 (replyPayload seq 16 (releaseWord r) r.step at_)).1

/-- Completes an arrival of this module with a release (R363). -/
def State.completeArrival (s : State) (r : Release) (a : Arrival) : State :=
  match a.whom with
  | .core t q tag => (s.mirrorsResume a.ctx r.step).deliver t q tag (releaseWord r)
  | .remote _ _ _ => s

/-- The order of the sums (R339, R362): postcode, team, core. -/
def Arrival.key (a : Arrival) : Nat := a.postcode.toNat * 1024 + a.team * 32 + a.core

/-- A binary32 sum rounded once, a NaN canonical (R339, R429). -/
def sumF32 (a b : W32) : W32 := f32Code ((f32 a.toNat).add (f32 b.toNat))

/-- The release of a tally (R339). -/
def releaseOf (l : List Arrival) : Release :=
  let o := sortOn Arrival.key l
  ⟨match o with | a :: _ => a.step | [] => 0,
   o.foldl (fun g a => sumF32 g a.norm2) 0,
   BitVec.ofNat 32 (satTo 0xFFFFFFFF (o.foldl (fun n a => n + a.count.toNat) 0))⟩

/-- Whether the arrivals of a tally agree in STEP and CHECK (R340). -/
def agree (l : List Arrival) : Bool :=
  match l with
  | [] => true
  | a :: r => r.all fun b => b.step == a.step && b.check == a.check

/-- The release postmark (R63, R362): the first slot boundary at or after the last arrival plus
RELEASE_LEAD; 2,000 ns later where no schedule is active. -/
def State.releaseAt (s : State) : W64 :=
  match s.time.active with
  | none => s.postmark + 2000
  | some c =>
    let lead := if c.lead = 0 then 2000 else c.lead
    let p := s.postmark.toNat + lead
    BitVec.ofNat 64 (c.start.toNat + ceilDiv (p - c.start.toNat) 64 * 64)

/-- Arrivals that a release needs (R362, R428). -/
def HubObj.needed (o : HubObj) : Nat := o.expected - (o.absent.filter fun a => a.join.isNone).length

/-- Writes a hub object. -/
def State.setHub (s : State) (i : Nat) (o : HubObj) : State := { s with hub := mapPut s.hub i o }

/-- Sends the join releases that are fixed to holders that are advertised, or that this module is (R425). -/
def State.sendJoins (s : State) (l : List Absence) : State :=
  l.foldl (fun s a =>
    match a.join with
    | some r => if s.reachable a.role || (s.role a.role).isSome then s.emitOut (.joinRelease a.role r) else s
    | none => s) s

/-- Completes a tally that holds all its arrivals: the check, the release, its placing (R340, R362). -/
def State.closeTally (s : State) (i : Nat) (o : HubObj) : State :=
  let all_ := o.tally
  if agree all_ then
    let r := releaseOf all_
    let at_ := s.releaseAt
    let fixed : List Absence :=
      o.absent.map fun a => if a.covered && a.join.isNone then { a with join := some r } else a
    let o1 : HubObj :=
      { o with tally := [], last := some r, lastAt := at_, lastTo := all_, absent := fixed
               placed := o.placed ++ [⟨r, at_, all_⟩] }
    ((all_.foldl (fun s a => s.sendRelease r at_ a) (s.setHub i o1))).sendJoins
      (fixed.filter fun a => a.join == some r)
  else
    let s1 := s.setHub i { o with tally := [] }
    let s2 := all_.foldl (fun s a => s.answerArrival a .mismatch 0) s1
    let s3 := s2.failUpdates (fun c h => s2.names (.here .hub i) c h) 4
    { s3 with regs := { s3.regs with updMismatch := s3.regs.updMismatch + 1 } }

/-- Releases a barrier whose tally is full; in the window of R430 it makes no release. -/
def State.tryRelease (s : State) (i : Nat) : State :=
  match mapGet s.hub i with
  | some o =>
    if o.relay.isNone && !o.tally.isEmpty && decide (o.needed ≤ o.tally.length) then s.closeTally i o else s
  | none => s

/-- The absent set after an arrival (R428): a role leaves it with the arrival for its join step. -/
def leaves (a : Arrival) (x : Absence) : Bool :=
  x.role == a.postcode &&
  match x.join with
  | some r => a.step == r.step + 1
  | none => false

/-- An arrival joins the tally (R362, R363). -/
def State.joinTally (s : State) (i : Nat) (a : Arrival) : State :=
  match mapGet s.hub i with
  | none => s.answerArrival a .notActed 0
  | some o =>
    if !o.barrier then s.answerArrival a .notActed 0
    else if o.poisoned then s.answerArrival a .lost o.value
    else
      let o1 : HubObj :=
        { o with tally := o.tally ++ [a], absent := o.absent.filter fun x => !leaves a x }
      (s.setHub i o1).tryRelease i

/-- The arrivals on their way to a barrier that a test picks reach it now, in order (R357, R369). -/
def State.settleArrivals (s : State) (which : Nat → Arrival → Bool) : State :=
  (s.fabric.arriving.filter fun x => which x.1 x.2).foldl (fun s x => s.joinTally x.1 x.2)
    (s.modFabric fun f => { f with arriving := f.arriving.filter fun x => !which x.1 x.2 })

/-- Whether an arrival is that of a core of this module, or one that came from a role's module. -/
def Arrival.fromCore (a : Arrival) (t q : Nat) : Bool :=
  match a.whom with
  | .core t1 q1 _ => t1 == t && q1 == q
  | .remote _ _ _ => false
def Arrival.fromRole (a : Arrival) (pc : W16) : Bool :=
  match a.whom with
  | .core _ _ _ => false
  | .remote p _ _ => p == pc
def Arrival.fromHere (a : Arrival) : Bool :=
  match a.whom with
  | .core _ _ _ => true
  | .remote _ _ _ => false

/-- BARRIER_ARRIVAL (R362): the oldest arrival on its way to the barrier reaches the home. -/
def execBarrierArrival (index : Nat) (s : State) : Result :=
  .next (match s.fabric.arriving.find? fun x => x.1 == index with
    | some x =>
      (s.modFabric fun f => { f with arriving := eraseFirst (fun y => y.1 == index) f.arriving }).joinTally
        index x.2
    | none => s)


/-- Completes an arrival at a remote home with its release, which is recorded for R341 and R430. -/
def State.completeRemote (s : State) (x : Incoming) : State :=
  let key := relKeyOf x.entry.ctx x.entry.dest x.index
  (((s.keepReleases.notePoison x.entry.dest x.index false).modFabric fun f =>
    { f with lastRel := mapPut f.lastRel key x.release }).mirrorsResume x.entry.ctx x.release.step).deliver
    x.entry.team x.entry.core x.tag (releaseWord x.release)

/-- The releases of a barrier whose postmark has come take effect at its home. -/
def State.releasePlaced (s : State) (i : Nat) : State :=
  match mapGet s.hub i with
  | none => s
  | some o =>
    let due := o.placed.filter fun p => decide (p.at_.toNat ≤ s.postmark.toNat)
    due.foldl (fun s p => p.arrivals.foldl (fun s a => s.completeArrival p.release a) s)
      (s.keepReleases.setHub i
        { o with placed := o.placed.filter fun p => !decide (p.at_.toNat ≤ s.postmark.toNat)
                 released := match due.getLast? with
                   | some p => some p.release
                   | none => o.released })

/-- BARRIER_RELEASE (R363): at the release postmark every COMMIT.ARRIVE of the release completes
with G2 and N, at the home and at the arrivals' modules. -/
def execBarrierRelease (index : Nat) (s : State) : Result :=
  .next (
    if !s.inTurn 4 then s
    else
    let s1 := s.releasePlaced index
    let mine (x : Incoming) : Bool := x.index == index && decide (x.at_.toNat ≤ s.postmark.toNat)
    let due := s1.fabric.releases.filter mine
    due.foldl (fun s x => s.completeRemote x)
      (s1.modFabric fun f => { f with releases := f.releases.filter fun x => !mine x }))

/-- Voids the pending step of a barrier (R429): its tally, and the arrivals on their way. -/
def State.voidTally (s : State) (i : Nat) (o : HubObj) : State :=
  let moving := (s.fabric.arriving.filter fun x => x.1 == i).map Prod.snd
  let s1 := (s.setHub i { o with tally := [] }).modFabric fun f =>
    { f with arriving := f.arriving.filter fun x => x.1 != i }
  (o.tally ++ moving).foldl (fun s a => s.answerArrival a .void 0) s1

/-- Whether a role takes part in a barrier, as its home knows: it has arrived in the tally or in the
last release, it is absent and has yet to arrive again, or no release has yet shown who takes part
(notes/assumptions/21.md). -/
def State.takesPart (s : State) (o : HubObj) (pc : W16) : Bool :=
  o.barrier && decide (0 < o.expected) &&
  ((o.tally ++ o.lastTo).any (fun a => a.postcode == pc) || o.absent.any (fun a => a.role == pc) ||
   (o.last.isNone && match s.ctx o.owner with
     | some x => x.span == 1
     | none => false))

/-- Whether a context holds a role, or held it and recovers it (R423). -/
def State.homeOf (s : State) (c : W32) (pc : W16) : Bool :=
  s.postcodeOf c == pc || s.faults.retake.any fun r => r.1 == pc.toNat && r.2.ctx == c

/-- The home learns that a role is lost (R425, R429). The loss of the home itself is the matter of R430. -/
def State.absentAt (s : State) (pc : W16) (covered : Bool) (i : Nat) : State :=
  match mapGet s.hub i with
  | none => s
  | some o =>
    if !s.takesPart o pc || s.homeOf o.owner pc then s
    else
      let rest := o.absent.filter fun a => a.role != pc
      match o.tally, o.last with
      | [], some r =>
        let join := if covered then some r else none
        let s1 := s.setHub i { o with absent := rest ++ [⟨pc, covered, join⟩] }
        o.lastTo.foldl (fun s a => s.sendRelease r o.lastAt a) s1
      | _, _ => (s.voidTally i { o with absent := rest ++ [⟨pc, covered, none⟩] })

/-- Every barrier of this module hears of a lost role. -/
def State.absentRole (s : State) (pc : W16) (covered : Bool) : State :=
  (s.hub.map Prod.fst).foldl (fun s i => s.absentAt pc covered i) s

/-- A lost role is advertised as held again: an uncovered one gets the next release as its join
release, and a fixed join release is sent to the holder (R425). -/
def State.returnRole (s : State) (pc : W16) : State :=
  (s.hub.map Prod.fst).foldl (fun s i =>
    match mapGet s.hub i with
    | none => s
    | some o =>
      let l := o.absent.map fun a => if a.role == pc then { a with covered := true } else a
      (s.setHub i { o with absent := l }).sendJoins (l.filter fun a => a.role == pc)) s

/-- RELEASE_RELAY (R430): a release of the lost home reaches the new home within its window. -/
def execReleaseRelay (index : Nat) (release : Release) (s : State) : Result :=
  .next (match mapGet s.hub index with
    | some o =>
      (match o.relay with
       | some d =>
         if s.postmark.toNat < d.toNat then s.setHub index { o with relayed := o.relayed ++ [release] } else s
       | none => s)
    | none => s)

/-- The relayed release that a new home adopts (R430): the one for the pending step; with no arrival
pending, the latest. -/
def HubObj.adopted (o : HubObj) : Option Release :=
  match o.tally with
  | a :: _ => o.relayed.find? fun r => r.step == a.step
  | [] => (sortOn (fun r : Release => r.step.toNat) o.relayed).getLast?

/-- HOME_RELAY_WINDOW_END (R430). -/
def execHomeRelayWindowEnd (index : Nat) (s : State) : Result :=
  .next (match mapGet s.hub index with
    | some o =>
      (match o.relay with
       | some d =>
         if d.toNat ≤ s.postmark.toNat then
           let own := s.postcodeOf o.owner
           let rest := o.absent.filter fun a => a.role != own
           let o1 : HubObj := { o with relay := none, relayed := [] }
           match o.adopted with
           | some r =>
             let o2 : HubObj :=
               { o1 with tally := [], last := some r, lastAt := s.postmark, released := some r, lastTo := o.tally
                         absent := rest ++ [⟨own, true, some r⟩] }
             (o.tally.foldl (fun s a => (s.sendRelease r s.postmark a).completeArrival r a)
               (s.keepReleases.setHub index o2)).sendJoins
               [⟨own, true, some r⟩]
           | none => s.voidTally index { o1 with absent := rest ++ [⟨own, true, none⟩] }
         else s
       | none => s)
    | none => s)

/-! ### SYNC.INIT (R356, R357) -/

/-- SYNC.INIT at the object's unit (R356). -/
def State.initAt (s : State) (u : SyncUnit) (i : Nat) (barrier : Bool) (v : Nat) : State :=
  if barrier then
    match mapGet s.hub i with
    | some o =>
      let o1 := { o with expected := v, tally := [], last := none, released := none, poisoned := false }
      { s with hub := mapPut s.hub i o1 }
    | none => s
  else s.initCounter u i v

/-- One core's SYNC.INIT (R353, R354, R356). -/
def State.initCore (s : State) (t q : Nat) (w : LumfyWord) : State :=
  let h := syncA (s.core t q) w.args
  let v := syncB (s.core t q) w.args
  match s.holderOf t with
  | (c, some x) =>
    if !initInRange (hBarrier h) v then s.zeroD t q w
    else
      let s1 := s.claimHub c x h
      match s1.resolve c x h (hBarrier h) with
      | .here u i =>
        ((s1.settleArrivals fun j a => hBarrier h && j == i && a.fromCore t q).initAt u i (hBarrier h) v.toNat).complete
          t q w 0
      | .away pc _ => s1.sendSignal t q w c pc 2 h v
      | .bad => s1.zeroD t q w
  | (_, none) => s

/-- Whether an earlier arrival of a core at the barrier that it initialises is still held at this module (R304, R430): the
operations of one source apply in issue order (R357). -/
def State.initWaits (s : State) (t q : Nat) (h : W64) : Bool :=
  hBarrier h && s.fabric.remote.any fun r =>
    r.team == t && r.core == q &&
    match r.work with
    | .arrive _ index _ held => held && index == hIndex h
    | _ => false

/-- SYNC.INIT (R356). -/
def execSyncInit (team : Nat) (x : Args) (s : State) : Result :=
  .next (
    if ((s.team team).masked x.pred).any fun q => s.initWaits team q (syncA (s.core team q) x) then s
    else s.issue team ⟨0x3C2, x⟩ fun s' q => s'.initCore team q ⟨0x3C2, x⟩)

end Sys2Proof.Machine
end

