-- ==== Sys2Proof/Machine/Engines.lean ====
section
/-! DEFINITION. Team instructions and the engines of a cluster: shared operations (spec/04 R106,
spec/05 R144, R163, R164, spec/06 R197). -/

namespace Sys2Proof.Machine

open Sys2Proof

/-- Issues a team instruction: it acts once, with the operands of the lowest-numbered core whose
mask is true; with no such core it does not act (R106). -/
def State.issueTeam (s : State) (t : Nat) (w : LumfyWord) (f : State → Nat → List Nat → State) : State :=
  if s.canIssue t w then
    match (s.team t).masked w.args.pred with
    | [] => s.bumpFree.nextPc t
    | q :: rest => ((f s.bumpFree q (q :: rest)).nextPc t).settle t
  else s

/-- Writes D in every core of a list (R164), behind the earlier instructions of the unit (R119). -/
def State.putAll (s : State) (t : Nat) (qs : List Nat) (w : LumfyWord) (v : W64) : State :=
  qs.foldl (fun s q => s.complete t q w v) s

/-- Puts a team instruction on the scoreboard of every core whose mask is true. -/
def State.awaitAll (s : State) (t : Nat) (qs : List Nat) (w : LumfyWord) : State :=
  qs.foldl (fun s q => s.await t q (awaitedBy s w w.args.d false)) s

/-- Answers a team instruction in every core that awaits it. -/
def State.deliverAll (s : State) (t tag : Nat) (v : W64) : State :=
  (List.range 16).foldl (fun s q => s.deliver t q tag v) s

/-- A team instruction that does not act (R163, R164): D zero in every core, ADDR_DROP once. -/
def State.refuseAll (s : State) (t q : Nat) (qs : List Nat) (w : LumfyWord) : State :=
  (s.putAll t qs w 0).finish t q w evAddr true

/-- Whether the stream of a team's kernel has a FLAGS bit: 1 SAMPLER, 2 UPDATE (R128, R164). -/
def State.streamFlag (s : State) (t bit : Nat) : Bool :=
  match (s.team t).kernel with
  | some k => k.stream.flags.getLsbD bit
  | none => false

/-- What an engine of a cluster reads at an address of CLUSTER or STACK. -/
def State.engineView (s : State) (t : Nat) (u : EngineUnit) (p : Place) : Memory := s.view ⟨t, none, u, none⟩ p

/-- A request record of `n` bytes in CLUSTER, on a 64-byte boundary below CLUSTER_BYTES (R164). -/
def State.requestRecord (s : State) (t : Nat) (u : EngineUnit) (a : W64) (n : Nat) : Option (List Byte) :=
  if a.toNat % 64 = 0 ∧ a.toNat + n ≤ s.clusterBytes t then
    some (memRead (s.engineView t u (.cluster t)) a.toNat n)
  else none

/-- Writes of an engine, visible in the module before its DONE signal (R365). -/
def State.engineWrite (s : State) (t : Nat) (u : EngineUnit) (p : Place) (a : Nat) (bytes : List Byte) : State :=
  s.store ⟨t, none, u, none⟩ p ((List.range bytes.length).map fun i => (a + i, bytes.getD i 0))

/-- Whether a DONE handle names a live object (R263, R333). -/
def State.doneLive (s : State) (c : W32) (h : Nat) : Bool :=
  match s.ctx c with
  | some x => s.resolve c x (BitVec.ofNat 64 h) false != .bad
  | none => false

/-- Whether a handle is 0 or names a barrier (R333). -/
def State.barrierLive (s : State) (c : W32) (h : Nat) : Bool :=
  h == 0 ||
  match s.ctx c with
  | some x => s.resolve c x (BitVec.ofNat 64 h) true != .bad
  | none => false

/-- Rounds up to a multiple of 64, of 4. -/
def a64 (n : Nat) : Nat := ceilDiv n 64 * 64
def a4 (n : Nat) : Nat := ceilDiv n 4 * 4

/-- Whether the bytes [off, off + n) of a record are zero. -/
def zeroBytes (r : List Byte) (off n : Nat) : Bool := (bytesAt r off n).all (· == 0)

/-- The parts of a parcel or row handle (R274, R291): slot, whether [15:4] is zero, count, team. -/
def handleOf (slot : Nat) (count : W32) (team : Nat) : W64 :=
  BitVec.ofNat 64 (slot + count.toNat * 2 ^ 16 + team * 2 ^ 48)
def handleSlot (h : W64) : Nat := bits h.toNat 0 4

/-- The live parcel that a handle names in a cluster (R274, R275). -/
def State.parcelOf (s : State) (t : Nat) (h : W64) : Option Parcel :=
  match mapGet (s.team t).sampler.slots (handleSlot h) with
  | some p => if handleOf (handleSlot h) p.count t = h then some p else none
  | none => none

/-- The width of an identifier of a graph (R251). -/
def Graph.width (g : Graph) : Nat := if g.wide then 6 else 4

end Sys2Proof.Machine
end

