-- ==== Sys2Proof/Machine/Scan.lean ====
section
/-! DEFINITION. Scans, segmented scans and reductions (spec/05 R146, R161, R162; spec/08 R241 to R249). -/

namespace Sys2Proof.Machine

open Sys2Proof

/-- The operators of scans and reductions. -/
inductive AccOp where
  | add | max | min | mul | mean | and | or | xor
  deriving DecidableEq, Repr

/-- The operator of a SCAN or SEGSCAN row, and its offset from the first opcode (R159). -/
def scanAcc : ScanOp → AccOp
  | .add => .add | .max => .max | .min => .min | .mul => .mul | .and => .and | .or => .or
  | .xor => .xor
def scanIndex : ScanOp → Nat
  | .add => 0 | .max => 1 | .min => 2 | .mul => 3 | .and => 4 | .or => 5 | .xor => 6

/-- The operator of a SEGRED row, and its offset from the first opcode (R159). -/
def redAcc : RedOp → AccOp
  | .add => .add | .max => .max | .min => .min | .mul => .mul | .mean => .mean | .and => .and
  | .or => .or
def redIndex : RedOp → Nat
  | .add => 0 | .max => 1 | .min => 2 | .mul => 3 | .mean => 4 | .and => 5 | .or => 6

/-- The identity of an operator as a code of a type: the IDENTITY column of R146, XOR 0 (R242). -/
def identityCode (op : AccOp) (ty : Nat) : Nat :=
  let w := elemBits ty
  match op with
  | .max => match itypeOf ty with
    | some it => unsignedOf w it.lo
    | none => (drainFmt ty).infCode + (drainFmt ty).signBit true
  | .min => match itypeOf ty with
    | some it => unsignedOf w it.hi
    | none => (drainFmt ty).infCode
  | .mul => match itypeOf ty with
    | some _ => 1
    | none => ((drainFmt ty).encode .nearest true (.fin false 1 0)).1
  | .and => 2 ^ w - 1
  | _ => 0

/-- Whether a type code names a VF float type. -/
def isVF (ty : Nat) : Bool := ty == 0 || ty == 1 || ty == 2

/-- A value canonical where it is a NaN of a VF type (R172). -/
def canon (ty code : Nat) : Nat := if isVF ty then vfKeep ty code else code

/-- step of R241: the running value and an element, with what the step counted. -/
def scanStep (op : AccOp) (ty : Nat) (satInf ovf : Bool) (v a : Nat) : Nat × Flags :=
  match op with
  | .add | .mean => arith2 ty .nearest satInf ovf FVal.add (· + ·) v a
  | .mul => arith2 ty .nearest satInf ovf FVal.mul (· * ·) v a
  | .max => (pick2 ty true v a, { })
  | .min => (pick2 ty false v a, { })
  | .and => (Nat.land v a, { })
  | .or => (Nat.lor v a, { })
  | .xor => (Nat.xor v a, { })

/-- The running state of one column: value, whether it is fresh, outputs so far newest first. -/
structure Chain where
  v : Nat
  fresh : Bool
  outs : List (Nat × Flags)
  deriving DecidableEq, Repr

/-- One row of a column scan (R241). -/
def chainRow (op : AccOp) (ty : Nat) (satInf ovf excl : Bool) (c : Chain) (head : Bool) (a : Nat) : Chain :=
  let id := identityCode op ty
  let v := if head then id else c.v
  let fresh := c.fresh || head
  let r := if fresh then (canon ty a, ({ } : Flags)) else scanStep op ty satInf ovf v a
  ⟨r.1, false, (canon ty (if excl then v else r.1), r.2) :: c.outs⟩

/-- A column scan over its rows: the outputs in row order and the carry-out (R241). -/
def scanColumn (op : AccOp) (ty : Nat) (satInf ovf excl : Bool) (carry : Option Nat)
    (rows : List (Bool × Nat)) : List (Nat × Flags) × Nat :=
  let c0 : Chain := ⟨carry.getD (identityCode op ty), carry.isNone, []⟩
  let c := rows.foldl (fun c r => chainRow op ty satInf ovf excl c r.1 r.2) c0
  (c.outs.reverse, canon ty c.v)

/-- SCAN and SEGSCAN in one core (R161, R241 to R243). `heads` says whether B is a head tile. -/
def scanCore (op : AccOp) (heads : Bool) (s : State) (t q : Nat) (w : LumfyWord) : State :=
  let k := s.core t q
  let x := w.args
  let a := k.tile x.a
  let d := k.tile x.d
  let b := k.tile x.b
  let creg := x.imm.toNat % 32
  let c := k.getT creg
  if a.nullForCompute || d.nullForCompute || c.nullForCompute || a.tyN != x.ty || d.tyN != x.ty ||
      c.tyN != x.ty || d.rows != a.rows || d.cols != a.cols || c.rows != 1 || c.cols != a.cols ||
      d.overlaps a || d.overlaps c || c.overlaps a ||
      (heads && (b.nullForCompute || b.tyN != 0x1A || b.rows != a.rows || b.cols != 1 ||
        d.overlaps b || c.overlaps b)) then s.finish t q w evNull
  else
    let ta := s.readTile t q .ve (tregOf x.a) a
    let tc := s.readTile t q .ve (some creg) c
    let tb := s.readTile t q .ve (tregOf x.b) b
    let cin := x.imm.getLsbD 5
    let cols := (List.range a.cols).map fun j =>
      scanColumn op x.ty (satInfOf x) (ovfOf x) (x.imm.getLsbD 6)
        (if cin then some (tc.code 0 j) else none)
        ((List.range a.rows).map fun r => (heads && tb.code r 0 == 1, ta.code r j))
    let es : Elems := (coords a.rows a.cols).map fun rc =>
      ((cols.getD rc.2 ([], 0)).1).getD rc.1 (0, { })
    let bad := s.coreOutside t a || s.coreOutside t d || s.coreOutside t c ||
      (heads && s.coreOutside t b)
    let s1 := s.storeTile t q .ve (some creg) c (fun _ j => (cols.getD j ([], 0)).2) unitScale
    s1.vectorDone t q w d es unitScale bad

/-- Flags of an output element that counts each event at most once (R246). -/
def Flags.or (x y : Flags) : Flags :=
  { sat := x.sat || y.sat, flush := x.flush || y.flush, invalid := x.invalid || y.invalid }

/-- A step of a float sum or product in binary32 (R246). -/
def redStep (op : AccOp) (satInf : Bool) (acc : FVal × Flags) (a : FVal) : FVal × Flags :=
  let r := if op == .mul then acc.1.mul a else acc.1.add a
  let e := fmtF32.encode .nearest satInf r
  (f32 e.1, acc.2.or { e.2 with invalid := r.isNan && !acc.1.isNan && !a.isNan })

/-- The reduction of the non-empty rows of one column (R246, R247). -/
def reduceRows (op : AccOp) (ty : Nat) (satInf ovf : Bool) (rows : List Nat) : Nat × Flags :=
  match rows with
  | [] => (0, { })
  | a :: r =>
    match op with
    | .add | .mul | .mean =>
      if isVF ty then
        let s := r.foldl (fun acc a => redStep op satInf acc (vfVal ty a)) (vfVal ty a, ({ } : Flags))
        let m : FVal × Flags :=
          if op == .mean then
            let e := fmtF32.encode .nearest satInf (FVal.div s.1 (.fin false (r.length + 1) 0))
            (f32 e.1, s.2.or e.2)
          else s
        let o := (drainFmt ty).encode .nearest satInf m.1
        (o.1, m.2.or o.2)
      else
        r.foldl (fun acc a =>
          let y := scanStep op ty satInf ovf acc.1 a
          (y.1, acc.2.or y.2)) (a, { })
    | _ => (r.foldl (fun v a => (scanStep op ty satInf ovf v a).1) (canon ty a), { })

/-- VRED in one core (R246, R249): each column down its rows into a 1 × n D. -/
def vredCore (op : AccOp) (s : State) (t q : Nat) (w : LumfyWord) : State :=
  let k := s.core t q
  let x := w.args
  let a := k.tile x.a
  let d := k.tile x.d
  if a.nullForCompute || d.nullForCompute || a.tyN != x.ty || d.tyN != x.ty || d.rows != 1 ||
      d.cols != a.cols || d.overlaps a then s.finish t q w evNull
  else
    let ta := s.readTile t q .ve (tregOf x.a) a
    let es : Elems := (List.range a.cols).map fun j =>
      reduceRows op x.ty (satInfOf x) (ovfOf x) ((List.range a.rows).map fun r => ta.code r j)
    s.vectorDone t q w d es unitScale (s.coreOutside t a || s.coreOutside t d)

/-- The row range of segment i, clipped to m rows (R162, R248). -/
def segRange (m : Nat) (off : Nat → Nat) (i : Nat) : Nat × Nat := (min (off i) m, min (off (i + 1)) m)

/-- Whether segment i counts an IDX_DROP (R162). -/
def segDrop (m : Nat) (off : Nat → Nat) (i : Nat) : Bool :=
  decide (m < off i) || decide (m < off (i + 1)) || decide (off (i + 1) < off i)

/-- SEGRED in one core (R162, R246 to R249). -/
def segredCore (op : AccOp) (s : State) (t q : Nat) (w : LumfyWord) : State :=
  let k := s.core t q
  let x := w.args
  let a := k.tile x.a
  let d := k.tile x.d
  let b := k.tile x.b
  if a.nullForCompute || d.nullForCompute || b.nullForCompute || a.tyN != x.ty || d.tyN != x.ty ||
      !(b.tyN == 0x13 || b.tyN == 0x15) || b.cols != 1 || b.rows < 2 || d.rows + 1 != b.rows ||
      d.cols != a.cols || d.overlaps a || d.overlaps b then s.finish t q w evNull
  else
    let ta := s.readTile t q .ve (tregOf x.a) a
    let tb := s.readTile t q .ve (tregOf x.b) b
    let off := fun i => tb.code i 0
    let es : Elems := (coords d.rows d.cols).map fun c =>
      let r := segRange a.rows off c.1
      if r.2 ≤ r.1 then
        (if x.mod.getLsbD 5 && op != .mean then identityCode op x.ty else 0, { })
      else
        reduceRows op x.ty (satInfOf x) (ovfOf x)
          ((List.range (r.2 - r.1)).map fun i => ta.code (r.1 + i) c.2)
    let segs := List.range d.rows
    let empty := (segs.filter fun i => decide ((segRange a.rows off i).2 ≤ (segRange a.rows off i).1)).length
    let drops := (segs.filter fun i => segDrop a.rows off i).length
    let bad := s.coreOutside t a || s.coreOutside t d || s.coreOutside t b
    let s1 := s.storeTile t q .ve (tregOf x.d) d (elemCode d.cols es) unitScale
    s1.finish t q w
      (({ elemEvents d.cols es with empty := empty, idxDrop := drops } : Events).withAddr bad)

/-- VRED.ADD (R246). -/
def execVredAdd (team : Nat) (x : Args) (s : State) : Result :=
  .next (s.issueTiles team ⟨0x1C0, x⟩ [x.a] fun s' q => vredCore .add s' team q ⟨0x1C0, x⟩)

/-- VRED.MAX (R246). -/
def execVredMax (team : Nat) (x : Args) (s : State) : Result :=
  .next (s.issueTiles team ⟨0x1C1, x⟩ [x.a] fun s' q => vredCore .max s' team q ⟨0x1C1, x⟩)

/-- VRED.MIN (R246). -/
def execVredMin (team : Nat) (x : Args) (s : State) : Result :=
  .next (s.issueTiles team ⟨0x1C2, x⟩ [x.a] fun s' q => vredCore .min s' team q ⟨0x1C2, x⟩)

/-- SCAN (R161, R241). -/
def execScan (op : ScanOp) (team : Nat) (x : Args) (s : State) : Result :=
  .next (s.issueTiles team ⟨0x1C8 + scanIndex op, x⟩ [x.a, .treg (x.imm.toNat % 32)] fun s' q =>
    scanCore (scanAcc op) false s' team q ⟨0x1C8 + scanIndex op, x⟩)

/-- SEGSCAN (R161, R241): the running value restarts at head rows. -/
def execSegscan (op : ScanOp) (team : Nat) (x : Args) (s : State) : Result :=
  .next (s.issueTiles team ⟨0x1D0 + scanIndex op, x⟩ [x.a, x.b, .treg (x.imm.toNat % 32)] fun s' q =>
    scanCore (scanAcc op) true s' team q ⟨0x1D0 + scanIndex op, x⟩)

/-- SEGRED (R162, R246). -/
def execSegred (op : RedOp) (team : Nat) (x : Args) (s : State) : Result :=
  .next (s.issueTiles team ⟨0x1E0 + redIndex op, x⟩ [x.a, x.b] fun s' q =>
    segredCore (redAcc op) s' team q ⟨0x1E0 + redIndex op, x⟩)

end Sys2Proof.Machine
end

