-- ==== Sys2Proof/Machine/Coll.lean ====
section
/-! DEFINITION. Collectives (spec/14 R398 to R404). -/

namespace Sys2Proof.Machine

open Sys2Proof

/-! ### The descriptor (R398, R399, R402) -/

def Coll.isRed (c : Coll) : Bool := c.word.code == 0x3E0 || c.word.code == 0x3E2
def Coll.isHalo (c : Coll) : Bool := c.word.code == 0x3E4
def Coll.dtype (c : Coll) : Nat := fieldAt c.desc 0x00 1
def Coll.redop (c : Coll) : Nat := fieldAt c.desc 0x01 1
def Coll.sched (c : Coll) : Bool := bitOf (fieldAt c.desc 0x02 1) 0
def Coll.noData (c : Coll) : Bool := bitOf (fieldAt c.desc 0x02 1) 1
def Coll.members (c : Coll) : Nat := fieldAt c.desc 0x03 1
def Coll.root (c : Coll) : Nat := fieldAt c.desc 0x04 1
def Coll.size (c : Coll) : Nat := fieldAt c.desc 0x08 8
def Coll.src (c : Coll) : Nat := fieldAt c.desc 0x10 8
def Coll.dst (c : Coll) : Nat := fieldAt c.desc 0x18 8
def Coll.count (c : Coll) : Nat := fieldAt c.desc 0x20 4
def Coll.exclude (c : Coll) : Nat := fieldAt c.desc 0x28 8
def Coll.haloList (c : Coll) : Nat := fieldAt c.desc 0x30 8
def Coll.haloSends (c : Coll) : Nat := fieldAt c.desc 0x38 4
def Coll.haloRecvs (c : Coll) : Nat := fieldAt c.desc 0x3C 4

/-- The postcode of a rank. -/
def Coll.member (c : Coll) (r : Nat) : W16 := BitVec.ofNat 16 (fieldAt c.desc (0x40 + 2 * r) 2)

/-- The included ranks in rank order (R399). -/
def Coll.included (c : Coll) : List Nat := (List.range c.members).filter fun r => !bitOf c.exclude r

/-- The rank of a postcode among the included members. -/
def Coll.rankOf (c : Coll) (pc : W16) : Option Nat := c.included.find? fun r => c.member r == pc

/-- The included index of a rank. -/
def Coll.indexOf (c : Coll) (r : Nat) : Nat := (c.included.filter fun x => decide (x < r)).length

/-- The postcodes of the other included members. -/
def Coll.peers (c : Coll) : List W16 := (c.included.map c.member).filter fun pc => pc != c.role

/-- The included index of this member. -/
def Coll.me (c : Coll) : Nat := c.indexOf ((c.rankOf c.role).getD 0)

/-- Bytes of an element, elements of a full shard, and elements of shard `i` (R402). -/
def Coll.width (c : Coll) : Nat := elemBits c.dtype / 8
def Coll.per (c : Coll) : Nat := ceilDiv c.size c.included.length
def Coll.shardLen (c : Coll) (i : Nat) : Nat := min ((i + 1) * c.per) c.size - i * c.per

/-- Bytes that one contributor sends to included member `i` for the reduction. -/
def Coll.len1 (c : Coll) (i : Nat) : Nat := if c.isRed then c.shardLen i * c.width else 0

/-- Bytes that included member `i` sends to every member as a result, and their place in DST. -/
def Coll.len2 (c : Coll) (i : Nat) : Nat :=
  if c.word.code = 0x3E2 then c.shardLen i * c.width
  else if c.word.code = 0x3E1 then c.size
  else if c.word.code = 0x3E3 ∧ i = c.indexOf c.root then c.size
  else 0
def Coll.place2 (c : Coll) (i : Nat) : Nat :=
  if c.word.code = 0x3E2 then c.dst + i * c.per * c.width
  else if c.word.code = 0x3E1 then c.dst + i * c.size
  else c.dst

/-- Bytes of SRC and DST that the collective uses (R402). -/
def Coll.srcLen (c : Coll) : Nat := if c.isRed then c.size * c.width else c.size
def Coll.dstLen (c : Coll) : Nat :=
  if c.word.code = 0x3E0 then c.len1 c.me
  else if c.word.code = 0x3E2 then c.size * c.width
  else if c.word.code = 0x3E1 then c.included.length * c.size
  else c.size

/-- Whether the fields meet R398. -/
def Coll.fieldsOk (c : Coll) : Bool :=
  let d := c.desc
  let halo := c.isHalo
  (if c.isRed then [0, 1, 2, 0x13].contains c.dtype && decide (c.redop ≤ 2) &&
      decide (1 ≤ c.size) && decide (c.size ≤ 2 ^ 34)
   else c.dtype == 0 && c.redop == 0 &&
      (if halo then c.size == 0
       else c.size % 64 == 0 && decide (64 ≤ c.size) && decide (c.size ≤ 2 ^ 36))) &&
  decide (fieldAt d 2 1 < 4) && decide (1 ≤ c.members) && decide (c.members ≤ 64) &&
  (if c.word.code = 0x3E3 then decide (c.root < c.members) else c.root == 0) &&
  zeroBytes d 0x05 3 && c.src % 64 == 0 && c.dst % 64 == 0 && zeroBytes d 0x24 4 &&
  (halo || c.haloList == 0) && (!halo || decide (c.haloSends ≤ 65536)) &&
  zeroBytes d (0x40 + 2 * c.members) (128 - 2 * c.members) && zeroBytes d 0xC0 64

/-- Whether the collective acts (R399). -/
def State.collOk (s : State) (c : Coll) (x : Ctx) : Bool :=
  c.fieldsOk && (s.role c.role).isSome &&
  ((List.range c.members).filter fun r => c.member r == c.role).length == 1 &&
  (c.rankOf c.role).isSome &&
  !(c.word.code == 0x3E3 && bitOf c.exclude c.root) &&
  (c.isHalo || (s.rangeInRegion x c.src c.srcLen && s.rangeInRegion x c.dst c.dstLen))

/-- CRC-32 of what every member must give alike (R399): opcode, DTYPE, REDOP, G, ROOT, SIZE, EXCLUDE,
MEMBERS, in this order. -/
def Coll.crc (c : Coll) : W32 :=
  crc32 (leBytes 2 c.word.code ++ [BitVec.ofNat 8 c.dtype, BitVec.ofNat 8 c.redop, BitVec.ofNat 8 c.members,
    BitVec.ofNat 8 c.root] ++ leBytes 8 c.size ++ leBytes 8 c.exclude ++ bytesAt c.desc 0x40 128)

/-! ### Sending -/

/-- Whether a collective is the one of a role and number. -/
def Coll.is (c : Coll) (role : W16) (number : W32) : Bool := c.role == role && c.number == number

/-- Ends a collective early with a status, which stays the first one (R403). -/
def State.failColl (s : State) (role : W16) (number : W32) (status : W16) : State :=
  let put (y : Coll) : Coll := { y with status := if y.status = 0 then status else y.status }
  s.modFabric fun f => { f with colls := modWhere (fun y => y.is role number) put f.colls }

/-- Counts ADDR_DROP once for a collective (R116). -/
def State.collDrop (s : State) (role : W16) (number : W32) : State :=
  let put (y : Coll) : Coll := { y with ev := { y.ev with addrDrop := 1 } }
  s.modFabric fun f => { f with colls := modWhere (fun y => y.is role number) put f.colls }

/-- Bytes of a data frame and of a mailbag. -/
def frameChunk : Nat := 4080
def bagChunk : Nat := 12800

/-- The payloads of a collective's frames: 0 the first message, 1 a mismatch, 2 data, 3 bytes of a HALO dropped. -/
def helloPayload (c : Coll) : List Byte :=
  leBytes 1 0 ++ leBytes 4 c.number.toNat ++ leBytes 4 c.crc.toNat ++ leBytes 4 c.count ++
  leBytes 1 (natOf c.noData)
def abortPayload (number : W32) : List Byte := leBytes 1 1 ++ leBytes 4 number.toNat
def dropPayload (c : Coll) : List Byte := leBytes 1 3 ++ leBytes 4 c.number.toNat
def dataPayload (c : Coll) (index : Nat) (data : List Byte) : List Byte :=
  leBytes 1 2 ++ leBytes 4 c.number.toNat ++ leBytes 4 index ++ data

/-- The message that a payload stands for. -/
def collMsgOf (p : List Byte) : CollMsg :=
  let what := fieldAt p 0 1
  if what = 0 then .hello (BitVec.ofNat 32 (fieldAt p 5 4)) (BitVec.ofNat 32 (fieldAt p 9 4)) (fieldAt p 13 1 == 1)
  else if what = 1 then .abort
  else if what = 3 then .dropped
  else .frame (fieldAt p 5 4) (p.drop 9)

/-- Keeps a message for a collective of a role of this module until it is looked at (R400). -/
def State.keepEarly (s : State) (role : W16) (number : W32) (src : W16) (m : CollMsg) : State :=
  s.modFabric fun f => { f with early := f.early ++ [⟨role, number, src, m⟩] }

/-- Sends a message of a collective (KIND 9, notes/assumptions/20.md) and remembers it, so that its
return resolves the collective (R386); one that is parked counts as returned. To a role of this module itself it goes
without a frame, and is taken when that role's collective is next looked at. -/
def State.sendColl (s : State) (c : Coll) (dest : W16) (cls : Nat) (payload : List Byte) : State :=
  if (s.role dest).isSome then s.keepEarly dest c.number c.role (collMsgOf payload)
  else
    let r := s.sendFrame c.role dest cls 9 0 c.ctx payload
    if r.2.1 then
      r.1.modFabric fun f =>
        { f with remote := f.remote ++ [⟨r.2.2, c.role, dest, c.team, c.core, c.ctx, c.seq, .coll c.role c.number⟩] }
    else
      r.1.failColl c.role c.number 0x0201

/-- The channels of the active schedule from a role to a postcode, in ascending order (R401). -/
def State.channelsTo (s : State) (src dest : W16) : List W16 :=
  match s.time.active with
  | some a => if (s.role dest).isSome then [] else (a.channels.filter fun x => x.src == src && x.dest == dest).map fun x => x.id
  | none => []

/-- Queues a mailbag on a channel, in collective order (R390, R400, R401); SLOT, VERSION, CHAN_SEQ and ROUND are set at
its sending. -/
def State.queueBag (s : State) (c : Coll) (dest ch : W16) (index : Nat) (data : List Byte) : State :=
  let epoch : W16 := match s.route dest with | some r => r.epoch | none => 0
  let own : W16 := match s.role c.role with | some r => r.epoch | none => 0
  let issued : W32 := match s.role c.role with | some r => r.issued | none => 0
  let m : Mailbag :=
    ⟨dest, epoch, c.role, own, 0, 0, ch, 0, c.number, BitVec.ofNat 32 index, 0, bytesAt data 0 bagChunk⟩
  s.modFabric fun f =>
    { f with chans := mapMod f.chans { } ch.toNat fun k =>
        { k with queue := insertOn (fun y : Mailbag => (y.collective - issued).toNat) m k.queue } }

/-- The pieces of a list of bytes. -/
def chunksOf (n : Nat) (l : List Byte) : List (List Byte) :=
  (List.range (ceilDiv l.length n)).map fun i => (l.drop (n * i)).take n

/-- Sends a transfer to a peer (R401): in mailbags, one on each channel in turn, or in DATA frames.
`before` is how many bytes an earlier transfer to this peer had. -/
def State.sendTransfer (s : State) (c : Coll) (dest : W16) (before : Nat) (data : List Byte) : State :=
  let chans := if c.sched then s.channelsTo c.role dest else []
  if chans.isEmpty then
    ((chunksOf frameChunk data).foldl (fun (x : State × Nat) d =>
      (x.1.sendColl c dest 3 (dataPayload c x.2 d), x.2 + 1)) (s, ceilDiv before frameChunk)).1
  else
    ((chunksOf bagChunk data).foldl (fun (x : State × Nat × Nat) d =>
      (x.1.queueBag c dest (chans.getD (x.2.2 % chans.length) 0) x.2.1 d, x.2.1 + 1, x.2.2 + 1))
      (s, ceilDiv before bagChunk, 0)).1

/-- Sends the same result bytes to every peer. -/
def State.sendResult (s : State) (c : Coll) (data : List Byte) : State :=
  c.peers.foldl (fun s pc =>
    s.sendTransfer c pc (c.len1 (c.indexOf ((c.rankOf pc).getD 0))) data) s

/-! ### Progress -/

def State.collOf (s : State) (role : W16) (number : W32) : Option Coll :=
  s.fabric.colls.find? fun c => c.is role number

def State.setColl (s : State) (c : Coll) : State :=
  s.modFabric fun f => { f with colls := modWhere (fun y => y.is c.role c.number) (fun _ => c) f.colls }

/-- Writes result bytes and keeps the old ones (R403). -/
def State.collWrite (s : State) (c : Coll) (a : Nat) (data : List Byte) : State :=
  let old := (List.range data.length).map fun i => (a + i, memGet s.stack (a + i))
  (s.engineWrite c.team .sy .stack a data).setColl { c with old := old ++ c.old }

/-- The bytes of a stage that came from a source, and whether they are all. -/
def gotAll (m : SMap (SMap (List Byte))) (i len : Nat) : Bool :=
  decide (len ≤ ((mapGetD m [] i).map fun x => x.2.length).foldl (· + ·) 0)
def gotBytes (m : SMap (SMap (List Byte))) (i : Nat) : List Byte := (mapGetD m [] i).flatMap fun x => x.2

/-- Whether the first message of every included member is in. -/
def Coll.heard (c : Coll) : Bool := c.included.all fun r => (mapGet c.hello r).isSome

/-- The ranks that contribute to a reduction. -/
def Coll.contributors (c : Coll) : List Nat :=
  c.included.filter fun r => match mapGet c.hello r with | some h => !h.2 | none => false

/-- One element of a reduction over the contributions in rank order (R403). -/
def reduceElem (dtype redop : Nat) (l : List Nat) : Nat × Flags :=
  if redop = 0 ∧ dtype = 0x13 then
    match itypeOf 0x13 with
    | some it => it.encode false ((l.map it.decode).foldl (· + ·) 0)
    | none => (0, { })
  else reduceRows (if redop = 0 then .add else if redop = 1 then .max else .min) dtype false false l

/-- The owner reduces its shard (R402, R403): DST of a REDSCAT, or its part of an ALLREDUCE, which it
sends to every peer. -/
def State.collReduce (s : State) (c : Coll) : State :=
  let w := c.width
  let n := c.shardLen c.me
  let ins := c.contributors.map fun r => gotBytes c.stage1 (c.indexOf r)
  let rs := (List.range n).map fun e => reduceElem c.dtype c.redop (ins.map fun b => fieldAt b (e * w) w)
  let data := rs.flatMap fun r => leBytes w r.1
  let ev : Events := rs.foldl (fun e r => e.count 0 0 r.2) c.ev
  let c1 : Coll := { c with reduced := true, ev := { ev with invAt := none, satAt := none, flushAt := none } }
  let s1 := (s.setColl c1).collWrite c1 (if c.word.code = 0x3E0 then c.dst else c.place2 c.me) data
  if c.word.code = 0x3E2 then
    match s1.collOf c.role c.number with
    | some c2 => s1.sendResult c2 data
    | none => s1
  else s1

/-- Reduces once every contribution is in. -/
def State.advance (s : State) (role : W16) (number : W32) : State :=
  match s.collOf role number with
  | some c =>
    if c.isRed && c.running && !c.reduced && c.status == 0 && c.heard &&
        c.contributors.all (fun r => gotAll c.stage1 (c.indexOf r) (c.len1 c.me)) then s.collReduce c
    else s
  | none => s

/-- Data of a transfer from included member `i`. -/
def State.collData (s : State) (c : Coll) (i chunk index : Nat) (data : List Byte) : State :=
  let l1 := c.len1 c.me
  let n1 := ceilDiv l1 chunk
  if index < n1 then
    let off := index * chunk
    let d := data.take (l1 - off)
    s.setColl { c with stage1 := mapMod c.stage1 [] i fun m => mapPut m off d }
  else
    let off := (index - n1) * chunk
    let d := data.take (c.len2 i - off)
    let c1 : Coll := { c with stage2 := mapMod c.stage2 [] i fun m => mapPut m off d }
    (s.setColl c1).collWrite c1 (c.place2 i + off) d

/-- Ends a collective whose values are not those of every other member (R399), and tells its peers and a sender. -/
def State.collMismatch (s : State) (c : Coll) (src : W16) : State :=
  (c.peers ++ if c.peers.contains src then [] else [src]).foldl (fun s pc => s.sendColl c pc 2 (abortPayload c.number))
    (s.failColl c.role c.number 0x0102)

/-- A part of a HALO transfer in a mailbag (R401, R404, notes/assumptions/20.md): the byte offset in the region, the
number of bytes, the entry of the sender's list, how many parts it has, the bytes. -/
def haloBag (off entry parts : Nat) (data : List Byte) : List Byte :=
  leBytes 8 off ++ leBytes 4 data.length ++ leBytes 4 entry ++ leBytes 4 parts ++ data

/-- Counts a part of a transfer that came in mailbags, each of which is delivered once: the transfer is received when all its
parts are in, in whatever order their channels bring them (R401, R404). -/
def Coll.part (c : Coll) (src : W16) (entry n : Nat) : Coll :=
  let mine (p : W16 × Nat × Nat) : Bool := p.1 == src && p.2.1 == entry
  let had := match c.parts.find? mine with | some p => p.2.2 | none => 0
  let rest := c.parts.filter fun p => !mine p
  if n ≤ had + 1 then { c with parts := rest, received := c.received + 1 }
  else { c with parts := rest ++ [(src, entry, had + 1)] }

/-- Writes a part of a HALO transfer that came in a mailbag; its sender hears of dropped bytes (R116, R404). -/
def State.takeHaloBag (s : State) (c : Coll) (src : W16) (p : List Byte) : State :=
  match s.ctx c.ctx with
  | none => s
  | some x =>
    let off := fieldAt p 0 8
    let data := bytesAt p 20 (fieldAt p 8 4)
    let s1 := s.busWrite (s.regionCells x off data)
    let s2 := if s.regionDrops x off data.length then s1.sendColl c src 2 (dropPayload c) else s1
    s2.setColl (c.part src (fieldAt p 12 4) (fieldAt p 16 4))

/-- A message of a running collective from a peer. Whatever it is said to take part, a first message with other values is a
mismatch (R399); else one from a postcode that takes no part is dropped. -/
def State.collTake (s : State) (c : Coll) (src : W16) (m : CollMsg) : State :=
  match m with
  | .abort => s.failColl c.role c.number 0x0102
  | .dropped => s.collDrop c.role c.number
  | .hello crc count noData =>
    if crc ≠ c.crc then s.collMismatch c src
    else
      match c.rankOf src with
      | some r => (s.setColl { c with hello := mapPut c.hello r (count, noData) }).advance c.role c.number
      | none => s
  | .halo => s.setColl { c with received := c.received + 1 }
  | .frame index data =>
    match c.rankOf src with
    | some r => (s.collData c (c.indexOf r) frameChunk index data).advance c.role c.number
    | none => s
  | .bag index data =>
    match c.rankOf src with
    | some r =>
      if c.isHalo then s.takeHaloBag c src data
      else (s.collData c (c.indexOf r) bagChunk index data).advance c.role c.number
    | none => s

/-- Tells a sender whose values are not those of a collective that has ended here (R399). -/
def State.abortSender (s : State) (role : W16) (number : W32) (src : W16) (c : W32) : State :=
  if (s.role src).isSome then s.keepEarly src number role .abort
  else (s.sendFrame role src 2 9 0 c (abortPayload number)).1

/-- A message for a collective of a role by its number (R400): taken by a running one, kept for one
that has not begun here. One that has ended drops it, but answers a first message of other values (R399). -/
def State.collMessage (s : State) (role : W16) (number : W32) (src : W16) (m : CollMsg) : State :=
  match s.collOf role number with
  | some c => if c.running then s.collTake c src m else s.keepEarly role number src m
  | none =>
    match s.role role with
    | some r =>
      if (number - r.issued).toNat < 2 ^ 31 then s.keepEarly role number src m
      else
        match m with
        | .hello crc _ _ =>
          if s.fabric.ended.any fun e => e.1 == role && e.2.1 == number && e.2.2 != crc then
            s.abortSender role number src r.ctx
          else s
        | _ => s
    | none => s

/-- Takes the messages that were kept for a collective, once it runs (R400). -/
def State.takeEarly (s : State) (role : W16) (number : W32) : State :=
  let mine := s.fabric.early.filter fun e => e.role == role && e.number == number
  let s1 := s.modFabric fun f => { f with early := f.early.filter fun e => !(e.role == role && e.number == number) }
  mine.foldl (fun s e =>
    match s.collOf role number with
    | some y => s.collTake y e.src e.msg
    | none => s) s1

/-! ### Beginning -/

/-- One entry of a HALO send list (R404). -/
structure HaloEntry where
  peer  : W16
  src   : Nat
  dst   : Nat
  bytes : Nat
  ok    : Bool
  deriving DecidableEq, Repr

/-- The bytes of a HALO send list in the region of its context; what is not usable reads as zero (R116, R404). -/
def State.haloList (s : State) (c : Coll) (x : Ctx) (m : Memory) : List Byte :=
  (List.range (32 * c.haloSends)).map fun i =>
    if s.stackUsable x (c.haloList + i) then memGet m (c.haloList + i) else 0

/-- The entries of a HALO send list; `ok` says whether an entry meets R404. -/
def haloEntries (c : Coll) (l : List Byte) : List HaloEntry :=
  (List.range c.haloSends).map fun i =>
    let e := bytesAt l (32 * i) 32
    let pc : W16 := BitVec.ofNat 16 (fieldAt e 0 2)
    ⟨pc, fieldAt e 8 8, fieldAt e 0x10 8, fieldAt e 0x18 4,
     ((List.range c.members).any fun r => c.member r == pc) && zeroBytes e 2 6 && zeroBytes e 0x1C 4 &&
       fieldAt e 0x18 4 % 64 == 0⟩

/-- Sends one part of a HALO transfer as a FABRIC write (R404). -/
def State.haloPart (s : State) (c : Coll) (dest : W16) (off : Nat) (data : List Byte) (last : Bool) : State :=
  let r := s.sendFrame c.role dest 3 3 0 c.ctx (writePayload (if last then 2 else 1) c.number.toNat off data)
  if r.2.1 then
    r.1.modFabric fun f =>
      { f with remote := f.remote ++ [⟨r.2.2, c.role, dest, c.team, c.core, c.ctx, c.seq, .halo c.role c.number⟩] }
  else r.1.collDrop c.role c.number

/-- A transfer of a HALO into the region of a context of this module (R404). -/
def State.haloHere (s : State) (c : Coll) (x : Ctx) (off : Nat) (data : List Byte) : State :=
  let s1 := s.store ⟨c.team, none, .sy, none⟩ .stack (s.regionCells x off data)
  if s.regionDrops x off data.length then s1.collDrop c.role c.number else s1

/-- One transfer of a HALO, the entry of a number of its list (R401, R404): into this module's own region, or that of another
role of this module; in mailbags where SCHED is set and a channel leads to the peer; else as FABRIC writes. -/
def State.haloSend (s : State) (c : Coll) (x : Ctx) (m : Memory) (number : Nat) (e : HaloEntry) : State :=
  let data := (List.range e.bytes).map fun i => if s.stackUsable x (e.src + i) then memGet m (e.src + i) else 0
  let s0 := if (List.range e.bytes).any fun i => !s.stackUsable x (e.src + i)
    then s.collDrop c.role c.number else s
  let chans := if c.sched then s.channelsTo c.role e.peer else []
  if e.peer = c.role then
    let s2 := s0.haloHere c x e.dst data
    match s2.collOf c.role c.number with
    | some y => s2.setColl { y with received := y.received + 1 }
    | none => s2
  else
    match (s.role e.peer).bind fun r => s.ctx r.ctx with
    | some y => (s0.haloHere c y e.dst data).keepEarly e.peer c.number c.role .halo
    | none =>
      if chans.isEmpty then
        let parts := if data.isEmpty then [[]] else chunksOf 4032 data
        (parts.foldl (fun (a : State × Nat) d =>
          (a.1.haloPart c e.peer (e.dst + 4032 * a.2) d (a.2 + 1 == parts.length), a.2 + 1)) (s0, 0)).1
      else
        let parts := if data.isEmpty then [[]] else chunksOf 12736 data
        (parts.foldl (fun (a : State × Nat) d =>
          (a.1.queueBag c e.peer (chans.getD (a.2 % chans.length) 0) a.2
            (haloBag (e.dst + 12736 * a.2) number parts.length d), a.2 + 1)) (s0, 0)).1

/-- The own part of a collective as it begins: data sent, and what this member gives itself. -/
def State.collOwn (s : State) (c : Coll) (x : Ctx) : State :=
  let m := s.engineView c.team .sy .stack
  let src := memRead m c.src c.srcLen
  let mine (i : Nat) : List Byte := (src.drop (i * c.per * c.width)).take (c.len1 i)
  if c.isRed then
    if c.noData then s
    else
      (c.peers.foldl (fun s pc => s.sendTransfer c pc 0 (mine (c.indexOf ((c.rankOf pc).getD 0)))) s).setColl
        { c with stage1 := mapPut c.stage1 c.me [(0, mine c.me)] }
  else if c.isHalo then
    let es := haloEntries c (s.haloList c x m)
    let s1 := if (List.range (32 * c.haloSends)).any fun i => !s.stackUsable x (c.haloList + i)
      then s.collDrop c.role c.number else s
    if es.all fun e => e.ok then es.zipIdx.foldl (fun s e => s.haloSend c x m e.2 e.1) s1
    else s1.failColl c.role c.number 0x0102
  else if c.word.code = 0x3E3 ∧ c.me ≠ c.indexOf c.root then s
  else (s.sendResult c src).collWrite c (c.place2 c.me) src

/-- Begins a collective: first messages, own data, then the messages that came early. One that includes a role that is lost
ends with ROLE_CHANGED (R423). -/
def State.beginColl (s : State) (c : Coll) : State :=
  match s.ctx c.ctx, c.rankOf c.role with
  | some x, some r =>
    let c1 : Coll :=
      { c with running := true, hello := mapPut c.hello r (BitVec.ofNat 32 c.count, c.noData) }
    if c.peers.any fun pc => s.lost pc then
      ((s.setColl c1).failColl c.role c.number 0x0201).takeEarly c.role c.number
    else
    let s1 := c.peers.foldl (fun s pc => s.sendColl c1 pc 2 (helloPayload c1)) (s.setColl c1)
    ((s1.collOwn c1 x).advance c.role c.number).takeEarly c.role c.number
  | _, _ => s

/-- Begins waiting collectives while fewer than 8 are in progress (R400). -/
def State.beginNext (s : State) : State :=
  if 8 ≤ (s.fabric.colls.filter fun c => c.running).length then s
  else
    match s.fabric.colls.find? fun c => !c.running with
    | some c => s.beginColl c
    | none => s

/-- One core's collective instruction (R398, R399). -/
def State.collCore (s : State) (t q : Nat) (w : LumfyWord) : State :=
  let a := ((s.core t q).value w.args false w.args.a).toNat
  match s.holderOf t with
  | (cid, some x) =>
    let role := s.postcodeOf cid
    let seq : W64 := match (s.team t).kernel with | some k => k.seq | none => 0
    let number : W32 := match s.role role with | some r => r.issued | none => 0
    if a % 64 = 0 ∧ a + 256 ≤ s.clusterBytes t then
      let d := memRead (s.view ⟨t, some q, .sy, none⟩ (.cluster t)) a 256
      let c : Coll := { role, number, team := t, core := q, ctx := cid, seq, tag := s.free, word := w, desc := d }
      if s.collOk c x then
        let s1 := (s.markExternal t).await t q (awaitedBy s w w.args.d true)
        let s2 := s1.modFabric fun f =>
          { f with colls := f.colls ++ [c]
                   ended := f.ended.filter fun e => !(e.1 == role && e.2.1 == number)
                   roles := f.roles.map fun r =>
                     if r.1 = role.toNat then (r.1, { r.2 with issued := r.2.issued + 1 }) else r }
        s2.beginNext
      else s.zeroD t q w
    else s.zeroD t q w
  | (_, none) => s

/-- COLL.REDSCAT (R402). -/
def execCollRedscat (team : Nat) (x : Args) (s : State) : Result :=
  .next (s.issue team ⟨0x3E0, x⟩ fun s q => s.collCore team q ⟨0x3E0, x⟩)

/-- COLL.ALLGATHER (R402). -/
def execCollAllgather (team : Nat) (x : Args) (s : State) : Result :=
  .next (s.issue team ⟨0x3E1, x⟩ fun s q => s.collCore team q ⟨0x3E1, x⟩)

/-- COLL.ALLREDUCE (R402). -/
def execCollAllreduce (team : Nat) (x : Args) (s : State) : Result :=
  .next (s.issue team ⟨0x3E2, x⟩ fun s q => s.collCore team q ⟨0x3E2, x⟩)

/-- COLL.BCAST (R402). -/
def execCollBcast (team : Nat) (x : Args) (s : State) : Result :=
  .next (s.issue team ⟨0x3E3, x⟩ fun s q => s.collCore team q ⟨0x3E3, x⟩)

/-- COLL.HALO (R404). -/
def execCollHalo (team : Nat) (x : Args) (s : State) : Result :=
  .next (s.issue team ⟨0x3E4, x⟩ fun s q => s.collCore team q ⟨0x3E4, x⟩)

/-! ### Completion (R403) -/

/-- Whether a HALO has frames or mailbags that are not acknowledged (R404). -/
def State.haloOpen (s : State) (c : Coll) : Bool :=
  let mine (m : Mailbag) : Bool := m.originPostcode == c.role && m.collective == c.number
  (s.fabric.remote.any fun r => r.work == .halo c.role c.number) ||
  (s.fabric.retained.any fun r => mine r.bag) || s.fabric.chans.any fun k => k.2.queue.any mine

/-- Whether a collective can end. -/
def State.collReady (s : State) (c : Coll) : Bool :=
  c.running &&
  (c.status != 0 ||
   (c.heard && (!c.isRed || c.reduced) &&
    (c.included.all fun r => c.indexOf r == c.me || gotAll c.stage2 (c.indexOf r) (c.len2 (c.indexOf r))) &&
    (!c.isHalo || (!s.haloOpen c && decide (c.haloRecvs ≤ c.received)))))

/-- The value in [63:32] of the reply. -/
def Coll.value (c : Coll) : Nat :=
  if c.isRed then
    satTo 0xFFFFFFFF (c.hello.foldl (fun n h => if h.2.2 then n else n + h.2.1.toNat) 0)
  else if c.isHalo then c.received
  else c.included.length

/-- The bytes of DST after a collective that failed: for each 64-byte unit, free between the old
content and what was written (R403). -/
def State.collUndo (s : State) (c : Coll) : State :=
  let m := (undoEntry s.free 65537 ⟨c.team, none, .sy, none⟩ (s.stack, []) c.old).1
  let cells := (c.old.map fun x => (x.1, memGet m x.1))
  s.bumpFree.writeStack cells

/-- Counts the events of a collective for the launch that issued it, and answers its core. Where a fault of the launch has
ended the wait the instruction does not complete, and nothing is counted (R122, R197). -/
def State.collAnswer (s : State) (c : Coll) : State :=
  let t := c.team
  let q := c.core
  if (s.team t).awaits q c.tag then
    (s.finish t q c.word c.ev).deliver t q c.tag (replyWord c.status.toNat c.value)
  else
    match s.savedAwaiting t q c.tag with
    | some h => (s.modCtx h fun x => { x with counters := addCounters x.counters c.ev }).deliver t q c.tag
        (replyWord c.status.toNat c.value)
    | none => s

/-- Ends a collective that is ready (R403). -/
def State.endColl (s : State) (role : W16) (number : W32) : State :=
  match s.collOf role number with
    | some c =>
      if s.collReady c then
        let s1 := s.modFabric fun f =>
          { f with colls := f.colls.filter fun y => !y.is role number
                   ended := f.ended ++ [(role, number, c.crc)]
                   remote := f.remote.filter fun r => !(r.work == .coll role number) && !(r.work == .halo role number) }
        ((if c.status = 0 then s1 else s1.collUndo c).collAnswer c).beginNext
      else s
    | none => s

/-- COLLECTIVE_COMPLETE (R403): once what other roles of this module sent has been taken, the reply is written to D, and
a waiting collective may begin. -/
def execCollectiveComplete (role : W16) (number : W32) (s : State) : Result :=
  .next (match s.collOf role number with
    | some c => if c.running then (s.takeEarly role number).endColl role number else s
    | none => s)

end Sys2Proof.Machine
end

