-- ==== Sys2Proof/Machine/Sampler.lean ====
section
/-! DEFINITION. The sampler: requests, sampling modes, walks and parcels (spec/09 R250 to R278). -/

namespace Sys2Proof.Machine

open Sys2Proof

/-! ### The graph (R251) -/

/-- A graph as the sampler reads it. -/
structure GraphView where
  mem : Memory
  g   : Graph

def GraphView.offset (v : GraphView) (n : Nat) : Nat := memNat v.mem (v.g.image + v.g.offsetsAt + 8 * n) 8

/-- The degree of a node. -/
def GraphView.degree (v : GraphView) (n : Nat) : Nat := v.offset (n + 1) - v.offset n

/-- The neighbour at a position of a node's list. -/
def GraphView.nbr (v : GraphView) (n p : Nat) : Nat :=
  memNat v.mem (v.g.image + v.g.nbrAt + v.g.width * (v.offset n + p)) v.g.width

/-- PREFIX and TS at a position of a node's list. -/
def GraphView.prefix_ (v : GraphView) (n p : Nat) : Nat :=
  memNat v.mem (v.g.image + v.g.prefixAt + 8 * (v.offset n + p)) 8
def GraphView.ts (v : GraphView) (n p : Nat) : Nat :=
  memNat v.mem (v.g.image + v.g.tsAt + 8 * (v.offset n + p)) 8

/-- The total weight of a node. -/
def GraphView.weight (v : GraphView) (n : Nat) : Nat :=
  if v.degree n = 0 then 0 else v.prefix_ n (v.degree n - 1)

/-! ### Draws (R264) -/

/-- What a draw depends on beside its node: the SEED of the stream, MODE, LAYER, SALT and STEP. -/
structure DrawKey where
  seed  : W64
  mode  : Nat
  layer : Nat
  salt  : Nat
  step  : Nat

/-- The generator stream of a mode (R259). -/
def streamOf (mode : Nat) : Nat := if mode = 3 then 4 else 1

/-- A call of the generator for a node and a block (R264). -/
def DrawKey.call (k : DrawKey) (node block : Nat) : Quad :=
  generate (k.seed.setWidth 32 ^^^ BitVec.ofNat 32 (streamOf k.mode)) ((k.seed >>> 32).setWidth 32)
    ⟨BitVec.ofNat 32 block, BitVec.ofNat 32 node,
     BitVec.ofNat 32 (bits node 32 16 * 2 ^ 16 + k.mode * 2 ^ 12 + k.layer * 2 ^ 8 + k.salt),
     BitVec.ofNat 32 k.step⟩

/-- Draw n of a node's list. -/
def DrawKey.draw (k : DrawKey) (node n : Nat) : Nat := ((k.call node (n / 4)).word n).toNat

/-! ### Modes (R265 to R267) -/

/-- UNIFORM (R265). -/
def uniformPositions (draw : Nat → Nat) (d fanout : Nat) : List Nat :=
  if fanout < d then
    sortOn id ((List.range fanout).foldl (fun (s : List Nat) n =>
      let j := d - fanout + n
      let t := draw n * (j + 1) / 2 ^ 32
      if s.contains t then j :: s else t :: s) [])
  else List.range d

/-- The smallest position whose PREFIX exceeds a target (R266). -/
def GraphView.pick (v : GraphView) (n target : Nat) : Nat :=
  ((List.range (v.degree n)).find? fun p => decide (target < v.prefix_ n p)).getD 0

/-- WEIGHTED (R266). -/
def weightedPositions (v : GraphView) (draw : Nat → Nat) (n fanout : Nat) : List Nat :=
  let w := v.weight n
  if w = 0 then []
  else (List.range fanout).map fun i => v.pick n ((draw (2 * i + 1) * 2 ^ 32 + draw (2 * i)) * w / 2 ^ 64)

/-- RECENT (R267). -/
def recentPositions (v : GraphView) (n fanout time : Nat) : List Nat :=
  let m := ((List.range (v.degree n)).filter fun p => decide (v.ts n p < time)).length
  (List.range (min fanout m)).map fun i => m - min fanout m + i

/-- The positions that a mode yields for a node. -/
def positions (v : GraphView) (k : DrawKey) (n fanout time : Nat) : List Nat :=
  if k.mode = 0 then uniformPositions (k.draw n) (v.degree n) fanout
  else if k.mode = 1 then weightedPositions v (k.draw n) n fanout
  else recentPositions v n fanout time

/-! ### Requests (R262, R263, R272) -/

/-- Fields of a sampling record. -/
def sLayers (r : List Byte) : Nat := fieldAt r 0 1
def sSalt (r : List Byte) : Nat := fieldAt r 1 1
def sSeeds (r : List Byte) : Nat := fieldAt r 4 4
def sStep (r : List Byte) : Nat := fieldAt r 8 8
def sSeedsAt (r : List Byte) : Nat := fieldAt r 0x10 8
def sBuf (r : List Byte) : Nat := fieldAt r 0x18 8
def sDone (r : List Byte) : Nat := fieldAt r 0x28 8
def sFanout (r : List Byte) (l : Nat) : Nat := fieldAt r (0x30 + 2 * l) 2
def sTime (r : List Byte) : Nat := fieldAt r 0x38 8
def sWalkLen (r : List Byte) : Nat := fieldAt r 0x40 2
def sWalks (r : List Byte) : Nat := fieldAt r 0x42 1
def sOrder (r : List Byte) : Nat := fieldAt r 0x43 1
def sWeighted (r : List Byte) : Bool := fieldAt r 0x44 1 == 1
def sP (r : List Byte) : Nat := fieldAt r 0x48 4
def sQ (r : List Byte) : Nat := fieldAt r 0x4C 4

/-- The largest number of edges and of walk-table entries, and of unique nodes (R271). -/
def maxEdges : Nat := 8388608
def maxNodes : Nat := 524288

/-- The binary32 range 2^-20 to 2^20 of P and Q (R262). -/
def paramOk (c : Nat) : Bool := decide (0x35800000 ≤ c) && decide (c ≤ 0x49800000)

/-- Whether the fields of a record meet R262 for a mode. -/
def recordOk (mode : Nat) (r : List Byte) : Bool :=
  let walk := mode == 3
  decide (1 ≤ sSeeds r) && decide (sSeeds r ≤ maxNodes) && zeroBytes r 2 2 && zeroBytes r 0x45 3 &&
  zeroBytes r 0x50 48 && sSeedsAt r % 64 == 0 && sBuf r % 4096 == 0 &&
  (mode == 2 || sTime r == 0) &&
  (if walk then
    sLayers r == 0 && fieldAt r 0x30 8 == 0 &&
    decide (1 ≤ sWalkLen r) && decide (sWalkLen r ≤ 1024) && decide (1 ≤ sWalks r) &&
    decide (sWalks r ≤ 16) && (sOrder r == 1 || sOrder r == 2) && decide (fieldAt r 0x44 1 ≤ 1) &&
    (if sOrder r = 2 then paramOk (sP r) && paramOk (sQ r) else sP r == 0 && sQ r == 0) &&
    decide (sSeeds r * sWalks r * (sWalkLen r + 1) ≤ maxEdges)
   else
    decide (1 ≤ sLayers r) && decide (sLayers r ≤ 4) && zeroBytes r 0x40 5 && zeroBytes r 0x48 8 &&
    (List.range 4).all fun l =>
      if l < sLayers r then decide (1 ≤ sFanout r l) && decide (sFanout r l ≤ 1024) else sFanout r l == 0)

/-- The allotment of layer `l`: D[l] and E[l] (R272). -/
def allotments (r : List Byte) : List (Nat × Nat) :=
  ((List.range (sLayers r)).foldl (fun (acc : List (Nat × Nat) × Nat × Nat) l =>
    let e := min (acc.2.1 * sFanout r l) (maxEdges - acc.2.2)
    (acc.1 ++ [(acc.2.1, e)], min e maxNodes, acc.2.2 + e)) ([], sSeeds r, 0)).1

/-- Where the arrays of a layer lie, as offsets from BUF: edges, DPTR, DEST, ROUTE, TIME_A, end (R272). -/
structure LayerAt where
  edgeAt : Nat
  dptrAt : Nat
  destAt : Nat
  routeAt : Nat
  timeAt : Nat
  endAt : Nat

def layerAt (recent : Bool) (start : Nat) (de : Nat × Nat) : LayerAt :=
  let dptr := start + a64 (8 * de.2)
  let dest := dptr + a64 (4 * (de.1 + 1))
  let route := dest + a64 (4 * de.1)
  let time := route + a64 (4 * de.2)
  ⟨start, dptr, dest, route, if recent then time else 0, if recent then time + a64 (8 * de.2) else time⟩

/-- The layers of a request in order (R272). -/
def layersAt (recent : Bool) (r : List Byte) : List LayerAt :=
  ((allotments r).foldl (fun (acc : List LayerAt × Nat) de =>
    let l := layerAt recent acc.2 de
    (acc.1 ++ [l], l.endAt)) ([], 256)).1

/-- Rows and entries of the walk table (R268, R272). -/
def walkEntries (r : List Byte) : Nat := sSeeds r * sWalks r * (sWalkLen r + 1)

/-- NODE_AT and BYTES (R272). -/
def nodeAt (mode : Nat) (r : List Byte) : Nat :=
  if mode = 3 then 256 + a64 (4 * walkEntries r)
  else match (layersAt (mode == 2) r).getLast? with
    | some l => l.endAt
    | none => 256
def parcelBytes (mode width : Nat) (r : List Byte) : Nat :=
  let n :=
    if mode = 3 then min (walkEntries r) maxNodes
    else min (sSeeds r + ((allotments r).map Prod.snd).foldl (· + ·) 0) maxNodes
  nodeAt mode r + a64 (width * n)

/-- The "no node" value of an identifier type (R181). -/
def noNode (width : Nat) : Nat := 2 ^ (8 * width) - 1

/-- The seeds in list order (R263): kept, dropped, duplicates. -/
def takeSeeds (nodes : Nat) (l : List Nat) : List Nat × Nat × Nat :=
  l.foldl (fun (acc : List Nat × Nat × Nat) v =>
    if nodes ≤ v then (acc.1, acc.2.1 + 1, acc.2.2)
    else if acc.1.contains v then (acc.1, acc.2.1, acc.2.2 + 1)
    else (acc.1 ++ [v], acc.2.1, acc.2.2)) ([], 0, 0)

/-- The seed list of a record. -/
def seedList (mem : Memory) (width : Nat) (r : List Byte) : List Nat :=
  (List.range (sSeeds r)).map fun i => memNat mem (sSeedsAt r + width * i) width

/-- Whether the request of a record acts (R263): the graph it draws and its BYTES where it does. -/
def State.sampleReady (s : State) (t : Nat) (c : W32) (x : Ctx) (mode : Nat) (graph : Nat)
    (r : List Byte) : Option Graph :=
  match mapGet x.graphs graph with
  | none => none
  | some g =>
    let size := parcelBytes mode g.width r
    if recordOk mode r && decide (size ≤ fieldAt r 0x20 8) &&
        s.rangeInRegion x (sSeedsAt r) (g.width * sSeeds r) && s.rangeInRegion x (sBuf r) size &&
        (!(mode == 1 || (mode == 3 && sWeighted r)) || bitOf g.options 0) &&
        (mode != 2 || bitOf g.options 1) && s.doneLive c (sDone r) &&
        (List.range 4).any (fun i => (mapGet (s.team t).sampler.slots (i + 1)).isNone) then some g
    else none

/-- The lowest free parcel slot (R274). -/
def Sampler.freeSlot (k : Sampler) : Nat :=
  ((List.range 4).find? fun i => (mapGet k.slots (i + 1)).isNone).getD 0 + 1

/-- Changes the sampler of a cluster. -/
def State.modSampler (s : State) (t : Nat) (f : Sampler → Sampler) : State :=
  s.modTeam t fun k => { k with sampler := f k.sampler }

/-- MODE of a SAMPLE opcode (R264). -/
def modeOf (code : Nat) : Nat := code - 0x300

/-- The sampler takes a request (R263, R274). -/
def State.takeSample (s : State) (t : Nat) (u : UnitReq) : State :=
  let mode := modeOf u.word.code
  let refuse (s : State) : State := (s.deliverAll t u.tag 0).finish t u.core u.word evAddr true
  match s.holderOf t, s.requestRecord t .sa u.a 128 with
  | (c, some x), some r =>
    (match s.sampleReady t c x mode u.b.toNat r with
     | none => refuse s
     | some g =>
       let mem := s.engineView t .sa .stack
       let seeds := takeSeeds g.nodes (seedList mem g.width r)
       let slot := (s.team t).sampler.freeSlot
       let count := (s.team t).sampler.count + 1
       let p : Parcel :=
         { count := count, ctx := c, graph := u.b.toNat, src := g
           seed := genSeed (s.genTable t) (streamOf mode), mode := mode, record := r
           seeds := seeds.1, dropped := seeds.2.1, dups := seeds.2.2
           complete := false, freeing := false, header := [], since := s.stackLog.length }
       let s1 := s.modSampler t fun k => { k with count := count, slots := mapPut k.slots slot p }
       (s1.deliverAll t u.tag (handleOf slot count t)).finish t u.core u.word
         { idxDrop := seeds.2.1 } true)
  | (_, some _), none => refuse s
  | (_, none), _ => s.deliverAll t u.tag 0

/-- Whether a parcel is in progress in a cluster. -/
def Sampler.busy (k : Sampler) : Bool := k.slots.any fun p => !p.2.complete

/-- SAMPLER_TAKE_REQUEST (R263): the next queued request, once no parcel is in progress. -/
def execSamplerTakeRequest (team : Nat) (s : State) : Result :=
  .next (match (s.team team).sampler.queue with
    | u :: rest =>
      if (s.team team).sampler.busy then s
      else (s.bumpFree.modSampler team fun k => { k with queue := rest }).takeSample team u
    | [] => s)

/-- Issues a SAMPLE instruction: its request joins the sampler's queue (R164). -/
def State.issueSample (s : State) (t : Nat) (w : LumfyWord) : State :=
  s.issueTeam t w fun s q qs =>
    if s.streamFlag t 1 then
      let k := s.core t q
      let u : UnitReq := ⟨w, q, k.value w.args false w.args.a, k.value w.args false w.args.b, s.free⟩
      (s.awaitAll t qs w).modSampler t fun k => { k with queue := k.queue ++ [u] }
    else s.refuseAll t q qs w

/-- SAMPLE.UNIFORM (R262, R265). -/
def execSampleUniform (team : Nat) (x : Args) (s : State) : Result := .next (s.issueSample team ⟨0x300, x⟩)

/-- SAMPLE.WEIGHTED (R262, R266). -/
def execSampleWeighted (team : Nat) (x : Args) (s : State) : Result := .next (s.issueSample team ⟨0x301, x⟩)

/-- SAMPLE.RECENT (R262, R267). -/
def execSampleRecent (team : Nat) (x : Args) (s : State) : Result := .next (s.issueSample team ⟨0x302, x⟩)

/-- SAMPLE.WALK (R262, R268). -/
def execSampleWalk (team : Nat) (x : Args) (s : State) : Result := .next (s.issueSample team ⟨0x303, x⟩)

/-! ### Layered parcels (R269 to R271) -/

/-- An edge: SRC, DST, and the TS of RECENT. -/
structure Edge where
  src : Nat
  dst : Nat
  ts  : Nat
  deriving DecidableEq, Repr

/-- A layer under construction: its edges, DPTR so far, and the destinations that appended nothing. -/
structure LayerBuild where
  dests : List Nat
  edges : List Edge
  dptr  : List Nat
  trunc : Nat
  deriving DecidableEq, Repr

/-- A parcel under construction: the unique node list, the edges so far, finished layers. -/
structure Build where
  nodes     : List Nat
  used      : Nat
  layers    : List LayerBuild
  frontier  : List Nat
  truncated : Bool
  deriving DecidableEq, Repr

/-- The local identifier of a global one, where the parcel holds it. -/
def localOf (nodes : List Nat) (v : Nat) : Option Nat := nodes.findIdx? (· == v)

/-- The distinct elements of a list that another does not hold, in order. -/
def newOnes (nodes l : List Nat) : List Nat := (l.filter fun v => !nodes.contains v).eraseDups

/-- One destination of a layer (R269, R271). -/
def buildDest (v : GraphView) (k : DrawKey) (fanout time allot used0 : Nat)
    (acc : List Nat × LayerBuild) (dst : Nat) : List Nat × LayerBuild :=
  let nodes := acc.1
  let l := acc.2
  let n := nodes.getD dst 0
  let ps := positions v k n fanout time
  let nbrs := ps.map fun p => v.nbr n p
  let fresh := newOnes nodes nbrs
  let here := l.edges.length
  if decide (0 < l.trunc) || decide (maxEdges < used0 + here + ps.length) ||
      decide (allot < here + ps.length) || decide (maxNodes < nodes.length + fresh.length) then
    (nodes, { l with dptr := l.dptr ++ [here], trunc := l.trunc + 1 })
  else
    let nodes1 := nodes ++ fresh
    let es := ps.map fun p =>
      (⟨(localOf nodes1 (v.nbr n p)).getD 0, dst, if k.mode = 2 then v.ts n p else 0⟩ : Edge)
    (nodes1, { l with edges := l.edges ++ es, dptr := l.dptr ++ [here + ps.length] })

/-- One layer (R269, R271). -/
def buildLayer (v : GraphView) (k : DrawKey) (r : List Byte) (b : Build) (l : Nat) : Build :=
  let dests := if b.truncated then [] else b.frontier
  let allot := ((allotments r).getD l (0, 0)).2
  let x := dests.foldl (buildDest v { k with layer := l } (sFanout r l) (sTime r) allot b.used)
    (b.nodes, ⟨dests, [], [0], 0⟩)
  { nodes := x.1, used := b.used + x.2.edges.length, layers := b.layers ++ [x.2]
    frontier := sortOn id ((x.2.edges.map (·.src)).eraseDups)
    truncated := b.truncated || decide (0 < x.2.trunc) }

/-- A layered parcel. -/
def buildLayers (v : GraphView) (k : DrawKey) (r : List Byte) (seeds : List Nat) : Build :=
  (List.range (sLayers r)).foldl (buildLayer v k r) ⟨seeds, 0, [], List.range seeds.length, false⟩

/-- ROUTE (R270): edge indices by SRC, then by index. -/
def routeOf (edges : List Edge) : List Nat :=
  sortOn (fun i => (edges.getD i ⟨0, 0, 0⟩).src) (List.range edges.length)

/-! ### Walks (R268) -/

/-- A candidate of a node at a block: its position, none where the list has no weight. -/
def candidate (v : GraphView) (k : DrawKey) (weighted : Bool) (start node block : Nat) : Option Nat :=
  let q := k.call start block
  if weighted then
    let w := v.weight node
    if w = 0 then none
    else some (v.pick node ((q.x1.toNat * 2 ^ 32 + q.x0.toNat) * w / 2 ^ 64))
  else if v.degree node = 0 then none
  else some (q.x0.toNat * v.degree node / 2 ^ 32)

/-- ⌊x × 2^32⌋ of a finite value that is not negative. -/
def floor32 (x : FVal) : Nat := (FVal.toIntZero (x.scale 32)).toNat

/-- α ÷ mx of R268 for a candidate node, as binary32. -/
def walkRatio (v : GraphView) (r : List Byte) (prev cand : Nat) : FVal :=
  let one : FVal := .fin false 1 0
  let rn (x : FVal) : FVal := f32 (f32Code x).toNat
  let ip := rn (one.div (f32 (sP r)))
  let iq := rn (one.div (f32 (sQ r)))
  let big (a b : FVal) : FVal := if a.lt b then b else a
  let mx := big (big ip one) iq
  let inList := (List.range (v.degree prev)).any fun p => v.nbr prev p == cand
  let alpha := if cand = prev then ip else if inList then one else iq
  rn (alpha.div mx)

/-- The attempts of one second-order step: `n` are left, `a` is the next. -/
def attempts (v : GraphView) (k : DrawKey) (r : List Byte) (start prev node s : Nat) : Nat → Nat → Option Nat
  | 0, _ => none
  | n + 1, a =>
    match candidate v k (sWeighted r) start node (64 * s + a) with
    | none => none
    | some p =>
      let c := v.nbr node p
      let y2 := (k.call start (64 * s + a)).x2.toNat
      if y2 < floor32 (walkRatio v r prev c) ∨ n = 0 then some c
      else attempts v k r start prev node s n (a + 1)

/-- The next node of a walk (R268). -/
def nextNode (v : GraphView) (k : DrawKey) (r : List Byte) (start : Nat) (prev : Option Nat) (node s : Nat) :
    Option Nat :=
  match sOrder r == 1, prev with
  | false, some u => attempts v k r start u node s 64 0
  | _, _ => (candidate v k (sWeighted r) start node (64 * s)).map fun p => v.nbr node p

/-- A walk under construction: the unique nodes, the entries of the row, where it stands, whether
the row has ended, and whether the node cap has been met (R271). -/
structure WalkBuild where
  nodes : List Nat
  row   : List Nat
  prev  : Option Nat
  node  : Nat
  ended : Bool
  full  : Bool
  deriving DecidableEq, Repr

/-- One step of a walk. -/
def walkStep (v : GraphView) (k : DrawKey) (r : List Byte) (start : Nat) (b : WalkBuild) (s : Nat) : WalkBuild :=
  let stop (b : WalkBuild) : WalkBuild := { b with row := b.row ++ [0xFFFFFFFF], ended := true }
  if b.ended || b.full then stop b
  else
    match nextNode v k r start b.prev b.node s with
    | none => stop b
    | some c =>
      match localOf b.nodes c with
      | some i => { b with row := b.row ++ [i], prev := some b.node, node := c }
      | none =>
        if maxNodes ≤ b.nodes.length then stop { b with full := true }
        else { b with nodes := b.nodes ++ [c], row := b.row ++ [b.nodes.length], prev := some b.node, node := c }

/-- One row of the walk table: the nodes after it, the row, and whether the cap has been met. -/
def walkRow (v : GraphView) (k : DrawKey) (r : List Byte) (seeds : List Nat)
    (acc : List Nat × List (List Nat) × Bool × Nat) (row : Nat) : List Nat × List (List Nat) × Bool × Nat :=
  let s := row / sWalks r
  let start := seeds.getD s 0
  let b := (List.range (sWalkLen r)).foldl
    (walkStep v { k with layer := row % sWalks r } r start) ⟨acc.1, [s], none, start, false, acc.2.2.1⟩
  (b.nodes, acc.2.1 ++ [b.row], b.full, acc.2.2.2 + natOf b.full)

/-- The walk table: unique nodes, rows, and the rows not completed for the cap. -/
def buildWalks (v : GraphView) (k : DrawKey) (r : List Byte) (seeds : List Nat) : List Nat × List (List Nat) × Nat :=
  let x := (List.range (seeds.length * sWalks r)).foldl (walkRow v k r seeds) (seeds, [], false, 0)
  (x.1, x.2.1, x.2.2.2)

/-! ### The parcel's bytes (R270, R272, R273) -/

/-- The arrays of a layer, as pieces (offset from BUF, bytes). -/
def layerPieces (recent : Bool) (at_ : LayerAt) (l : LayerBuild) : List (Nat × List Byte) :=
  [(at_.edgeAt, l.edges.flatMap fun e => leBytes 4 e.src ++ leBytes 4 e.dst),
   (at_.dptrAt, l.dptr.flatMap fun n => leBytes 4 n),
   (at_.destAt, l.dests.flatMap fun n => leBytes 4 n),
   (at_.routeAt, (routeOf l.edges).flatMap fun n => leBytes 4 n)] ++
  (if recent then [(at_.timeAt, l.edges.flatMap fun e => leBytes 8 e.ts)] else [])

/-- A layer record of the header (R273). -/
def layerRecord (at_ : LayerAt) (l : LayerBuild) : List Byte :=
  [l.dests.length, l.edges.length, at_.edgeAt, at_.dptrAt, at_.destAt, at_.routeAt, at_.timeAt, l.trunc].flatMap
    fun n => leBytes 4 n

/-- The header (R273). -/
def headerBytes (p : Parcel) (width unique : Nat) (truncated : Bool) (records : List Byte) : List Byte :=
  let walk := p.mode == 3
  leBytes 4 0x4C435250 ++ leBytes 1 (sLayers p.record) ++ leBytes 1 p.mode ++
  leBytes 1 (1 + 2 * natOf truncated) ++ leBytes 1 p.graph ++ leBytes 4 p.seeds.length ++ leBytes 4 unique ++
  leBytes 8 (sStep p.record) ++ leBytes 4 p.dropped ++ leBytes 4 p.dups ++ bytesAt records 0 128 ++
  leBytes 4 (nodeAt p.mode p.record) ++ leBytes 4 (if walk then 256 else 0) ++
  leBytes 4 (if walk then sSeeds p.record * sWalks p.record else 0) ++
  leBytes 2 (if walk then sWalkLen p.record + 1 else 0) ++ leBytes 2 0 ++
  leBytes 4 (parcelBytes p.mode width p.record) ++ leBytes 76 0

/-- A parcel drawn: its pieces, and its header (R269 to R273). -/
def drawParcel (v : GraphView) (p : Parcel) : List (Nat × List Byte) × List Byte :=
  let r := p.record
  let k : DrawKey := ⟨p.seed, p.mode, 0, sSalt r, sStep r⟩
  let list (nodes : List Nat) : Nat × List Byte := (nodeAt p.mode r, nodes.flatMap fun n => leBytes v.g.width n)
  if p.mode = 3 then
    let x := buildWalks v k r p.seeds
    let table := x.2.1.flatMap fun row => row.flatMap fun n => leBytes 4 n
    ([(256, table), list x.1],
     headerBytes p v.g.width x.1.length (decide (0 < x.2.2)) (leBytes 28 0 ++ leBytes 4 x.2.2))
  else
    let b := buildLayers v k r p.seeds
    let ats := (layersAt (p.mode == 2) r).zip b.layers
    (ats.flatMap (fun x => layerPieces (p.mode == 2) x.1 x.2) ++ [list b.nodes],
     headerBytes p v.g.width b.nodes.length b.truncated (ats.flatMap fun x => layerRecord x.1 x.2))

/-- The pieces and the header of a parcel in progress; a 64-byte unit written since it began is read as R254 leaves it. -/
def State.drawn (s : State) (t : Nat) (p : Parcel) : List (Nat × List Byte) × List Byte :=
  drawParcel ⟨s.streamView ⟨t, none, .sa, none⟩ p.since, p.src⟩ p

/-- What else is written where a parcel's buffer may lie (R277): the pieces of the other live parcels' buffers, the seed
lists of live parcels, and the registered images. -/
def State.otherWrites (s : State) (p : Parcel) : List (Nat × Nat) :=
  let live := s.teams.flatMap fun t => t.2.sampler.slots.map Prod.snd
  let images (x : Ctx) : List (Nat × Nat) := x.graphs.flatMap fun g =>
    ([(0, 128), (g.2.offsetsAt, 8 * (g.2.nodes + 1)), (g.2.nbrAt, g.2.width * g.2.edges)] ++
     (if bitOf g.2.options 0 then [(g.2.wgtAt, 4 * g.2.edges), (g.2.prefixAt, 8 * g.2.edges)] else []) ++
     (if bitOf g.2.options 1 then [(g.2.tsAt, 8 * g.2.edges)] else [])).map fun a => (g.2.image + a.1, a.2)
  ((live.filter fun y => y != p).flatMap fun y => y.wrote.map fun w => (sBuf y.record + w.1, w.2)) ++
  (live.map fun y => (sSeedsAt y.record, y.src.width * sSeeds y.record)) ++
  s.ctxs.flatMap fun x => images x.2

/-- Writes the parcel in progress in a slot and marks it complete (R273, R274). A 64-byte unit written since it began, or
of something else that is live, stays as R277 leaves it. -/
def State.finishParcel (s : State) (t slot : Nat) (p : Parcel) : State :=
  let a : Accessor := ⟨t, none, .sa, none⟩
  let d := s.drawn t p
  let buf := sBuf p.record
  let pieces := d.1 ++ [(0, d.2)]
  let cells := pieces.flatMap fun (x : Nat × List Byte) =>
    (List.range x.2.length).map fun i => (buf + x.1 + i, x.2.getD i 0)
  let others := s.otherWrites p
  let ended := { p with complete := true, header := d.2, wrote := pieces.map fun x => (x.1, x.2.length) }
  let kept := (s.streamCells a p.since cells).filter fun c =>
    !(others.any fun o => rangesMeet o (c.1 / 64 * 64, 64)) || Config.choice s.free (choiceKey 65538 c.1 a)
  (s.store a .stack kept).modSampler t fun k =>
    { k with slots := if p.freeing then mapDrop k.slots slot else mapPut k.slots slot ended }

/-! ### PARCEL.INFO and PARCEL.FREE (R275, R276) -/

/-- The value of a selector (R275). -/
def Parcel.info (p : Parcel) (sel : Nat) : Nat :=
  let buf := sBuf p.record
  let h (off n : Nat) : Nat := fieldAt p.header off n
  if sel = 0 then buf
  else if !p.complete then 0
  else if sel = 1 then h 6 1
  else if sel = 2 then h 4 1
  else if sel = 3 then h 8 4
  else if sel = 4 then h 0xC 4
  else if sel = 5 then buf + h 0xA0 4
  else if sel = 6 then (if h 0xA4 4 = 0 then 0 else buf + h 0xA4 4)
  else if sel = 7 then h 0x10 8
  else if sel < 12 then h (0x20 + 32 * (sel - 8) + 4) 4
  else h (0x20 + 32 * (sel - 12)) 4

/-- PARCEL.INFO (R275): D receives the value that IMM[3:0] selects. -/
def execParcelInfo (team : Nat) (x : Args) (s : State) : Result :=
  .next (if (s.team team).sampler.queue.isEmpty then
    s.issueTeam team ⟨0x308, x⟩ fun s q qs =>
      if s.streamFlag team 1 then
        match s.parcelOf team ((s.core team q).value x false x.a) with
        | some p => s.putAll team qs ⟨0x308, x⟩ (BitVec.ofNat 64 (p.info (x.imm.toNat % 16)))
        | none => s.refuseAll team q qs ⟨0x308, x⟩
      else s.refuseAll team q qs ⟨0x308, x⟩
    else s)

/-- PARCEL.FREE (R276): of a parcel in progress it takes effect when the parcel completes. -/
def execParcelFree (team : Nat) (x : Args) (s : State) : Result :=
  .next (if (s.team team).sampler.queue.isEmpty then
    s.issueTeam team ⟨0x309, x⟩ fun s q qs =>
      let h := (s.core team q).value x false x.a
      if s.streamFlag team 1 then
        match s.parcelOf team h with
        | some p =>
          s.modSampler team fun k =>
            { k with slots :=
                if p.complete then mapDrop k.slots (handleSlot h)
                else mapPut k.slots (handleSlot h) { p with freeing := true } }
        | none => s.refuseAll team q qs ⟨0x309, x⟩
      else s.refuseAll team q qs ⟨0x309, x⟩
    else s)

end Sys2Proof.Machine
end

