-- ==== Sys2Proof/Machine/Rows.lean ====
section
/-! DEFINITION. Tables, staging of rows, and hot rows (spec/10 R281 to R300, R305). -/

namespace Sys2Proof.Machine

open Sys2Proof

/-! ### Geometry (R283 to R285) -/

/-- The number of a mirror table (R281). -/
def mirrorBit : Nat := 0x80000000

/-- State words per column of a RULE (R283). -/
def stateWords (rule : Nat) : Nat := if rule = 2 then 2 else if rule = 1 ∨ rule = 3 then 1 else 0

/-- Bytes of an element of a value type that is not SPLIT32. -/
def elemBytes (ty : Nat) : Nat := elemBits ty / 8

/-- The value bytes V of a slice of `cols` columns (R284). -/
def valueBytes (ty cols : Nat) : Nat :=
  if ty = 0x19 then 4 * cols
  else if isBlockTy ty then cols + cols / 32
  else cols * elemBytes ty

/-- SLICE (R284). -/
def sliceBytes (ty rule cols : Nat) : Nat := a64 (a4 (valueBytes ty cols) + 4 * cols * stateWords rule)

def Table.value (k : Table) : Nat := valueBytes k.vtype k.cols
def Table.slice (k : Table) : Nat := sliceBytes k.vtype k.rule k.cols

/-- The bytes of a slice before its padding (R284): the values, and the state words where the rule has any; V is then a
multiple of 4. -/
def usedBytes (ty rule cols : Nat) : Nat := valueBytes ty cols + 4 * cols * stateWords rule

/-- Bytes of one stack (R112). -/
def stackSize : Nat := 0x1400000000

/-- L of R285 for a stripe count. -/
def stripeLen (rows slice n : Nat) : Nat := ceilDiv rows n * slice

/-- Whether a stripe count qualifies (R285). -/
def State.stripesFit (s : State) (x : Ctx) (base rows slice n : Nat) : Bool :=
  decide (1 ≤ n) && (List.range n).all fun i =>
    s.rangeInRegion x ((base / stackSize + i) * stackSize + base % stackSize) (stripeLen rows slice n)

/-- The stripe count of an area at BASE; 0 where none qualifies (R285). -/
def State.stripeCount (s : State) (x : Ctx) (base rows slice : Nat) : Nat :=
  ((List.range (13 - base / stackSize)).reverse.find? fun n => s.stripesFit x base rows slice n).getD 0

/-- The address of a row's slice in an area (R285). -/
def rowAt (base n slice r : Nat) : Nat :=
  (base / stackSize + r % n) * stackSize + base % stackSize + r / n * slice
def Table.rowAddr (k : Table) (r : Nat) : Nat := rowAt k.base k.stripes k.slice r

/-- The byte ranges of an area. -/
def areaRanges (base rows slice n : Nat) : List (Nat × Nat) :=
  (List.range n).map fun i =>
    ((base / stackSize + i) * stackSize + base % stackSize, stripeLen rows slice n)


/-- Changes a table of a context. -/
def State.modTable (s : State) (c : W32) (n : Nat) (f : Table → Table) : State :=
  s.modCtx c fun x =>
    match mapGet x.tables n with
    | some k => { x with tables := mapPut x.tables n (f k) }
    | none => x

/-! ### Staging (R288 to R295) -/

/-- The staging area (R288). -/
def stageBase : Nat := 0x1200000

/-- Changes the row engine of a cluster. -/
def State.modRows (s : State) (t : Nat) (f : RowEngine → RowEngine) : State :=
  s.modTeam t fun k => { k with rows := f k.rows }

/-- Fields of a prefetch record (R289). -/
def pTable (r : List Byte) : Nat := fieldAt r 0 4
def pKind (r : List Byte) : Nat := fieldAt r 4 1
def pIdType (r : List Byte) : Nat := fieldAt r 5 1
def pCol0 (r : List Byte) : Nat := fieldAt r 6 2
def pCols (r : List Byte) : Nat := fieldAt r 8 1
def pCount (r : List Byte) : Nat := fieldAt r 0xC 4
def pSource (r : List Byte) : Nat := fieldAt r 0x10 8
def pFirst (r : List Byte) : Nat := fieldAt r 0x18 4
def pDeadline (r : List Byte) : Nat := fieldAt r 0x20 8
def pDone (r : List Byte) : Nat := fieldAt r 0x28 8

/-- Whether a table's prefetch fields meet R289. -/
def prefetchOk (k : Table) (r : List Byte) : Bool :=
  zeroBytes r 9 3 && zeroBytes r 0x1C 4 && zeroBytes r 0x39 7 &&
  decide (1 ≤ pCols r) && decide (pCols r ≤ 128) && decide (pCol0 r + pCols r ≤ k.cols) &&
  (!isBlockTy k.vtype || (pCol0 r % 32 == 0 && pCols r % 32 == 0)) &&
  decide (1 ≤ pCount r) && decide (pCount r ≤ 65536) &&
  (if pKind r = 0 then pIdType r == 0
   else if pKind r = 1 then (pIdType r == 0x1C || pIdType r == 0x1D) && pSource r % 64 == 0
   else false)

/-- The staged stride RS (R290). -/
def stagedStride (ty cols : Nat) : Nat := a64 (cols * (if ty = 0x19 then 2 else elemBytes ty))

/-- Pages that N staged rows take (R290). -/
def stagedPages (ty cols n : Nat) : Nat :=
  ceilDiv (n * stagedStride ty cols + (if isBlockTy ty then 4 * n else 0)) 65536

/-- Whether a page of the staging area is in use. -/
def RowEngine.pageUsed (e : RowEngine) (p : Nat) : Bool :=
  e.slots.any fun x => decide (x.2.page ≤ p) && decide (p < x.2.page + x.2.pages)

/-- The lowest free run of pages: first page and length (R290). -/
def RowEngine.freeRun (e : RowEngine) : Nat × Nat :=
  match (List.range 64).find? fun p => !e.pageUsed p with
  | none => (0, 0)
  | some p => (p, ((List.range (64 - p)).takeWhile fun i => !e.pageUsed (p + i)).length)

/-- The identifiers of a list in STACK from an entry on. -/
def idList (mem : Memory) (width at_ first n : Nat) : List Nat :=
  (List.range n).map fun i => memNat mem (at_ + width * (first + i)) width

/-- An identifier of a request's own list: the "no node" value of either width names no row of any table (R181, R292). -/
def anyId (width id : Nat) : Nat := if id = noNode width then noNode 6 else id

/-- The identifiers that a request names from a completed parcel, none where FIRST ≥ UNIQUE (R290). -/
def parcelIds (mem : Memory) (p : Parcel) (r : List Byte) : Option (List Nat) :=
  let unique := fieldAt p.header 0xC 4
  if pFirst r < unique then
    some (idList mem p.src.width (sBuf p.record + fieldAt p.header 0xA0 4) (pFirst r)
      (min (pCount r) (unique - pFirst r)))
  else none

/-- A row handle's slot with its rows in hand: queued, with its page run; none where the run of free
pages is too short (R290). -/
def RowEngine.place (e : RowEngine) (k : Table) (x : RowSlot) (ids : List Nat) : Option RowSlot :=
  let need := stagedPages k.vtype (pCols x.record) ids.length
  let run := e.freeRun
  if need ≤ run.2 then some { x with phase := .queued, ids := ids, page := run.1, pages := need } else none

/-- The lowest free handle slot (R291). -/
def RowEngine.freeSlot (e : RowEngine) : Option Nat :=
  ((List.range 8).find? fun i => (mapGet e.slots (i + 1)).isNone).map (· + 1)

/-- Takes a prefetch request whose fields are in order: the slot it begins, none where it does not
act (R290). -/
def State.beginPrefetch (s : State) (t q : Nat) (c : W32) (x : Ctx) (at_ : Nat) (k : Table) (r : List Byte) :
    Option RowSlot :=
  let e := (s.team t).rows
  let mem := s.engineView t .re .stack
  let blank : RowSlot :=
    { count := e.count + 1, ctx := c, core := q, recordAt := at_, record := r, phase := .parcel
      order := e.order, ids := [], version := 0, page := 0, pages := 0, dropped := 0, late := false
      releasing := false }
  if pKind r = 1 then
    let w := if pIdType r = 0x1D then 6 else 4
    if s.rangeInRegion x (pSource r + w * pFirst r) (w * pCount r) then
      e.place k blank ((idList mem w (pSource r) (pFirst r) (pCount r)).map (anyId w))
    else none
  else
    match s.parcelOf t (BitVec.ofNat 64 (pSource r)) with
    | none => none
    | some p =>
      if p.complete then
        match parcelIds mem p r with
        | some ids => e.place k blank ids
        | none => none
      else some blank

/-- TBL.PREFETCH (R289 to R291). -/
def execTblPrefetch (team : Nat) (x : Args) (s : State) : Result :=
  .next (s.issueTeam team ⟨0x340, x⟩ fun s q qs =>
    let w : LumfyWord := ⟨0x340, x⟩
    let a := (s.core team q).value x false x.a
    match s.holderOf team, s.requestRecord team .re a 64 with
    | (c, some cx), some r =>
      (match mapGet cx.tables (pTable r), (s.team team).rows.freeSlot with
       | some k, some slot =>
         if decide (pTable r < 64) && prefetchOk k r then
           match s.beginPrefetch team q c cx a.toNat k r with
           | some y =>
             ((s.modRows team fun e =>
               { e with slots := mapPut e.slots slot y, count := e.count + 1, order := e.order + 1 }).putAll
                 team qs w (handleOf slot y.count team)).finish team q w { } true
           | none => s.refuseAll team q qs w
         else s.refuseAll team q qs w
       | _, _ => s.refuseAll team q qs w)
    | _, _ => s.refuseAll team q qs w)

/-- The live row handle that a value names in a cluster (R291, R293). -/
def State.rowOf (s : State) (t : Nat) (h : W64) : Option RowSlot :=
  match mapGet (s.team t).rows.slots (handleSlot h) with
  | some x => if handleOf (handleSlot h) x.count t = h then some x else none
  | none => none

/-- Writes the outcome fields of a prefetch record (R289). -/
def State.prefetchOut (s : State) (t : Nat) (x : RowSlot) (status : Nat) : State :=
  ((s.engineWrite t .re (.cluster t) (x.recordAt + 0x30) (leBytes 4 x.dropped)).engineWrite t .re (.cluster t)
    (x.recordAt + 0x34) (leBytes 4 x.version.toNat)).engineWrite t .re (.cluster t) (x.recordAt + 0x38)
    (leBytes 1 status)

/-- A waiting request whose parcel has completed (R290): queued, or ended with OUT_STATUS 2. -/
def State.parcelReady (s : State) (t : Nat) (h : W64) (p : Parcel) (slot : Nat) : State :=
  match mapGet (s.team t).rows.slots slot with
  | none => s
  | some x =>
    if x.phase != .parcel || pSource x.record != h.toNat then s
    else
      let placed :=
        match s.table x.ctx (pTable x.record), parcelIds (s.engineView t .re .stack) p x.record with
        | some k, some ids => (s.team t).rows.place k x ids
        | _, _ => none
      match placed with
      | some y => s.modRows t fun e => { e with slots := mapPut e.slots slot y }
      | none =>
        let s1 := s.prefetchOut t x 2
        (s1.signalDone t x.ctx (BitVec.ofNat 64 (pDone x.record))).modRows t fun e =>
          { e with slots := mapDrop e.slots slot }

/-- PARCEL_COMPLETE (R273, R274, R276): the parcel's arrays and header are written, requests that
waited for it are placed, and DONE is signalled. -/
def execParcelComplete (team : Nat) (s : State) : Result :=
  .next (match (s.team team).sampler.slots.find? fun y => !y.2.complete with
    | none => s
    | some y =>
      let s1 := s.bumpFree.finishParcel team y.1 y.2
      let p1 : Parcel := { y.2 with complete := true, header := (s.bumpFree.drawn team y.2).2 }
      let h := handleOf y.1 y.2.count team
      let s2 := ((List.range 8).map (· + 1)).foldl (fun s slot => s.parcelReady team h p1 slot) s1
      s2.signalDone team y.2.ctx (BitVec.ofNat 64 (sDone y.2.record)))


/-- The next request that the row engine takes (R294): earliest DEADLINE, then issue order; requests
on a paused table wait (R306). -/
def State.nextStaging (s : State) (t : Nat) : Option (Nat × RowSlot) :=
  (sortOn (fun y : Nat × RowSlot => pDeadline y.2.record * 2 ^ 64 + y.2.order)
    ((s.team t).rows.slots.filter fun y =>
      y.2.phase == .queued && !s.paused y.2.ctx (pTable y.2.record))).head?

/-- STAGING_START (R294): OUT_VERSION is the version that the rows are read from. -/
def execStagingStart (team : Nat) (s : State) : Result :=
  .next (match s.nextStaging team with
    | none => s
    | some y =>
      let v : W32 := match s.table y.2.ctx (pTable y.2.record) with | some k => k.version | none => 0
      s.modRows team fun e => { e with slots := mapPut e.slots y.1 { y.2 with phase := .staging, version := v } })

/-- The staged bytes of a row: its values in the columns asked for, and its scales (R290), from its value part. -/
def stagedRow (k : Table) (r value : List Byte) : List Byte × List Byte :=
  let w := if k.vtype = 0x19 then 2 else elemBytes k.vtype
  (bytesAt value (pCol0 r * w) (pCols r * w),
   if isBlockTy k.vtype then bytesAt value (k.cols + pCol0 r / 32) (pCols r / 32) else [])

/-- The value part of a row at its home, as an engine of a cluster reads it. -/
def State.homeValue (s : State) (t : Nat) (k : Table) (row : Nat) : List Byte :=
  memRead (s.engineView t .re .stack) (k.rowAddr row) k.value

/-- A lookup by a cluster's row engine (R296, R298): from its slot where the row is hot, which it is up to the swap of a
demotion and from the swap of a promotion on; else from the home. -/
def State.lookupRow (s : State) (t : Nat) (k : Table) (table row : Nat) : List Byte :=
  match (s.team t).rows.hot.find? fun h => h.table == table && h.row == row with
  | some h => h.value
  | none => s.homeValue t k row

/-- Writes row i of a handle into the staging area (R291, R292) from its value part; none gives a zero row, with codes 0
and scales 127 (R210). The row engine writes it, and the update engine where an update refreshes it (R295). -/
def State.stageRow (s : State) (t : Nat) (u : EngineUnit) (k : Table) (x : RowSlot) (i : Nat)
    (value : Option (List Byte)) : State :=
  let r := x.record
  let rs := stagedStride k.vtype (pCols r)
  let base := stageBase + x.page * 65536
  let b : List Byte × List Byte :=
    match value with
    | some v => stagedRow k r v
    | none =>
      (leBytes (pCols r * (if k.vtype = 0x19 then 2 else elemBytes k.vtype)) 0,
       if isBlockTy k.vtype then List.replicate (pCols r / 32) 127 else [])
  (s.engineWrite t u (.cluster t) (base + i * rs) b.1).engineWrite t u (.cluster t)
    (base + x.ids.length * rs + 4 * i) b.2

/-- The key of a row in the lookup counts and hot slots of a cluster. -/
def rowKey (table row : Nat) : Nat := table * 2 ^ 48 + row

/-- Counts lookups for the placement loop in windows of `window` (R297): those that come once the window is full are
counted in the next. -/
def RowEngine.countLookups (e : RowEngine) (window : Nat) (keys : List Nat) : RowEngine :=
  let all_ := e.ahead ++ keys
  let now := all_.take (window - e.inWindow)
  { e with lookups := now.foldl (fun m r => mapMod m 0 r (· + 1)) e.lookups
           inWindow := e.inWindow + now.length, ahead := all_.drop now.length }

/-- Counts lookups of rows of a table. -/
def RowEngine.lookup (e : RowEngine) (window table : Nat) (rows : List Nat) : RowEngine :=
  e.countLookups window (rows.map (rowKey table))

/-- STAGING_COMPLETE (R292): the rows are staged, the record's outcome is written, dropped
identifiers count IDX_DROP, and DONE is signalled. -/
def execStagingComplete (team slot : Nat) (s : State) : Result :=
  .next (match mapGet (s.team team).rows.slots slot with
    | none => s
    | some x =>
      if x.phase != .staging then s
      else
        match s.table x.ctx (pTable x.record) with
        | none => s
        | some k =>
          let good := x.ids.filter fun i => decide (i < k.rows)
          let y : RowSlot := { x with phase := .staged, dropped := x.ids.length - good.length }
          let s1 := (List.range x.ids.length).foldl (fun s i =>
            let id := x.ids.getD i 0
            s.stageRow team .re k y i
              (if id < k.rows then some (s.lookupRow team k (pTable x.record) id) else none)) s.bumpFree
          let s2 := s1.modRows team fun e =>
            { e.lookup (2 ^ s.regs.windowLog2) (pTable x.record) good with
              slots := if y.releasing then mapDrop e.slots slot else mapPut e.slots slot y }
          ((s2.prefetchOut team y 1).addEventsFor x.ctx team { idxDrop := y.dropped }).signalDone team x.ctx
            (BitVec.ofNat 64 (pDone x.record)))

/-- PREFETCH_DEADLINE (R294, R63): a staging not complete at its DEADLINE counts a late event, once. -/
def execPrefetchDeadline (team slot : Nat) (s : State) : Result :=
  .next (match mapGet (s.team team).rows.slots slot with
    | none => s
    | some x =>
      if x.phase != .staged && !x.late && pDeadline x.record != 0 &&
          decide (pDeadline x.record ≤ s.postmark.toNat) && s.inTurn 6 then
        (s.modRows team fun e => { e with slots := mapPut e.slots slot { x with late := true } }).lateEvent
      else s)

/-- TBL.RELEASE (R293): not before its staging is complete. -/
def execTblRelease (team : Nat) (x : Args) (s : State) : Result :=
  .next (s.issueTeam team ⟨0x341, x⟩ fun s q qs =>
    let h := (s.core team q).value x false x.a
    match s.rowOf team h with
    | some y =>
      s.modRows team fun e =>
        { e with slots :=
            if y.phase = .staged then mapDrop e.slots (handleSlot h)
            else mapPut e.slots (handleSlot h) { y with releasing := true } }
    | none => s.refuseAll team q qs ⟨0x341, x⟩)

/-- The word of TBL.VERSION (R305). -/
def Table.versionWord (k : Table) : W64 :=
  packFields [(0, 32, k.version.toNat), (32, 4, k.stripes), (36, 1, natOf k.pending.isSome),
    (37, 1, natOf k.mirrorLost), (38, 1, natOf k.inPause)]

/-- TBL.VERSION (R305). -/
def execTblVersion (team : Nat) (x : Args) (s : State) : Result :=
  .next (s.issueTeam team ⟨0x342, x⟩ fun s q qs =>
    let n := ((s.core team q).value x false x.a).toNat
    match s.table (s.holderOf team).1 n with
    | some k => s.putAll team qs ⟨0x342, x⟩ k.versionWord
    | none => s.refuseAll team q qs ⟨0x342, x⟩)

/-! ### Hot rows (R296 to R299) -/

/-- Bytes of a hot slot of a table (R296). -/
def hotBytes (k : Table) : Nat := a64 k.value

/-- The context whose tables a cluster's row engine serves. -/
def State.ownerOf (s : State) (t : Nat) : W32 :=
  match s.holder t with
  | some o => o.1
  | none => 0

/-- Bytes of the hot-row area in use in a cluster. -/
def State.hotUsed (s : State) (t : Nat) : Nat :=
  (s.team t).rows.hot.foldl (fun n h =>
    n + match s.table (s.ownerOf t) h.table with
      | some k => hotBytes k
      | none => 0) 0

/-- Whether a row is hot in a cluster. -/
def RowEngine.isHot (e : RowEngine) (x : Nat × Nat) : Bool := e.hot.any fun h => h.table == x.1 && h.row == x.2

/-- Whether the hot-row area of 2 MiB (R288) has no room for some rows beside what it holds. -/
def State.hotFull (s : State) (t : Nat) (rows : List (Nat × Nat)) : Bool :=
  decide (0x200000 < rows.foldl (fun n x => n +
    match s.table (s.ownerOf t) x.1 with
    | some k => hotBytes k
    | none => 0) (s.hotUsed t))

/-- Whether a choice of the loop meets R297: at most MAX_MOVES moves, promotions of rows with at least
PROMOTE lookups that are not hot, and, where the area is full, demotions of hot rows with the fewest lookups. -/
def State.placeOk (s : State) (t : Nat) (c : PlaceChoice) : Bool :=
  let e := (s.team t).rows
  let seen (x : Nat × Nat) : Nat := mapGetD e.lookups 0 (rowKey x.1 x.2)
  decide (c.promote.length + c.demote.length ≤ s.regs.maxMoves) && (c.demote.isEmpty || s.hotFull t c.promote) &&
  (c.promote.all fun x => decide (s.regs.promote ≤ seen x) && !e.isHot x &&
    match s.table (s.ownerOf t) x.1 with
    | some k => decide (x.2 < k.rows)
    | none => false) &&
  (c.demote.all fun x => e.isHot x &&
    e.hot.all fun h => c.demote.contains (h.table, h.row) || decide (seen x ≤ seen (h.table, h.row)))

/-- Starts the next migration of a cluster (R298, R299): demotions first; a promotion for which the
area has no room is not made, and with ENABLE clear nothing moves (R297). -/
def RowEngine.next (e : RowEngine) (on : Bool) (room : Nat × Nat → Bool) : RowEngine :=
  let none_ : RowEngine := { e with migration := none, moves := ⟨[], []⟩ }
  if !on then none_
  else
    match e.moves.demote with
    | x :: r =>
      { e with migration := some ⟨x.1, x.2, false, false, []⟩, moves := ⟨e.moves.promote, r⟩ }
    | [] =>
      match e.moves.promote.dropWhile fun x => !room x with
      | x :: r => { e with migration := some ⟨x.1, x.2, true, false, []⟩, moves := ⟨r, []⟩ }
      | [] => none_

/-- Whether a row of a table fits into the hot-row area of 2 MiB beside what it holds (R288). -/
def State.hotRoom (s : State) (t : Nat) (x : Nat × Nat) : Bool :=
  match s.table (s.ownerOf t) x.1 with
  | some k => decide (s.hotUsed t + hotBytes k ≤ 0x200000)
  | none => false

/-- PLACEMENT_WINDOW_END (R297): the loop's choice takes effect; the counts begin again. -/
def execPlacementWindowEnd (team : Nat) (choice : PlaceChoice) (s : State) : Result :=
  .next (
    let e := (s.team team).rows
    if e.inWindow < 2 ^ s.regs.windowLog2 then s
    else
      let clear (e : RowEngine) : RowEngine :=
        { e with lookups := [], inWindow := 0 }.countLookups (2 ^ s.regs.windowLog2) []
      if s.regs.placeOn && e.migration.isNone && s.placeOk team choice then
        s.modRows team fun e => ({ clear e with moves := choice }).next true (s.hotRoom team)
      else s.modRows team clear)

/-- MIGRATION_DRAINED (R298): phase 3 begins. -/
def execMigrationDrained (team : Nat) (s : State) : Result :=
  .next (match (s.team team).rows.migration with
    | some m =>
      if m.copying then s else s.modRows team fun e => { e with migration := some { m with copying := true } }
    | none => s)

/-- MIGRATION_SWAPPED (R298): the row is hot with the home's value and the queued writes, or no
longer hot; the next migration begins. -/
def execMigrationSwapped (team : Nat) (s : State) : Result :=
  .next (match (s.team team).rows.migration with
    | some m =>
      if !m.copying then s
      else
        let rest := (s.team team).rows.hot.filter fun h => !(h.table == m.table && h.row == m.row)
        let hot : List HotSlot :=
          match m.promote, s.table (s.ownerOf team) m.table with
          | true, some k =>
            let home := memRead (s.engineView team .re .stack) (k.rowAddr m.row) k.value
            rest ++ [⟨m.table, m.row, m.queue.getLast?.getD home⟩]
          | _, _ => rest
        let s1 : State := { s with regs := { s.regs with migrations := s.regs.migrations + 1 } }
        let s2 := s1.modRows team fun e => { e with hot := hot, migration := none }
        s2.modRows team fun e => e.next s.regs.placeOn (s2.hotRoom team)
    | none => s)

/-- Whether every cluster's poste restante queue has room for the slot writes of rows of a table
(R299). -/
def State.queuesTake (s : State) (c : W32) (table : Nat) (rows : List Nat) : Bool :=
  s.teams.all fun y =>
    match y.2.rows.migration with
    | some m =>
      !(s.ownerOf y.1 == c && m.table == table && rows.contains m.row) || decide (m.queue.length < 256)
    | none => true

/-- A slot write of an updated row in one cluster (R298): it joins the queue of the row's migration,
or goes to its hot slot. -/
def RowEngine.slotWrite (e : RowEngine) (table row : Nat) (value : List Byte) : RowEngine :=
  let direct : RowEngine :=
    { e with hot := modWhere (fun h => h.table == table && h.row == row) (fun h => { h with value := value }) e.hot }
  match e.migration with
  | some m =>
    if m.table = table ∧ m.row = row then { e with migration := some { m with queue := m.queue ++ [value] } }
    else direct
  | none => direct

/-- The slot writes of an updated row in every cluster (R298, R303). -/
def State.writeHot (s : State) (c : W32) (table row : Nat) (value : List Byte) : State :=
  let s1 : State :=
    { s with teams := s.teams.map fun y =>
        if s.ownerOf y.1 = c then (y.1, { y.2 with rows := y.2.rows.slotWrite table row value }) else y }
  let peak := s1.teams.foldl (fun n y =>
    match y.2.rows.migration with
    | some m => max n m.queue.length
    | none => n) 0
  { s1 with regs := { s1.regs with heldPeak := max s1.regs.heldPeak peak } }

/-- Staged copies of an updated row follow it (R295). -/
def State.refreshStaged (s : State) (c : W32) (table row : Nat) : State :=
  match s.table c table with
  | none => s
  | some k =>
    s.teams.foldl (fun s y =>
      y.2.rows.slots.foldl (fun s z =>
        let x := z.2
        if x.ctx = c ∧ pTable x.record = table ∧ x.phase = .staged ∧ x.version = k.version then
          (List.range x.ids.length).foldl (fun s i =>
            if x.ids.getD i 0 = row then s.stageRow y.1 .ue k x i (some (s.homeValue y.1 k row)) else s) s
        else s) s) s

end Sys2Proof.Machine
end

