-- ==== Sys2Proof/Machine/Update.lean ====
section
/-! DEFINITION. The update engine (spec/12 R332 to R348; spec/10 R301 to R304). -/

namespace Sys2Proof.Machine

open Sys2Proof

/-! ### Arithmetic in binary32 that remembers a NaN arising from inputs that are none (R344, R346) -/

/-- A value, and whether a NaN arose on the way to it. -/
structure UVal where
  v : FVal
  inv : Bool
  deriving DecidableEq, Repr

/-- A value rounded once to binary32. -/
def rn32 (x : FVal) : FVal := f32 (f32Code x).toNat

/-- An input. -/
def uIn (c : W32) : UVal := ⟨f32 c.toNat, false⟩

/-- The result of an operation on inputs. -/
def uDone (x : FVal) (ins : List UVal) : UVal :=
  ⟨rn32 x, ins.any (·.inv) || (x.isNan && ins.all fun i => !i.v.isNan)⟩

def UVal.add (a b : UVal) : UVal := uDone (a.v.add b.v) [a, b]
def UVal.sub (a b : UVal) : UVal := uDone (a.v.sub b.v) [a, b]
def UVal.mul (a b : UVal) : UVal := uDone (a.v.mul b.v) [a, b]
def UVal.div (a b : UVal) : UVal := uDone (a.v.div b.v) [a, b]
def UVal.sqrt (a : UVal) : UVal := uDone a.v.sqrt [a]
/-- fma(a, b, c) (R332's opening lines): a × b + c rounded once. -/
def UVal.fma (a b c : UVal) : UVal := uDone ((a.v.mul b.v).add c.v) [a, b, c]

def oneF : FVal := .fin false 1 0

/-! ### The group table (R334 to R336) -/

/-- A point of a group entry. -/
structure Point where
  s : Nat
  eta : W32
  lambda : W32
  beta1 : W32
  beta2 : W32
  deriving DecidableEq, Repr

/-- Point p of an entry. -/
def pointAt (e : List Byte) (p : Nat) : Point :=
  let o := 0x40 + 24 * p
  let w (d : Nat) : W32 := BitVec.ofNat 32 (fieldAt e (o + d) 4)
  ⟨fieldAt e o 8, w 8, w 12, w 16, w 20⟩

def eRule (e : List Byte) : Nat := fieldAt e 0 1
def eFlags (e : List Byte) : Nat := fieldAt e 1 1
def ePoints (e : List Byte) : Nat := fieldAt e 2 1
def eClip (e : List Byte) : Nat := fieldAt e 4 4
def eEps (e : List Byte) : Nat := fieldAt e 8 4
def eT0 (e : List Byte) : Nat := fieldAt e 0x10 8
def points (e : List Byte) : List Point := (List.range (ePoints e)).map (pointAt e)

/-- Whether a binary32 code is finite and ≥ 0, and whether it is > 0. -/
def finiteF (c : Nat) : Bool := c / 2 ^ 23 % 256 != 255
def nonNeg (c : Nat) : Bool := finiteF c && !(f32 c).lt FVal.zero
def positive (c : Nat) : Bool := finiteF c && FVal.zero.lt (f32 c)

/-- Whether BETA lies in [0, 1], or in [0, 1) (R336). -/
def betaOk (strict : Bool) (c : Nat) : Bool :=
  nonNeg c && (if strict then (f32 c).lt oneF else !oneF.lt (f32 c))

/-- Whether an entry is valid (R334, R336). -/
def entryOk (e : List Byte) : Bool :=
  let moment := eRule e == 2
  decide (eRule e ≤ 3) && decide (eFlags e < 8) && decide (1 ≤ ePoints e) && decide (ePoints e ≤ 64) &&
  zeroBytes e 3 1 && zeroBytes e 0xC 4 && zeroBytes e 0x18 40 &&
  (if bitOf (eFlags e) 1 then positive (eClip e) else eClip e == 0) &&
  (if moment then positive (eEps e) else eEps e == 0) && (moment || eT0 e == 0) &&
  ((points e).all fun p =>
    nonNeg p.eta.toNat && nonNeg p.lambda.toNat && betaOk moment p.beta1.toNat && betaOk moment p.beta2.toNat) &&
  ((points e).zip ((points e).drop 1)).all fun x => decide (x.1.s < x.2.s)

/-- A curve value at step n (R335). `f` gives the field of a point. -/
def curve (ps : List Point) (f : Point → W32) (n : Nat) : W32 :=
  match ps.head?, ps.getLast? with
  | some a, some z =>
    if n ≤ a.s then f a
    else if z.s ≤ n then f z
    else
      match ((ps.zip (ps.drop 1)).filter fun x => decide (x.1.s ≤ n)).getLast? with
      | none => f a
      | some x =>
        let v0 := f32 (f x.1).toNat
        let v1 := f32 (f x.2).toNat
        let r := rn32 ((FVal.ofInt ((n - x.1.s : Nat) : Int)).div (FVal.ofInt ((x.2.s - x.1.s : Nat) : Int)))
        let dv := rn32 (v1.sub v0)
        let v := rn32 ((r.mul dv).add v0)
        f32Code (fMinOf (fMaxOf v (fMinOf v0 v1)) (fMaxOf v0 v1))
  | _, _ => 0

/-- The group entry of a context (R334). -/
def State.groupEntry (s : State) (t : Nat) (x : Ctx) (g : Nat) : List Byte :=
  memRead (s.engineView t .ue .stack) (x.regionBase.toNat + 0x10000 + 2048 * g) 2048

/-! ### Taking requests (R332, R333, R301, R337) -/

/-- Fields of an UPD.TENSOR record (R332). -/
def tGroup (r : List Byte) : Nat := fieldAt r 0 4
def tWtype (r : List Byte) : Nat := fieldAt r 4 1
def tGtype (r : List Byte) : Nat := fieldAt r 5 1
def tElems (r : List Byte) : Nat := fieldAt r 8 8
def tW (r : List Byte) : Nat := fieldAt r 0x10 8
def tWlo (r : List Byte) : Nat := fieldAt r 0x18 8
def tS0 (r : List Byte) : Nat := fieldAt r 0x20 8
def tS1 (r : List Byte) : Nat := fieldAt r 0x28 8
def tGrad (r : List Byte) : Nat := fieldAt r 0x30 8
def tStep (r : List Byte) : Nat := fieldAt r 0x38 8
def tBarrier (r : List Byte) : Nat := fieldAt r 0x40 8
def tDone (r : List Byte) : Nat := fieldAt r 0x48 8

/-- Fields of an UPD.ROWS record (R301, R337). -/
def rTable (r : List Byte) : Nat := fieldAt r 0 4
def rTeams (r : List Byte) : Nat := fieldAt r 4 2
def rGtype (r : List Byte) : Nat := fieldAt r 6 1
def rHandle (r : List Byte) : Nat := fieldAt r 8 8
def rGrad (r : List Byte) : Nat := fieldAt r 0x10 8
def rStep (r : List Byte) : Nat := fieldAt r 0x18 8
def rDone (r : List Byte) : Nat := fieldAt r 0x20 8
def rGroup (r : List Byte) : Nat := fieldAt r 0x30 4
def rBarrier (r : List Byte) : Nat := fieldAt r 0x38 8

/-- Bytes of a gradient element. -/
def gradWidth (ty : Nat) : Nat := if ty = 0 then 4 else 2

/-- Whether two of a list of ranges share a byte. -/
def someOverlap : List (Nat × Nat) → Bool
  | [] => false
  | r :: rest => rest.any (rangesMeet r) || someOverlap rest

/-- The ranges that an UPD.TENSOR touches (R332). -/
def tensorRanges (r : List Byte) (rule : Nat) : List (Nat × Nat) :=
  let n := tElems r
  (if tWtype r = 0x19 then [(tW r, 2 * n), (tWlo r, 2 * n)] else [(tW r, 4 * n)]) ++
  (if 0 < stateWords rule then [(tS0 r, 4 * n)] else []) ++
  (if rule = 2 then [(tS1 r, 4 * n)] else []) ++ [(tGrad r, gradWidth (tGtype r) * n)]

/-- Whether an UPD.TENSOR record and its group entry let the request act (R333). -/
def State.tensorOk (s : State) (c : W32) (x : Ctx) (r e : List Byte) : Bool :=
  decide (tGroup r ≤ 4095) && (tWtype r == 0 || tWtype r == 0x19) && decide (tGtype r ≤ 1) &&
  zeroBytes r 6 2 && zeroBytes r 0x54 44 && decide (1 ≤ tElems r) && decide (tElems r ≤ 2 ^ 34) &&
  ([tW r, tWlo r, tS0 r, tS1 r, tGrad r].all fun a => a % 64 == 0) &&
  (tWtype r == 0x19 || tWlo r == 0) && entryOk e &&
  ((tS0 r == 0) == (stateWords (eRule e) == 0)) && ((tS1 r == 0) == (eRule e != 2)) &&
  ((tensorRanges r (eRule e)).all fun a => s.rangeInRegion x a.1 a.2) &&
  !someOverlap (tensorRanges r (eRule e)) && s.doneLive c (tDone r) && s.barrierLive c (tBarrier r)

/-- The bytes of one gradient row (R301). -/
def gradRow (k : Table) (r : List Byte) : Nat := a64 (k.cols * gradWidth (rGtype r))

/-- The requests of an update set that are queued (R302): team and request. -/
def State.setOf (s : State) (c : W32) (table : Nat) (step : W64) : List (Nat × UpdReq) :=
  s.teams.flatMap fun y =>
    (y.2.upd.queue.filter fun q => q.rows && q.ctx == c && q.step == step && rTable q.record == table).map
      fun q => (y.1, q)

/-- Whether an UPD.ROWS request fits the set it joins (R302, R337). -/
def setFits (t : Nat) (r : List Byte) (set : List (Nat × UpdReq)) : Bool :=
  set.all fun q => q.1 != t && !q.2.gone.contains t && rTeams q.2.record == rTeams r &&
    rGroup q.2.record == rGroup r && rBarrier q.2.record == rBarrier r

/-- The requests of an update set that have ended as skips (R302, R342): team and request. -/
def State.skippedOf (s : State) (c : W32) (table : Nat) (step : W64) : List (Nat × UpdReq) :=
  match s.ctx c with
  | some x => x.skipped.filter fun q => q.2.step == step && rTable q.2.record == table
  | none => []

/-- Whether an UPD.ROWS record, its table, handle and group entry let the request act (R301, R302,
R333, R337). -/
def State.rowsOk (s : State) (t : Nat) (c : W32) (x : Ctx) (k : Table) (y : RowSlot) (r e : List Byte) : Bool :=
  decide (rTable r < 64) && decide (k.rule ≤ 3) && decide (1 ≤ rTeams r) && decide (rTeams r ≤ 24) &&
  decide (rGtype r ≤ 1) && zeroBytes r 7 1 && pTable y.record == rTable r && rGrad r % 64 == 0 &&
  decide (rGroup r ≤ 4095) && entryOk e && eRule e == k.rule &&
  s.rangeInRegion x (rGrad r) (y.ids.length * gradRow k r) && s.doneLive c (rDone r) &&
  s.barrierLive c (rBarrier r) && setFits t r (s.setOf c (rTable r) (BitVec.ofNat 64 (rStep r))) &&
  setFits t r (s.skippedOf c (rTable r) (BitVec.ofNat 64 (rStep r)))

/-- Whether a request names a step before its barrier's most recent release (R341). -/
def State.tooLate (s : State) (c : W32) (barrier step : Nat) : Bool :=
  barrier != 0 &&
  match (s.lastRelease c (BitVec.ofNat 64 barrier)).1 with
  | some r => decide (step < r.step.toNat)
  | none => false

/-- A request as it is taken (R333). -/
def takenRequest (rows : Bool) (q : Nat) (c : W32) (seq : W64) (at_ : Nat) (r e : List Byte) (ids : List Nat) :
    UpdReq :=
  let step := if rows then rStep r else tStep r
  let val (f : Point → W32) : W32 := curve (points e) f step
  { rows := rows, core := q, ctx := c, seq := seq, recordAt := at_, record := r, rule := eRule e
    flags := eFlags e, clip := BitVec.ofNat 32 (eClip e), eps := BitVec.ofNat 32 (eEps e)
    eta := val (·.eta), lambda := val (·.lambda), beta1 := val (·.beta1), beta2 := val (·.beta2)
    t := step - eT0 e + 1, step := BitVec.ofNat 64 step
    barrier := BitVec.ofNat 64 (if rows then rBarrier r else tBarrier r)
    done := BitVec.ofNat 64 (if rows then rDone r else tDone r)
    ids := ids, held := false, begun := none, fault := 0 }

/-- Changes the update engine of a cluster. -/
def State.modUpd (s : State) (t : Nat) (f : UpdEngine → UpdEngine) : State :=
  s.modTeam t fun k => { k with upd := f k.upd }

/-- The update engine takes a request: its D is a free value, for the spec states none
(notes/assumptions/15.md). -/
def State.queueUpdate (s : State) (t q : Nat) (qs : List Nat) (w : LumfyWord) (u : UpdReq) : State :=
  ((s.modUpd t fun e => { e with queue := e.queue ++ [u] }).putAll t qs w (Config.freeWord s.free)).finish
    t q w { } true

/-- The SEQ of the launch that runs on a team. -/
def State.launchSeq (s : State) (t : Nat) : W64 :=
  match (s.team t).kernel with
  | some k => k.seq
  | none => 0

/-- UPD.TENSOR (R332, R333). -/
def execUpdTensor (team : Nat) (x : Args) (s : State) : Result :=
  .next (s.issueTeam team ⟨0x380, x⟩ fun s q qs =>
    let w : LumfyWord := ⟨0x380, x⟩
    let a := (s.core team q).value x false x.a
    match s.holderOf team, s.requestRecord team .ue a 128 with
    | (c, some cx), some r =>
      let e := s.groupEntry team cx (tGroup r)
      if s.streamFlag team 2 && s.tensorOk c cx r e && !s.tooLate c (tBarrier r) (tStep r) then
        s.queueUpdate team q qs w (takenRequest false q c (s.launchSeq team) a.toNat r e [])
      else s.refuseAll team q qs w
    | _, _ => s.refuseAll team q qs w)

/-- Whether an UPD.ROWS waits for its handle's rows, which its parcel has yet to give (R290). -/
def State.rowsWait (s : State) (t : Nat) (x : Args) : Bool :=
  match (s.team t).masked x.pred with
  | [] => false
  | q :: _ =>
    match s.requestRecord t .ue ((s.core t q).value x false x.a) 64 with
    | some r =>
      (match s.rowOf t (BitVec.ofNat 64 (rHandle r)) with
       | some y => y.phase == .parcel
       | none => false)
    | none => false

/-- UPD.ROWS (R301, R302, R333, R337). -/
def execUpdRows (team : Nat) (x : Args) (s : State) : Result :=
  .next (if s.rowsWait team x then s else
    s.issueTeam team ⟨0x381, x⟩ fun s q qs =>
      let w : LumfyWord := ⟨0x381, x⟩
      let a := (s.core team q).value x false x.a
      match s.holderOf team, s.requestRecord team .ue a 64 with
      | (c, some cx), some r =>
        (match mapGet cx.tables (rTable r), s.rowOf team (BitVec.ofNat 64 (rHandle r)) with
         | some k, some y =>
           let e := s.groupEntry team cx (rGroup r)
           if s.streamFlag team 2 && s.rowsOk team c cx k y r e && !s.tooLate c (rBarrier r) (rStep r) then
             let gone := (s.skippedOf c (rTable r) (BitVec.ofNat 64 (rStep r))).map Prod.fst
             s.queueUpdate team q qs w
               { takenRequest true q c (s.launchSeq team) a.toNat r e y.ids with gone := gone }
           else s.refuseAll team q qs w
         | _, _ => s.refuseAll team q qs w)
      | _, _ => s.refuseAll team q qs w)

/-! ### UPD.NORM (R338) -/

/-- Whether an UPD.NORM record meets R338. -/
def State.normOk (s : State) (x : Ctx) (r : List Byte) : Bool :=
  decide (fieldAt r 0 1 ≤ 1) && zeroBytes r 1 3 && nonNeg (fieldAt r 4 4) && decide (1 ≤ fieldAt r 8 8) &&
  decide (fieldAt r 8 8 ≤ 2 ^ 34) && fieldAt r 0x10 8 % 64 == 0 && zeroBytes r 0x1C 36 &&
  s.rangeInRegion x (fieldAt r 0x10 8) (gradWidth (fieldAt r 0 1) * fieldAt r 8 8)

/-- UPD.NORM (R338): D waits until the sum is complete. -/
def execUpdNorm (team : Nat) (x : Args) (s : State) : Result :=
  .next (s.issueTeam team ⟨0x382, x⟩ fun s q qs =>
    let w : LumfyWord := ⟨0x382, x⟩
    let a := (s.core team q).value x false x.a
    match s.holderOf team, s.requestRecord team .ue a 64 with
    | (_, some cx), some r =>
      if s.streamFlag team 2 && s.normOk cx r then
        (s.awaitAll team qs w).modUpd team fun e =>
          { e with norms := e.norms ++ [⟨w, q, s.free, a.toNat, r, s.stackLog.length⟩] }
      else s.refuseAll team q qs w
    | _, _ => s.refuseAll team q qs w)

/-- A gradient element as an exact value (R332). -/
def gradAt (mem : Memory) (ty at_ i : Nat) : FVal :=
  if ty = 0 then f32 (memNat mem (at_ + 4 * i) 4) else fmtBF16.decode (memNat mem (at_ + 2 * i) 2)

/-- The sum of R338: lane j takes elements j, j + 64, … -/
def normSum (x : Nat → FVal) (n : Nat) (start : FVal) : FVal :=
  let lane (j : Nat) : FVal :=
    (List.range (ceilDiv (n - j) 64)).foldl (fun acc i =>
      let v := x (64 * i + j)
      roundX32 (acc.add (roundX32 (v.mul v)))) FVal.zero
  (List.range 64).foldl (fun acc j => roundX32 (acc.add (lane j))) start

/-- UPD_NORM_COMPLETE (R338): the oldest UPD.NORM writes OUT_NORM2 and D. What was written to GRAD while it was computed it
has read before or after (R348). -/
def execUpdNormComplete (team : Nat) (s : State) : Result :=
  .next (match (s.team team).upd.norms with
    | [] => s
    | u :: rest =>
      let mem := s.streamView ⟨team, none, .ue, none⟩ u.since
      let r := u.record
      let v := f32Code (normSum (gradAt mem (fieldAt r 0 1) (fieldAt r 0x10 8)) (fieldAt r 8 8) (f32 (fieldAt r 4 4)))
      let s1 := s.bumpFree.modUpd team fun e => { e with norms := rest }
      ((s1.engineWrite team .ue (.cluster team) (u.addr + 0x18) (leBytes 4 v.toNat)).deliverAll team u.tag
        (v.zeroExtend 64)).finish team u.core u.word { } true)

/-! ### Beginning a request (R341 to R343) -/

/-- β^t by square-and-multiply over the bits of t from the most significant, each product rounded;
+0 from 2^24 on (R344). -/
def powBits (b : FVal) : List Bool → FVal → FVal
  | [], acc => acc
  | x :: r, acc =>
    let sq := rn32 (acc.mul acc)
    powBits b r (if x then rn32 (sq.mul b) else sq)
def powT (b : FVal) (t : Nat) : FVal :=
  if 2 ^ 24 ≤ t then FVal.zero
  else
    match ((List.range 24).reverse.map fun i => bitOf t i).dropWhile (!·) with
    | [] => oneF
    | _ :: r => powBits b r b

/-- The scale q of R342, or the REASON of a skip. -/
def scaleOf (flags : Nat) (clip g2 n : W32) : W32 × Nat :=
  let avg := bitOf flags 2
  let clipOn := bitOf flags 1
  let g := f32 g2.toNat
  let nf := if avg then rn32 (FVal.ofInt n.toNat) else oneF
  if clipOn && (g.isNan || (g.isInf && !g.sign)) then (0, 2)
  else if avg && n == 0 then (0, 3)
  else
    let a0 := rn32 g.sqrt
    let a := if avg then rn32 (a0.div nf) else a0
    let c := f32 clip.toNat
    let sc := if clipOn && c.lt a then rn32 (c.div a) else oneF
    (f32Code (if avg then rn32 (sc.div nf) else sc), 0)

/-- The constants of a request that begins with G2 and N (R342, R343, R344). -/
def constsOf (u : UpdReq) (g2 n : W32) : UpdConsts :=
  let c (b : W32) : W32 := f32Code (rn32 (oneF.sub (powT (f32 b.toNat) u.t)))
  let q := scaleOf u.flags u.clip g2 n
  ⟨q.1, c u.beta1, c u.beta2, if bitOf u.flags 0 then 1 else q.2⟩

/-- Whether a handle names a poisoned object: of this module, or of another as an answer has shown. -/
def State.poisonedAt (s : State) (c : W32) (h : W64) (barrier : Bool) : Bool :=
  match s.ctx c with
  | none => false
  | some x =>
    match s.resolve c x h barrier with
    | .here u i => (s.obj u i).poisoned
    | .away pc _ => s.knownPoisoned pc (hIndex h)
    | .bad => false

/-- How a request at the head of its queue stands (R341). -/
inductive BeginState where
  | wait | go (c : UpdConsts) | late
  deriving DecidableEq, Repr

/-- The teams of an update set's requests, those that ended as skips included (R302). -/
def setTeams (set : List (Nat × UpdReq)) : List Nat := sortOn id (set.flatMap fun q => q.1 :: q.2.gone).eraseDups

/-- Whether every request of an UPD.ROWS's set has been taken, and each that has not ended stands first in its queue
(R302, R348). -/
def State.setReady (s : State) (u : UpdReq) : Bool :=
  let set := s.setOf u.ctx (rTable u.record) u.step
  (setTeams set).length == rTeams u.record && set.all fun q => (s.team q.1).upd.queue.head? == some q.2

/-- Decides whether a request begins (R302, R340, R341, R342); on a table in the pause of a TABLE_REPLACE it waits for
the flip (R306). -/
def State.beginState (s : State) (u : UpdReq) : BeginState :=
  let skip (reason : Nat) : BeginState := .go ⟨0, 0, 0, reason⟩
  let act (g2 n : W32) : BeginState :=
    if u.rows && (s.paused u.ctx (rTable u.record) || !s.setReady u) then .wait else .go (constsOf u g2 n)
  if u.fault ≠ 0 then skip u.fault
  else if s.poisonedAt u.ctx u.done false || (u.barrier != 0 && s.poisonedAt u.ctx u.barrier true) then skip 5
  else if u.barrier = 0 then act 0 1
  else
    match u.kept, (s.lastRelease u.ctx u.barrier).1 with
    | some r, _ => act r.g2 r.n
    | none, none => .wait
    | none, some r =>
      if r.step = u.step then act r.g2 r.n
      else if u.step.toNat < r.step.toNat then .late
      else .wait

/-- The launch of a request. -/
def State.launchOf (s : State) (u : UpdReq) : Option Launch := (s.ctx u.ctx).bind fun x => x.launch u.seq

/-- The home of range i of a tensor request, which keys its block (R347). -/
def rangeKey (r : List Byte) (i : Nat) : Nat := tW r + i * 16384 * (if tWtype r = 0x19 then 2 else 4)

/-- The blocks of an ascending list of rows: 64 KiB of slices each (R303). -/
def rowBlocks (k : Table) (rows : List Nat) : List (List Nat) :=
  let n := max 1 (65536 / k.slice)
  (List.range (ceilDiv rows.length n)).map fun i => (rows.drop (n * i)).take n

/-- The rows that a set updates, ascending (R303). -/
def setRows (k : Table) (set : List (Nat × UpdReq)) : List Nat :=
  sortOn id (((set.flatMap fun q => q.2.ids).filter fun r => decide (r < k.rows)).eraseDups)

/-- The keys of a request's blocks. -/
def State.blockKeys (s : State) (u : UpdReq) : List Nat :=
  if u.rows then
    match s.table u.ctx (rTable u.record) with
    | some k => (rowBlocks k (setRows k (s.setOf u.ctx (rTable u.record) u.step))).map fun l => k.rowAddr (l.headD 0)
    | none => []
  else (List.range (ceilDiv (tElems u.record) 16384)).map (rangeKey u.record)

/-- A request as it begins: a replayed one takes the values that the journal recorded with its first mark (R347). -/
def State.begins (s : State) (u : UpdReq) (c : UpdConsts) : UpdReq :=
  let b := match s.launchOf u with
    | some l => if c.reason = 0 then l.skip.find? fun (b : Block) => (s.blockKeys u).contains b.key else none
    | none => none
  match b with
  | some b =>
    { u with
      eta := b.vals.eta, lambda := b.vals.lambda, beta1 := b.vals.beta1, beta2 := b.vals.beta2
      begun := some b.vals.consts, since := s.stackLog.length }
  | none => { u with begun := some c, since := s.stackLog.length }

/-- UPDATE_REQUEST_BEGIN (R341): the first request that has not begun. A request whose step the
barrier has passed does not act. -/
def execUpdateRequestBegin (team : Nat) (s : State) : Result :=
  .next (match (s.team team).upd.queue with
    | [] => s
    | u :: rest =>
      if u.begun.isSome then s
      else
        match s.beginState u with
        | .wait => s
        | .go c => s.modUpd team fun e => { e with queue := s.begins u c :: rest }
        | .late => ((s.modUpd team fun e => { e with queue := rest }).addEventsFor u.ctx team evAddr))

/-! ### The rules (R344, R346) -/

/-- The values of one element: weight, state words, gradient x, and the constants it uses. -/
structure ElemIn where
  w : W32
  m1 : W32
  m2 : W32
  x : FVal
  deriving DecidableEq, Repr

/-- The values that a rule writes (R344): w', m1', m2'. -/
def ruleOut (u : UpdReq) (c : UpdConsts) (e : ElemIn) : UVal × UVal × UVal :=
  let w := uIn e.w
  let m := uIn e.m1
  let eta := uIn u.eta
  let b1 : UVal := (⟨oneF, false⟩ : UVal).sub (uIn u.beta1)
  let b2 : UVal := (⟨oneF, false⟩ : UVal).sub (uIn u.beta2)
  let g := UVal.mul ⟨e.x, false⟩ (uIn c.q)
  let lambda := uIn u.lambda
  if u.rule = 0 then (w.sub (eta.mul g), m, uIn e.m2)
  else if u.rule = 1 then
    let d0 := (uIn u.beta1).fma m (b1.mul g)
    let d : FVal := if d0.v.isNan then .nan else if d0.v.isZero then FVal.zero else .fin d0.v.sign 1 0
    (w.sub (eta.mul (lambda.fma w ⟨d, d0.inv⟩)), (uIn u.beta2).fma m (b2.mul g), uIn e.m2)
  else if u.rule = 2 then
    let m1 := (uIn u.beta1).fma m (b1.mul g)
    let m2 := (uIn u.beta2).fma (uIn e.m2) (b2.mul (g.mul g))
    let mh := m1.div (uIn c.c1)
    let vh := m2.div (uIn c.c2)
    let z := lambda.fma w (mh.div (vh.sqrt.add (uIn u.eps)))
    (w.sub (eta.mul z), m1, m2)
  else
    let m1 := (uIn u.beta1).fma m g
    (w.sub (eta.mul (lambda.fma w m1)), m1, uIn e.m2)

/-- A written value: a NaN is canonical (R346). -/
def UVal.code (x : UVal) : W32 := f32Code x.v

/-- The result of one element: its new words and its events, each at most once (R346). -/
def ruleStep (u : UpdReq) (c : UpdConsts) (e : ElemIn) : (W32 × W32 × W32) × Flags :=
  let o := ruleOut u c e
  let written := [o.1] ++ (if 0 < stateWords u.rule then [o.2.1] else []) ++ (if u.rule = 2 then [o.2.2] else [])
  let ins := [f32 e.w.toNat, e.x] ++ (if 0 < stateWords u.rule then [f32 e.m1.toNat] else []) ++
    (if u.rule = 2 then [f32 e.m2.toNat] else [])
  let finite := ins.all fun v => !v.isNan && !v.isInf
  ((o.1.code, o.2.1.code, o.2.2.code),
   { sat := finite && written.any fun v => v.v.isInf, invalid := written.any (·.inv) })

/-- Events of a list of elements. -/
def flagEvents (l : List Flags) : Events :=
  l.foldl (fun e f => e.count 0 0 f) { }

/-! ### Completing a tensor request (R342, R345, R347) -/

/-- OUT_SKIPPED (R332): elements not written, and REASON. -/
def skippedWord (elems reason : Nat) : Nat := if reason = 0 then 0 else satTo 0xFFFFFFF elems + reason * 2 ^ 28

/-- The weight of element i of a tensor request. -/
def weightAt (mem : Memory) (r : List Byte) (i : Nat) : W32 :=
  if tWtype r = 0x19 then BitVec.ofNat 32 (memNat mem (tW r + 2 * i) 2 * 65536 + memNat mem (tWlo r + 2 * i) 2)
  else BitVec.ofNat 32 (memNat mem (tW r + 4 * i) 4)

/-- The bytes that a weight is written to (R345). -/
def weightCells (r : List Byte) (i : Nat) (w : W32) : List (Nat × List Byte) :=
  if tWtype r = 0x19 then
    [(tW r + 2 * i, leBytes 2 (w.toNat / 65536)), (tWlo r + 2 * i, leBytes 2 (w.toNat % 65536))]
  else [(tW r + 4 * i, leBytes 4 w.toNat)]

/-- Applies a tensor request to the elements of range n (R347): the pieces written, and the events. -/
def tensorPieces (mem : Memory) (u : UpdReq) (c : UpdConsts) (n : Nat) : List (Nat × List Byte) × Events :=
  let r := u.record
  let out := (List.range (min 16384 (tElems r - 16384 * n))).map fun j =>
    let i := 16384 * n + j
    (i, ruleStep u c
      ⟨weightAt mem r i, BitVec.ofNat 32 (if 0 < stateWords u.rule then memNat mem (tS0 r + 4 * i) 4 else 0),
       BitVec.ofNat 32 (if u.rule = 2 then memNat mem (tS1 r + 4 * i) 4 else 0),
       gradAt mem (tGtype r) (tGrad r) i⟩)
  (out.flatMap fun y =>
    weightCells r y.1 y.2.1.1 ++
    (if 0 < stateWords u.rule then [(tS0 r + 4 * y.1, leBytes 4 y.2.1.2.1.toNat)] else []) ++
    (if u.rule = 2 then [(tS1 r + 4 * y.1, leBytes 4 y.2.1.2.2.toNat)] else []),
   flagEvents (out.map fun y => y.2.2))

/-- STACK as a request in progress reads it (R348). -/
def State.updView (s : State) (t : Nat) (u : UpdReq) : Memory := s.streamView ⟨t, none, .ue, none⟩ u.since

/-- Writes pieces of STACK as an update request: where another wrote meanwhile, either value stays (R348). -/
def State.writePieces (s : State) (t since : Nat) (l : List (Nat × List Byte)) : State :=
  let a : Accessor := ⟨t, none, .ue, none⟩
  s.store a .stack
    (s.streamCells a since (l.flatMap fun x => (List.range x.2.length).map fun i => (x.1 + i, x.2.getD i 0)))

/-- Counts a completed request or set (R350). -/
def State.countUpdate (s : State) (reason : Nat) : State :=
  { s with regs := { s.regs with
      updRequests := s.regs.updRequests + 1
      updNonfinite := if reason = 2 then s.regs.updNonfinite + 1 else s.regs.updNonfinite } }

/-! ### Blocks (R98, R100, R303, R347) -/

/-- The block of an interrupted run of the launch that is DONE and not yet reached again (R100 step 4). -/
def State.doneBefore (s : State) (u : UpdReq) (key : Nat) : Option Block :=
  match s.launchOf u with
  | some l => l.skip.find? fun b => b.key == key && b.mark == .done
  | none => none

/-- Records a block's mark in its launch (R98): a block of this run that is not DONE passes to its new mark, and one of
an interrupted run has been reached again. -/
def State.markBlock (s : State) (u : UpdReq) (b : Block) : State :=
  let put (l : Launch) : Launch :=
    { l with
      skip := eraseFirst (fun y => y.key == b.key) l.skip
      wrote := (l.wrote.filter fun y => !(y.key == b.key && y.mark != .done)) ++ [b] }
  s.modCtx u.ctx fun x => { x with launches := modWhere (fun l => l.seq == u.seq) put x.launches }

/-- A block whose writes are complete. -/
def Block.done (b : Block) : Block := { b with mark := .done, fresh := [], old := [] }

/-- Whether the LAUNCH of a request is PROTECTED (R82, R98). -/
def State.protects (s : State) (u : UpdReq) : Bool :=
  match s.cmd u.ctx u.seq with
  | some y => y.pkt.flags.getLsbD 1
  | none => false

/-- A block as its request produces it, not yet DONE (R98): STAGED where the launch is PROTECTED, else BEGUN. One that an
interrupted run has made DONE is taken as it is. -/
def State.newBlock (s : State) (t : Nat) (u : UpdReq) (c : UpdConsts) (key : Nat) (table : Option Nat)
    (new : Unit → List (Nat × Nat × List Byte) × Events) : Block :=
  match s.doneBefore u key with
  | some b => b
  | none =>
    let n := new ()
    let mem := s.engineView t .ue .stack
    { key := key, mark := if s.protects u then .staged else .begun
      vals := ⟨c, u.eta, u.lambda, u.beta1, u.beta2⟩, ev := n.2, table := table, fresh := n.1
      old := n.1.map fun x => (x.1, memRead mem x.1 x.2.2.length) }

/-- The blocks of a tensor request, in ascending element order (R347). -/
def State.tensorBlocks (s : State) (t : Nat) (u : UpdReq) (c : UpdConsts) : List Block :=
  (List.range (ceilDiv (tElems u.record) 16384)).map fun i =>
    s.newBlock t u c (rangeKey u.record i) none fun _ =>
      let p := tensorPieces (s.updView t u) u c i
      (p.1.map fun x => (x.1, 0, x.2), p.2)

/-- Events of a list of blocks. -/
def blockEvents (l : List Block) : Events := l.foldl (fun e b => e.plus b.ev) { }

/-- Completes a tensor request (R342, R346, R347). -/
def State.finishTensor (s : State) (t : Nat) (u : UpdReq) (c : UpdConsts) (rest : List UpdReq) : State :=
  let blocks := if c.reason = 0 then s.tensorBlocks t u c else []
  let s0 := blocks.foldl (fun s b => s.markBlock u b.done) s
  let s1 := (s0.modUpd t fun e => { e with queue := rest }).writePieces t u.since
    (blocks.flatMap fun b => b.fresh.map fun x => (x.1, x.2.2))
  let s2 := s1.engineWrite t .ue (.cluster t) (u.recordAt + 0x50)
    (leBytes 4 (skippedWord (tElems u.record) c.reason))
  (((s2.addEventsFor u.ctx t (blockEvents blocks)).countUpdate c.reason)).signalDone t u.ctx u.done

/-! ### Completing an update set (R302 to R304) -/

/-- REASON of a begun request; 0 before it begins. -/
def UpdReq.reason (u : UpdReq) : Nat := match u.begun with | some c => c.reason | none => 0

/-- The contributions to a row in order (R302): the gradient rows of every team's handle that name it. A skipped request
reads no gradient (R342); one of a FROZEN group does (R343). -/
def contributions (mem : Memory) (k : Table) (set : List (Nat × UpdReq)) (row col : Nat) : List FVal :=
  (set.filter fun q => decide (q.2.reason ≤ 1)).flatMap fun q =>
    ((List.range q.2.ids.length).filter fun i => q.2.ids.getD i 0 == row).map fun i =>
      gradAt mem (rGtype q.2.record) (rGrad q.2.record + i * gradRow k q.2.record) col

/-- The coalesced gradient of one column (R302). -/
def coalesce (l : List FVal) : FVal :=
  match l with
  | [] => FVal.zero
  | a :: r => r.foldl (fun acc v => rn32 (acc.add v)) a

/-- The weight of a column of a slice, and the bytes of a slice with new words (R284, R345). -/
def sliceWeight (k : Table) (b : List Byte) (j : Nat) : W32 :=
  if k.vtype = 0x19 then BitVec.ofNat 32 (fieldAt b (2 * j) 2 * 65536 + fieldAt b (2 * k.cols + 2 * j) 2)
  else BitVec.ofNat 32 (fieldAt b (4 * j) 4)
def sliceWord (k : Table) (b : List Byte) (w j : Nat) : W32 :=
  BitVec.ofNat 32 (fieldAt b (k.value + 4 * (w * k.cols + j)) 4)
def newSlice (k : Table) (out : List (W32 × W32 × W32)) : List Byte :=
  let values : List Byte :=
    if k.vtype = 0x19 then
      (out.flatMap fun o => leBytes 2 (o.1.toNat / 65536)) ++ (out.flatMap fun o => leBytes 2 (o.1.toNat % 65536))
    else out.flatMap fun o => leBytes 4 o.1.toNat
  let states : List Byte :=
    (if 0 < stateWords k.rule then out.flatMap fun o => leBytes 4 o.2.1.toNat else []) ++
    (if k.rule = 2 then out.flatMap fun o => leBytes 4 o.2.2.toNat else [])
  values ++ states

/-- The update of one row (R302, R344): its new slice and events. -/
def updateRow (mem : Memory) (k : Table) (u : UpdReq) (c : UpdConsts) (set : List (Nat × UpdReq)) (row : Nat) :
    List Byte × Events :=
  let b := memRead mem (k.rowAddr row) (usedBytes k.vtype k.rule k.cols)
  let out := (List.range k.cols).map fun j =>
    ruleStep u c ⟨sliceWeight k b j, if 0 < stateWords k.rule then sliceWord k b 0 j else 0,
      if k.rule = 2 then sliceWord k b 1 j else 0, coalesce (contributions mem k set row j)⟩
  (newSlice k (out.map Prod.fst), flagEvents (out.map Prod.snd))

/-- The request whose update engine updates a row (R302): that of the team at position row mod TEAMS; none where it is
skipped. -/
def rowMember (set : List (Nat × UpdReq)) (row : Nat) : Option (Nat × UpdReq × UpdConsts) :=
  let order := setTeams set
  match order[row % order.length]? with
  | none => none
  | some t =>
    match set.find? fun q => q.1 == t with
    | some q => q.2.begun.bind fun c => if c.reason = 0 then some (q.1, q.2, c) else none
    | none => none

/-- The new slice of a row of a set, with its events; none where its engine's request is skipped. -/
def State.setRow (s : State) (k : Table) (set : List (Nat × UpdReq)) (row : Nat) : Option (List Byte × Events) :=
  (rowMember set row).map fun m => updateRow (s.updView m.1 m.2.1) k m.2.1 m.2.2 set row

/-- The blocks of a complete set, in ascending row order (R303). -/
def State.setBlocks (s : State) (t : Nat) (u : UpdReq) (c : UpdConsts) (k : Table) (set : List (Nat × UpdReq)) :
    List Block :=
  (rowBlocks k (setRows k set)).map fun l =>
    s.newBlock t u c (k.rowAddr (l.headD 0)) (some (rTable u.record)) fun _ =>
      let out := l.filterMap fun r => (s.setRow k set r).map fun x => (r, x)
      (out.map fun x => (k.rowAddr x.1, x.1, x.2.1), out.foldl (fun e x => e.plus x.2.2) { })

/-- Mirroring ends for a table (R304): MIRROR_LOST and the TABLE_MIRROR interrupt. -/
def State.mirrorEnds (s : State) (c : W32) (table : Nat) : State :=
  match s.table c table with
  | some k =>
    if k.mirrorLost then s
    else
      let s1 := s.modTable c table fun k => { k with mirrorLost := true, resumeAt := none }
      ({ s1 with regs := { s1.regs with mirrorsLost := s1.regs.mirrorsLost + 1 } }).pulse 202
  | none => s

/-- The payload of a part of a mirror write (notes/assumptions/20.md): table, row, offset, bytes. -/
def mirrorPayload (table row off : Nat) (b : List Byte) : List Byte :=
  leBytes 4 table ++ leBytes 8 row ++ leBytes 4 off ++ b

/-- Sends a row's slice to the buddy's mirror table in frames of KIND 6 (R304). -/
def State.sendMirror (s : State) (c : W32) (t table row : Nat) (k : Table) (slice : List Byte) : State :=
  if k.buddy = 0xFFFF || k.mirrorLost then s
  else
    (List.range (ceilDiv slice.length 4080)).foldl (fun s i =>
      match s.table c table with
      | some k1 =>
        if k1.mirrorLost then s
        else
          s.sendOp c t 16 k.buddy 6 (mirrorPayload table row (4080 * i) ((slice.drop (4080 * i)).take 4080))
            (.mirror c table k.buddy) fun s => s.mirrorEnds c table
      | none => s) s

/-- Writes one updated row everywhere it is held (R303, R295, R298, R304). -/
def State.writeRow (s : State) (c : W32) (t since table row : Nat) (k : Table) (slice : List Byte) : State :=
  let s1 := s.writePieces t since [(k.rowAddr row, slice)]
  ((s1.writeHot c table row (slice.take k.value)).refreshStaged c table row).sendMirror c t table row k slice

/-- Writes the new contents of a block home: of a table's, everywhere its rows are held. -/
def State.putBlock (s : State) (c : W32) (t since : Nat) (b : Block) : State :=
  match b.table with
  | none => s.writePieces t since (b.fresh.map fun x => (x.1, x.2.2))
  | some n =>
    match s.table c n with
    | some k => b.fresh.foldl (fun s x => s.writeRow c t since n x.2.1 k x.2.2) s
    | none => s

/-- Handle rows of a request at or beyond ROWS (R303). -/
def UpdReq.droppedRows (u : UpdReq) (k : Table) : Nat := (u.ids.filter fun r => decide (k.rows ≤ r)).length

/-- The outcome fields of one request of a set (R301, R303, R337, R342): rows dropped, OUT_STATUS,
OUT_SKIPPED. -/
def State.rowsOut (s : State) (t : Nat) (u : UpdReq) (k : Table) (status reason : Nat) : State :=
  ((s.engineWrite t .ue (.cluster t) (u.recordAt + 0x28) (leBytes 4 (u.droppedRows k))).engineWrite t .ue (.cluster t)
    (u.recordAt + 0x2C) (leBytes 4 status)).engineWrite t .ue (.cluster t) (u.recordAt + 0x34)
    (leBytes 4 (skippedWord (u.ids.length * k.cols) reason))

/-- Ends one request of a set: its outcome, its events and dropped rows (those of a FROZEN group count nothing, R343),
and DONE (R303, R342, R346). -/
def State.endMember (s : State) (k : Table) (q : Nat × UpdReq) : State :=
  ((s.rowsOut q.1 q.2 k 1 q.2.reason).addEventsFor q.2.ctx q.1
    (q.2.ev.plus { idxDrop := if q.2.reason = 1 then 0 else q.2.droppedRows k })).signalDone q.1 q.2.ctx q.2.done

/-- Forgets the skipped requests of a context that a test picks: their set has ended, or their launch. -/
def State.dropSkipped (s : State) (c : W32) (which : UpdReq → Bool) : State :=
  s.modCtx c fun x => { x with skipped := x.skipped.filter fun q => !which q.2 }

/-- Whether two requests are of one update set (R302). -/
def UpdReq.together (u y : UpdReq) : Bool :=
  y.rows && y.ctx == u.ctx && y.step == u.step && rTable y.record == rTable u.record

/-- Ends every request of a set (R303). -/
def State.endSet (s : State) (set : List (Nat × UpdReq)) (k : Table) (reason : Nat) : State :=
  let s1 := set.foldl (fun s q =>
    (s.modUpd q.1 fun e => { e with queue := e.queue.filter fun u => u != q.2 }).dropSkipped q.2.ctx q.2.together) s
  (set.foldl (fun s q => s.endMember k q) s1).countUpdate reason

/-- Ends a request that is skipped for its barrier's fault or a poisoned object (R340, R342), whatever its set does; the
others of the set, those that are yet to be taken included, go on without it. With the last one the set has ended. -/
def State.endSkipped (s : State) (t : Nat) (u : UpdReq) (k : Table) (rest : List UpdReq) : State :=
  let s1 := (s.modUpd t fun e => { e with queue := rest }).modCtx u.ctx fun x => { x with skipped := x.skipped ++ [(t, u)] }
  let leave (y : UpdReq) : UpdReq := if u.together y then { y with gone := t :: u.gone ++ y.gone } else y
  let team (x : Team) : Team := { x with upd := { x.upd with queue := x.upd.queue.map leave } }
  let s2 : State := { s1 with teams := s1.teams.map fun y => (y.1, team y.2) }
  let s3 := s2.endMember k (t, u)
  let ended := (setTeams [(t, u)]).length == rTeams u.record
  if (s2.setOf u.ctx (rTable u.record) u.step).isEmpty && ended then
    (s3.dropSkipped u.ctx u.together).countUpdate u.reason
  else s3

/-- The blocks of a set of a launch whose mirror writes are acknowledged are DONE (R98). -/
def State.doneBlocks (s : State) (u : UpdReq) : State :=
  let put (b : Block) : Block := if b.table = some (rTable u.record) then b.done else b
  s.modCtx u.ctx fun x =>
    { x with launches := modWhere (fun l => l.seq == u.seq) (fun l => { l with wrote := l.wrote.map put }) x.launches }

/-- Applies a complete set, every request of which has begun and stands first in its queue; with
mirror writes outstanding its requests wait for the acknowledgements (R302 to R304). -/
def State.finishSet (s : State) (t : Nat) (u : UpdReq) (c : UpdConsts) (rest : List UpdReq) : State :=
  let table := rTable u.record
  let set := s.setOf u.ctx table u.step
  match s.table u.ctx table with
  | none => s
  | some k =>
    if c.reason = 4 ∨ c.reason = 5 then s.endSkipped t u k rest
    else if !(s.setReady u && set.all fun q => q.2.begun.isSome && !q.2.held) ||
        !s.queuesTake u.ctx table (setRows k set) then s
    else if set.all fun q => q.2.reason != 0 then s.endSet set k c.reason
    else
      let blocks := s.setBlocks t u c k set
      let s1 := blocks.foldl (fun s b => (s.markBlock u b).putBlock u.ctx t u.since b) s
      let ready := set.map fun q => if q.1 = t then (q.1, { q.2 with ev := blockEvents blocks }) else q
      let s2 := ready.foldl (fun s q => s.modUpd q.1 fun e =>
        { e with queue := { q.2 with held := true } :: e.queue.drop 1 }) s1
      if s2.mirroring u.ctx then s2
      else (s2.doneBlocks u).endSet (ready.map fun q => (q.1, { q.2 with held := true })) k c.reason

/-- The sets whose rows are written and whose mirror writes are all acknowledged end (R303). -/
def State.endHeldSets (s : State) (c : W32) : State :=
  if s.mirroring c then s
  else
    (List.range 24).foldl (fun s t =>
      match (s.team t).upd.queue.head? with
      | some u =>
        if u.held && u.ctx == c then
          match s.table c (rTable u.record) with
          | some k => (s.doneBlocks u).endSet (s.setOf c (rTable u.record) u.step) k u.reason
          | none => s
        else s
      | none => s) s

/-- The request that the update engine of a team works on, with its blocks: the first request where it has begun and is not
skipped; of an update set, at the lowest of its teams, once every request has begun and the poste restante queues take its
writes (R299). -/
def State.writing (s : State) (t : Nat) : Option (UpdReq × List Block) :=
  match (s.team t).upd.queue with
  | [] => none
  | u :: _ =>
    match u.begun with
    | none => none
    | some c =>
      if u.held || c.reason != 0 then none
      else if !u.rows then some (u, s.tensorBlocks t u c)
      else
        match s.table u.ctx (rTable u.record) with
        | some k =>
          let set := s.setOf u.ctx (rTable u.record) u.step
          if s.setReady u && (set.all fun q => q.2.begun.isSome) && (sortOn id (set.map Prod.fst)).head? == some t &&
              s.queuesTake u.ctx (rTable u.record) (setRows k set) then
            some (u, s.setBlocks t u c k set)
          else none
        | none => none

/-- What an abandoned launch leaves of the work of a team's update engine: each block is, freely, as before or as after
(R101, R369); a reset ends it after a free number of whole blocks in their order (R494). -/
def State.leaveBlocks (s : State) (inOrder : Bool) (t : Nat) : State :=
  match s.writing t with
  | none => s
  | some (u, blocks) =>
    let left := if inOrder then blocks.take ((Config.freeWord s.free).toNat % (blocks.length + 1))
      else blocks.filter fun b => Config.choice s.free b.key
    left.foldl (fun s b => s.putBlock u.ctx t u.since b) s.bumpFree

/-! ### COMMIT.ARRIVE (R361), which waits for mirroring (R304) -/

/-- Whether an UPD.ROWS has mirror writes yet to make (R304): its rows are not written, and it has begun, or its set has
been taken whole and waits for no release any more. -/
def State.willMirror (s : State) (u : UpdReq) : Bool :=
  u.rows && !u.held && u.fault == 0 &&
  (match u.begun with
   | some k => k.reason == 0
   | none => (setTeams (s.setOf u.ctx (rTable u.record) u.step)).length == rTeams u.record) &&
  match s.table u.ctx (rTable u.record) with
  | some k => k.buddy != 0xFFFF && !k.mirrorLost
  | none => false

/-- Whether an UPD.ROWS of a context that stands before every request that waits for a release has mirror writes yet to
make (R304, R348). -/
def State.mirrorsAhead (s : State) (c : W32) : Bool :=
  let goes (u : UpdReq) : Bool := u.begun.isSome || u.barrier == 0 || u.kept.isSome || !s.unreleased u
  s.teams.any fun t => (t.2.upd.queue.takeWhile goes).any fun u => u.ctx == c && s.willMirror u

/-- Sends an arrival, or holds it while a mirror write of its context, made or yet to be made, is unacknowledged (R304)
or its home is LOST (R430). -/
def State.offerArrival (s : State) (c : W32) (dest : W16) (tag index : Nat) (a : Arrival) : State :=
  if s.mirroring c || s.mirrorsAhead c || (dest != 0xFFFF && s.lost dest) then
    let seq : W64 := match (s.team a.team).kernel with | some k => k.seq | none => 0
    s.modFabric fun f =>
      { f with remote := f.remote ++
          [⟨0, s.postcodeOf c, dest, a.team, a.core, c, seq, .arrive tag index a true⟩] }
  else s.sendArrival c dest tag index a

/-- Offers again every held arrival (R304, R430), in the order in which they were issued. -/
def State.offerHeld (s : State) : State :=
  let held := s.fabric.remote.filter fun r =>
    match r.work with
    | .arrive _ _ _ h => h
    | _ => false
  let s1 := s.modFabric fun f =>
    { f with remote := f.remote.filter fun r =>
        match r.work with
        | .arrive _ _ _ h => !h
        | _ => true }
  held.foldl (fun s r =>
    match r.work with
    | .arrive tag index a _ => s.offerArrival r.ctx r.dest tag index a
    | _ => s) s1

/-- One core's COMMIT.ARRIVE (R354, R361). -/
def State.arriveCore (s : State) (t q : Nat) (w : LumfyWord) : State :=
  let h := syncA (s.core t q) w.args
  let at_ := ((s.core t q).value w.args false w.args.b).toNat
  let tag := s.free
  match s.holderOf t, s.arrivalRecord t q at_ with
  | (c, some x), some r =>
    let pc := s.postcodeOf c
    let epoch : W16 := match s.role pc with | some e => e.epoch | none => 0
    let a := arrivalOf pc epoch t q (.core t q tag) c r
    let s1 := (s.markExternal t).await t q (awaitedBy s w w.args.d true)
    match s.resolve c x h true with
    | .here _ i => s1.offerArrival c 0xFFFF tag i a
    | .away dest _ => s1.offerArrival c dest tag (hIndex h) a
    | .bad => s.zeroD t q w
  | (_, some _), none => s.zeroD t q w
  | (_, none), _ => s

/-- COMMIT.ARRIVE (R361). -/
def execCommitArrive (team : Nat) (x : Args) (s : State) : Result :=
  .next (s.issue team ⟨0x3D8, x⟩ fun s' q => s'.arriveCore team q ⟨0x3D8, x⟩)

/-! ### Copies of a taken role's ranges (R426, R427) -/

/-- Whether an update request of a context with a STEP up to r has yet to signal DONE (R426): in its teams, in its saved
state, or of a launch for such a step that is to be run again. -/
def State.updatesDue (s : State) (c : W32) (r : Nat) : Bool :=
  let due (t : Nat × Team) : Bool := t.2.upd.queue.any fun u => u.ctx == c && decide (u.step.toNat ≤ r)
  let again (y : Cmd) : Bool :=
    y.opcode == 0x0011 && decide (Packet.field y.pkt 0x10 8 ≤ r) &&
    (match y.phase with
     | .accepted => y.replayed
     | .started => y.replayed || (match s.ctx c with
       | some x => x.launches.any fun l => l.seq == y.seq && l.interrupted
       | none => false)
     | _ => false)
  s.teams.any due || (match s.ctx c with | some x => x.saved.any due | none => false) || (s.cmdsOf c).cmds.any again

/-- A read that copies a range for the new holder of a lost role names r after the range (notes/assumptions/20.md). -/
def copyStep (f : Frame) : Option Nat := if 18 ≤ f.payload.length then some (fieldAt f.payload 10 8) else none

/-- The state list of a context (R417): its ranges, as region offset and bytes, SOURCE and SOURCE_OFFSET. -/
structure ListRange where
  offset : Nat
  bytes  : Nat
  source : W16
  srcOff : Nat
  deriving DecidableEq, Repr

/-- The ranges of the state list at an address. -/
def State.rangesAt (s : State) (list : Nat) : List ListRange :=
  let m := s.busView
  (List.range (min 2046 (memNat m list 4))).map fun e =>
    let a := list + 0x40 + 32 * e
    ⟨memNat m a 8, memNat m (a + 8) 8, BitVec.ofNat 16 (memNat m (a + 16) 2), memNat m (a + 24) 8⟩

/-- The records of a context, the older first (R419). -/
def State.snapsOf (s : State) (c : W32) : List SnapRec := (s.fn (fnOf c)).snaps.filter fun r => r.ctx == c

/-- A read that copies a range of an image names the SNAP_ID after that (R432, notes/assumptions/20.md). -/
def copySnap (f : Frame) : Option Nat := if 22 ≤ f.payload.length then some (fieldAt f.payload 18 4) else none

/-- Where an image of a context's snapshot holds a part of the region (R418, R432): at the position that the list in
the image gives its range. -/
def State.inImage (s : State) (c : W32) (id off n : Nat) : Option Nat :=
  match (s.snapsOf c).find? fun r => r.id.toNat == id with
  | none => none
  | some r =>
    let body := r.dest + 4096
    ((s.rangesAt (body + 0x810000)).foldl (fun (a : Option Nat × Nat) g =>
      (if a.1.isNone && decide (g.offset ≤ off) && decide (off + n ≤ g.offset + g.bytes) then
        some (a.2 + (off - g.offset)) else a.1, a.2 + g.bytes)) (none, body + 0x820000)).1

/-- Mirroring of a table is to resume as the new holder of its buddy role has joined, which copies from it: its state list
names the table as the source of its mirror table (R427, notes/assumptions/26.md). It joins for the step after `r`. -/
def Table.resumes (k : Table) (base : Nat) (pc : W16) (off n r : Nat) : Table :=
  if k.buddy = pc ∧ base + off ≤ k.base ∧ k.base < base + off + n then
    { k with resumeAt := if k.mirrorLost then some (BitVec.ofNat 64 (r + 1)) else none }
  else k

/-- A FABRIC read request, answered from the region of the context that holds the role (R115, R116). -/
def State.answerRead (s : State) (f : Frame) (r : Role) : State :=
  let off := fieldAt f.payload 0 8
  let n := fieldAt f.payload 8 2
  let answer (s : State) (dropped : Bool) (data : List Byte) : State :=
    (s.sendFrame f.destPostcode f.srcPostcode 3 5 0 r.ctx
      (leBytes 4 f.flowSeq.toNat ++ leBytes 1 (natOf dropped) ++ data)).1
  match s.ctx r.ctx, copySnap f with
  | none, _ => answer s true []
  | some _, some id =>
    (match s.inImage r.ctx id off n with
     | some a => answer s false (memRead s.busView a n)
     | none => answer s true [])
  | some x, none =>
    let s1 := match copyStep f with
      | none => s
      | some j => s.modCtx r.ctx fun y =>
        { y with tables := y.tables.map fun t => (t.1, t.2.resumes x.regionBase.toNat f.srcPostcode off n j) }
    answer s1 (s.regionDrops x off n) (s.regionRead x s.busView off n)

/-- A FABRIC read request: a copy waits for the updates up to its step (R426). -/
def State.takeRead (s : State) (f : Frame) (r : Role) : State :=
  match copyStep f with
  | some n =>
    if (copySnap f).isNone && s.updatesDue r.ctx n then s.modFabric fun x => { x with copies := x.copies ++ [f] }
    else s.answerRead f r
  | none => s.answerRead f r

/-- Answers the copies that wait for no update any more. -/
def State.answerCopies (s : State) : State :=
  s.fabric.copies.foldl (fun s f =>
    match s.role f.destPostcode with
    | some r => s.takeRead f r
    | none => s) (s.modFabric fun x => { x with copies := [] })

/-- UPDATE_REQUEST_COMPLETE (R303, R342): the first request, once it has begun, writes every range; arrivals that waited
for its mirror writes are offered again (R304). -/
def execUpdateRequestComplete (team : Nat) (s : State) : Result :=
  .next (match (s.team team).upd.queue with
    | [] => s
    | u :: rest =>
      match u.begun with
      | none => s
      | some c =>
        if u.held then s
        else if u.rows then (s.bumpFree.finishSet team u c rest).offerHeld.answerCopies
        else (s.bumpFree.finishTensor team u c rest).answerCopies)

/-! ### The end of a launch (R302) -/

/-- The queues of update requests without those that can still run one after another: tensor requests, and sets that are
complete and stand first in every queue. What is left cannot begin. -/
def State.stuckQueues (s : State) : Nat → List (Nat × List UpdReq) → List (Nat × List UpdReq)
  | 0, l => l
  | n + 1, l =>
    let free (u : UpdReq) : Bool :=
      !u.rows || u.fault != 0 ||
      let set := s.setOf u.ctx (rTable u.record) u.step
      (setTeams set).length == rTeams u.record && set.all fun q => l.any fun y => y.1 == q.1 && y.2.head? == some q.2
    State.stuckQueues s n (l.map fun y =>
      match y.2 with
      | u :: rest => if free u then (y.1, rest) else y
      | [] => y)

/-- The update requests of a launch that belong to sets which cannot begin within it (R302, R348): sets that are
incomplete, and complete ones that stand in each other's way. -/
def State.stuckUpdates (s : State) (c : W32) (seq : W64) : List (Nat × UpdReq) :=
  let short (u : UpdReq) : Bool :=
    u.rows && u.ctx == c && u.seq == seq && u.begun.isNone && u.fault == 0 &&
    (setTeams (s.setOf u.ctx (rTable u.record) u.step)).length != rTeams u.record
  let full := s.teams.map fun y => (y.1, y.2.upd.queue.filter fun u => !short u)
  let left := s.stuckQueues ((full.map fun y => y.2.length).foldl (· + ·) 0) full
  (s.teams.flatMap fun y => (y.2.upd.queue.filter short).map fun u => (y.1, u)) ++
  left.flatMap fun y =>
    (y.2.filter fun u => u.rows && u.ctx == c && u.seq == seq && u.begun.isNone && u.fault == 0).map fun u => (y.1, u)

/-- Update sets of a launch that cannot begin when its kernel has ended in every team (R302):
OUT_STATUS 2, ADDR_DROP, DONE. -/
def State.endIncomplete (s : State) (c : W32) (seq : W64) : State :=
  (s.stuckUpdates c seq).foldl (fun s q =>
    let s1 := s.modUpd q.1 fun e => { e with queue := eraseFirst (fun u => u == q.2) e.queue }
    let s2 := s1.engineWrite q.1 .ue (.cluster q.1) (q.2.recordAt + 0x2C) (leBytes 4 2)
    (s2.addEventsFor c q.1 evAddr).signalDone q.1 c q.2.done) s

end Sys2Proof.Machine
end

