-- ==== Sys2Proof/Machine/Commands.lean ====
section
/-! DEFINITION. Accepted commands: finishing, completing, abandoning (spec/03 R80, R81, R88, R92 to
R94, R100, R101; spec/04 R102, R123). -/

namespace Sys2Proof.Machine

open Sys2Proof

/-- Changes the commands of a context. -/
def State.modCmds (s : State) (c : W32) (f : CmdState → CmdState) : State :=
  { s with cmds := mapPut s.cmds c.toNat (f (s.cmdsOf c)) }

/-- Changes one command. -/
def State.modCmd (s : State) (c : W32) (seq : W64) (f : Cmd → Cmd) : State :=
  s.modCmds c fun k => { k with cmds := modWhere (fun x => x.seq == seq) f k.cmds }

/-- Whether a command has finished. -/
def Cmd.over (x : Cmd) : Bool :=
  match x.phase with
  | .accepted => false
  | .started => false
  | _ => true

/-- Whether a command has completed: its completion is in the ledger (R94). -/
def Cmd.done (x : Cmd) : Bool :=
  match x.phase with
  | .recorded _ _ _ _ => true
  | _ => false

def Cmd.begun (x : Cmd) : Bool := x.phase != .accepted

/-- A command finishes with its status and counts; a finished one keeps its own. -/
def State.finishCmd (s : State) (c : W32) (seq : W64) (status a b : Nat) : State :=
  s.modCmd c seq fun x =>
    if x.over then x
    else { x with phase := .finished (BitVec.ofNat 16 status) (BitVec.ofNat 32 (satTo 0xFFFFFFFF a))
                    (BitVec.ofNat 32 (satTo 0xFFFFFFFF b)) }

/-- Finishes the command that a reference names. -/
def State.finishRef (s : State) (r : CmdRef) (status a b : Nat) : State := s.finishCmd r.ctx r.seq status a b

/-- The ledger with one more completion: the 4,096 highest SEQ values (R81). -/
def ledgerWith (l : List (W64 × W16)) (seq : W64) (status : W16) : List (W64 × W16) :=
  let l1 := insertOn (fun x : W64 × W16 => x.1.toNat) (seq, status) l
  l1.drop (l1.length - 4096)

/-- The COMPLETE reply of a recorded command (R84). -/
def completeReply (c : W32) (x : Cmd) (status : W16) (a b : W32) (at_ : W64) : Reply :=
  ⟨x.seq, status, 2, false, c, at_, a, b, x.pkt.flags.getLsbD 2⟩

/-- Writes the COMPLETE replies of the leading commands that have completed, in SEQ order, and
reclaims their records (R93, R97). -/
def State.flushCmds : Nat → W32 → State → State
  | 0, _, s => s
  | n + 1, c, s =>
    match (s.cmdsOf c).cmds with
    | x :: rest =>
      match x.phase with
      | .recorded status a b at_ =>
        State.flushCmds n c
          ((s.modCmds c fun k => { k with cmds := rest }).pushReply (fnOf c) (completeReply c x status a b at_))
      | _ => s
    | [] => s

/-- Records a finished command in the ledger (R94), then writes the replies whose turn has come. -/
def State.completeCmd (s : State) (c : W32) (seq : W64) : State :=
  match s.cmd c seq with
  | some x =>
    match x.phase with
    | .finished status a b =>
      let s1 := s.modCmds c fun k =>
        { k with ledger := ledgerWith k.ledger seq status
                 cmds := modWhere (fun y => y.seq == seq)
                   (fun y => { y with phase := .recorded status a b s.postmark }) k.cmds }
      let s2 := if status = 0x0204 then s1.pulse (64 + fnOf c) else s1
      State.flushCmds (s2.cmdsOf c).cmds.length c s2
    | _ => s
  | none => s

/-! ### Launches (R102, R123, R366) -/


/-- Elapsed µs of a launch: the time it stood pre-empted is not counted (R451). -/
def State.launchUs (s : State) (l : Launch) : Nat :=
  ((s.postmark.toNat - l.startedAt.toNat) - l.pausedNs) / 1000

/-- How long a PREEMPTED context has stood so (R451). -/
def State.pausedNow (s : State) (x : Ctx) : Nat := if x.running then 0 else s.postmark.toNat - x.pausedAt.toNat

/-- The status that a fault gives its launch (R92, R148). -/
def FaultKind.status : FaultKind → Nat
  | .stepMismatch => 0x0203 | .ownerLost => 0x0202 | .syncUnderflow => 0x0205
  | .syncOverflow => 0x0206 | .badParam => 0x0102

/-- Update requests of a launch that it still waits for: of a launch that faulted, those begun
(R123, R342; notes/assumptions/31.md). -/
def State.launchUpdates (s : State) (c : W32) (l : Launch) : Bool :=
  s.teams.any fun y => y.2.upd.queue.any fun u =>
    u.ctx == c && u.seq == l.seq && (l.fault.isNone || u.begun.isSome)

/-- Drops the writes that a context's teams had not fenced: its launch has ended (R123). A BAR2 write is kept while a kernel
runs that may have to see it (R517). -/
def State.dropUnfenced (s : State) (teams : List Nat) : State :=
  let others := s.teams.any fun t => t.2.kernel.isSome && !teams.contains t.1
  { s with unfenced := s.unfenced.filter fun e => !teams.contains e.team && (e.team != 24 || others) }

/-- Cores whose work begins or goes on now see every BAR2 write before it whole (R517). -/
def State.seesHost (s : State) (teams : List Nat) : State :=
  let cores := teams.flatMap fun t => (List.range 16).map fun q => (t, q)
  { s with unfenced := s.unfenced.map fun e => if e.team = 24 then { e with seenBy := cores ++ e.seenBy } else e }

/-- Ends a launch once its kernel has ended in every team and its update requests are done (R123). -/
def State.tryFinishLaunch (s : State) (c : W32) (seq : W64) : State :=
  match s.ctx c with
  | none => s
  | some x =>
    match x.launch seq with
    | none => s
    | some l =>
      if l.teamsLeft.isEmpty && !s.launchUpdates c l then
        let status := match l.fault with | some f => f.kind.status | none => 0
        let s1 := s.modCtx c fun x => { x with launches := x.launches.filter fun y => y.seq != seq }
        (s1.dropUnfenced (bitsSet 24 l.teams)).finishCmd c seq status (s.launchUs l) l.events
      else s

/-! ### Abandoning (R99 to R101, R369) -/

/-- The requests on a table that wait for its flip (R306): prefetches not started, and UPD.ROWS not begun. -/
def State.queuedOn (s : State) (c : W32) (n : Nat) : Nat :=
  (s.teams.map fun y =>
    (y.2.rows.slots.filter fun x => x.2.ctx == c && pTable x.2.record == n && x.2.phase == .queued).length +
    (y.2.upd.queue.filter fun u => u.rows && u.ctx == c && rTable u.record == n && u.begun.isNone).length).foldl
      (· + ·) 0

/-- When a pre-emption or a resume acts (R63): at its AT, or at the start of its command. -/
def State.actsAt (s : State) (r : CmdRef) (at_ : W64) : Nat :=
  match s.cmd r.ctx r.seq with
  | some y => max at_.toNat y.startedAt.toNat
  | none => at_.toNat

/-- The µs since a pre-emption or a resume began to act. -/
def State.usSince (s : State) (r : CmdRef) (at_ : W64) : Nat := (s.postmark.toNat - s.actsAt r at_) / 1000

/-- When the quiesce of a pre-emption ended, if it has (R307, R450): its teams' issued instructions had completed, and the
flips that it waited for were done. While an update request of its teams is in progress, the end of that request's current
range is a free moment after that. -/
def State.quietAt (s : State) (p : Preempting) : Option Nat :=
  match s.ctxs.find? fun x => x.2.preempting == some p with
  | none => none
  | some x =>
    match mapGet s.meter.quiet x.1 with
    | none => none
    | some a =>
      let now := s.postmark.toNat
      let first := min now (max a.toNat (max (p.stoppedAt.getD a).toNat p.flippedAt.toNat))
      let writes := (bitsSet 24 x.2.teamMask).any fun t => (s.team t).upd.queue.any fun u => u.begun.isSome
      some (if writes then first + (Config.freeWord s.free).toNat % (now - first + 1) else first)

/-- The counts of a pre-emption so far (R88, R450): the µs of its quiesce, and of its save. -/
def State.preemptCounts (s : State) (p : Preempting) : Nat × Nat :=
  match p.stoppedAt, s.quietAt p with
  | some _, some q => ((q - s.actsAt p.cmd p.at_) / 1000, (s.postmark.toNat - q) / 1000)
  | _, _ => (s.usSince p.cmd p.at_, 0)

/-- The count of a resume so far: the µs of its restoring, which are part of the time since it acts. -/
def State.resumeCounts (s : State) (r : Resuming) : Nat × Nat :=
  ((Config.freeWord s.free).toNat % (s.usSince r.cmd r.at_ + 1), 0)

/-- The counts reached by a started command of a control context (R88). The vectors that a SELFTEST has run are a free
number. -/
def State.controlCounts (s : State) (r : CmdRef) (x : Cmd) : Nat × Nat :=
  if x.opcode = 0x0041 then
    match (s.ctxs.filterMap fun y => y.2.preempting).find? fun p => p.cmd == r with
    | some p => s.preemptCounts p
    | none => (0, 0)
  else if x.opcode = 0x0042 then
    match (s.ctxs.filterMap fun y => y.2.resuming).find? fun p => p.cmd == r with
    | some p => s.resumeCounts p
    | none => (0, 0)
  else if x.opcode = 0x0080 then ((Config.freeWord s.free).toNat % 2 ^ 32, 0)
  else (0, 0)

/-- The counts reached by a started command of a working context (R88). The bytes that a LOAD_PROGRAM has translated are a
free number of those it names. -/
def State.ownCounts (s : State) (c : W32) (k : Ctx) (x : Cmd) : Nat × Nat :=
    if x.opcode = 0x0010 then ((Config.freeWord s.free).toNat % (fieldAt x.pkt.params 0x08 4 + 1), 0)
    else if x.opcode = 0x0011 then
      match k.launch x.seq with
      | some l => (s.launchUs { l with pausedNs := l.pausedNs + s.pausedNow k }, l.events)
      | none => ((s.postmark.toNat - x.startedAt.toNat) / 1000, 0)
    else if x.opcode = 0x0020 then (x.blocks, 0)
    else if x.opcode = 0x0021 then
      match k.tables.find? fun t =>
          match t.2.replacing with
          | some r => r.cmd == ⟨c, x.seq⟩
          | none => false with
      | some t =>
        (match t.2.replacing with
         | some r => r.flipped.getD (s.postmark.toNat - r.startedAt.toNat, s.queuedOn c t.1)
         | none => (0, 0))
      | none => (0, 0)
    else if x.opcode = 0x0050 then
      match k.snapping with
      | some p =>
        (match p.startedAt with
         | some a => ((s.postmark.toNat - a.toNat) / 1000, 0)
         | none => (0, 0))
      | none => (0, 0)
    else if x.opcode = 0x0051 then ((s.postmark.toNat - x.startedAt.toNat) / 1000, 0)
    else (0, 0)

/-- The counts with which a command is abandoned (R88): those reached so far; none before its start. -/
def State.countsNow (s : State) (c : W32) (x : Cmd) : Nat × Nat :=
  match x.phase with
  | .accepted => (0, 0)
  | .started =>
    (match s.ctx c with
     | some k => s.ownCounts c k x
     | none => s.controlCounts ⟨c, x.seq⟩ x)
  | .finished _ a b | .recorded _ a b _ => (a.toNat, b.toNat)

/-- Completes every accepted command of a context that has not finished with ABANDONED, in SEQ order
(R101, R369): the state and how many. A finished one that is not yet in the ledger is abandoned too. -/
def State.abandonAll (s : State) (c : W32) (keep : W64 → Bool) : State × Nat :=
  let mine := (s.cmdsOf c).cmds.filter fun x => !x.done && !keep x.seq
  (mine.foldl (fun s x =>
     let n := s.countsNow c x
     let s1 := s.bumpFree.modCmd c x.seq fun y =>
       { y with phase := .finished 0x0204 (BitVec.ofNat 32 (satTo 0xFFFFFFFF n.1))
                  (BitVec.ofNat 32 (satTo 0xFFFFFFFF n.2)) }
     s1.completeCmd c x.seq) s, mine.length)

/-- Abandons the commands of a context of this module whose role was lost and is held elsewhere now (R424). A module that
never heard of the loss cannot tell a takeover from an assignment elsewhere (R380): whether it abandons them is free
(notes/assumptions/65.md). -/
def State.yieldHeld (s : State) (r : Role) : State :=
  if r.lost || Config.choice s.free 0 then (s.bumpFree.abandonAll r.ctx fun _ => false).1 else s.bumpFree

/-- The state of a takeover changes (R424). -/
def State.setTake (s : State) (f : Faults → Faults) : State := ({ s with faults := f s.faults }).pulse 204

/-- Ends a takeover: the TAKEOVER command that waits, if one does, completes. Where it is abandoned, it has reached its
epoch (R88). -/
def State.endTake (s : State) (state : TakeState) (status : Nat) : State :=
  let s1 := s.setTake fun f => { f with take := state, takeCmd := none }
  match s.faults.takeCmd with
  | some r => s1.finishRef r status s.faults.takeEpoch.toNat 0
  | none => s1

/-- Whether a takeover has yet to reach JOINED or to fail: another one waits for it (R433). -/
def State.taking (s : State) : Bool := s.faults.take == .holding || s.faults.take == .copying

/-- A takeover that is under way fails where the role is no longer held by the context that took it, or that context is
reset (R424, R433). -/
def State.takeFails (s : State) (pc : W16) : State :=
  if s.taking && s.faults.takePostcode == pc then s.endTake .failed 0x0204 else s

/-- Gives up a role that is held elsewhere under a higher epoch (R380, R424). -/
def State.supersede (s : State) (pc : W16) : State :=
  let s1 := match s.role pc with | some r => s.yieldHeld r | none => s
  ((s1.takeFails pc).modFabric fun x => { x with roles := mapDrop x.roles pc.toNat }).pulse 199

/-- Drops what a team's kernel had under way: the kernel, queued instructions and requests. -/
def Team.halt (k : Team) : Team :=
  { k with
    kernel := none
    cores := k.cores.map fun c => (c.1, { c.2 with awaited := [], tileQueue := [] })
    acsRows := []
    sampler := { k.sampler with queue := [], slots := k.sampler.slots.filter fun x => x.2.complete }
    upd := { } }

/-- Drops the arrivals of a context's cores that have yet to reach a barrier of this module (R369,
notes/assumptions/65.md). -/
def State.dropArrivals (s : State) (c : W32) : State :=
  s.modFabric fun f => { f with arriving := f.arriving.filter fun a => !(a.2.fromHere && a.2.ctx == c) }

/-- Stops a context's kernels at once: its launches are gone, its queued instructions discarded. Of the ranges that its
update engines were writing, those written are the first ones, in order, where the reset lets the engine finish its
current range (R494). -/
def State.stopCtx (s : State) (c : W32) (teams : List Nat) (orderly : Bool) : State :=
  let s0 := teams.foldl (fun s t => s.leaveBlocks orderly t) s
  let s1 := ((teams.foldl (fun s t => s.modTeam t Team.halt) s0).dropArrivals c).withdrawRemote fun r => r.ctx == c
  let s2 := s1.modCtx c fun x => { x with launches := [], issueHeld := false, snapping := none, skipped := [] }
  (s2.dropUnfenced teams).modFabric fun f =>
    { f with
      reads := f.reads.filter fun r => !teams.contains r.team
      remote := f.remote.filter fun r => r.ctx != c
      releases := f.releases.filter fun r => r.entry.ctx != c
      colls := (f.colls.filter fun y => y.ctx != c || y.running).map fun y =>
        if y.ctx == c then { y with status := if y.status = 0 then 0x0202 else y.status } else y }

/-- FAULTED (R101, R416): the context's kernels stop and its commands not yet in the ledger complete
with ABANDONED. -/
def State.faultContext (s : State) (c : W32) : State :=
  match s.ctx c with
  | none => s
  | some x =>
    let s1 := ((s.abandonAll c fun _ => false).1).pulse (64 + fnOf c)
    let s2 := if x.running then s1.stopCtx c (bitsSet 24 x.teamMask) false else s1
    s2.modCtx c fun x =>
      { x with faulted := true, launches := [], snapping := none, skipped := []
               tables := x.tables.map fun t => (t.1, { t.2 with replacing := none })
               saved := x.saved.map fun t => (t.1, t.2.halt) }

end Sys2Proof.Machine
end

