-- ==== Sys2Proof/Machine/Mailbags.lean ====
section
/-! DEFINITION. Scheduled traffic: slots, mailbags, diversion, end-to-end acknowledgement
(spec/14 R388 to R397, spec/02 R58, R59). -/

namespace Sys2Proof.Machine

open Sys2Proof


/-- The 3,200 payload bytes of part `i` of a diverted mailbag (R396). -/
def bagPart (m : Mailbag) (i : Nat) : List Byte := bagHeader m ++ bytesAt m.payload (3200 * i) 3200

/-- Diverts a mailbag: four DATA frames of KIND 7 (R396, R397). -/
def State.divert (s : State) (m : Mailbag) : State :=
  let src := if (s.role m.originPostcode).isSome then m.originPostcode else s.ownPostcode
  let c : W32 := match s.role m.originPostcode with | some r => r.ctx | none => 0
  let s1 := s.modStats fun t => { t with diverted := t.diverted + 1 }
  (List.range 4).foldl (fun s i => (s.sendFrame src m.destPostcode 3 7 0 c (bagPart m i)).1) s1

/-- Returns a mailbag to its origin: a frame of KIND 7 that carries the mailbag header only (R386). -/
def State.returnBag (s : State) (m : Mailbag) (port : Nat) : State :=
  let s1 := s.modStats fun t => { t with roleReturns := satTo 0xFFFF (t.roleReturns + 1) }
  let f : Frame := ⟨m.originPostcode, m.originEpoch, m.destPostcode, m.destEpoch, 1, 0, 7, 1, 0x0201, 0, 0,
    s.postmark, bagHeader m⟩
  if s1.reachable m.originPostcode then s1.transmit f
  else s1.park (bagHeader m) [] 3 (BitVec.ofNat 16 port)

/-- Whether a port's neighbour has the active schedule's version (R59). -/
def State.versionsAgree (s : State) (p : Nat) : Bool :=
  match s.time.active, (s.port p).peerVersion with
  | some a, some v => v == a.version
  | _, _ => true

/-- Whether mailbags may use a port now: the postmark unit has not fallen back (R58), the port is UP
and its neighbour has the active schedule's version (R59). -/
def State.portCarries (s : State) (p : Nat) : Bool :=
  !s.time.fallback && !s.faults.selfFenced && (s.port p).state == .up && s.versionsAgree p


/-- Puts a mailbag on a port for 64 ns (R392) and charges its bytes (R453). -/
def State.putBag (s : State) (p : Nat) (m : Mailbag) (payer : Nat) : State :=
  ((s.emitOut (.mailbag p m)).modFabric fun f =>
    { f with busy := mapPut f.busy p (s.postmark.toNat + 64) }).chargeLink payer (32 + m.payload.length)

/-- Keeps a mailbag of this module until it is acknowledged (R394). -/
def State.retain (s : State) (m : Mailbag) (port : Option Nat) : State :=
  s.modFabric fun f => { f with retained := f.retained ++ [⟨m, s.postmark, port⟩] }

/-- The two roles of a mailbag, as a number. -/
def pairKey (m : Mailbag) : Nat := m.originPostcode.toNat * 65536 + m.destPostcode.toNat

/-- The CHAN_SEQ of a channel's next mailbag (R389, R395): the channel counts for each pair of roles, and the count begins
again with a new epoch of either role (notes/assumptions/20.md). -/
def Chan.seqFor (k : Chan) (m : Mailbag) : W32 :=
  match mapGet k.counts (pairKey m) with
  | some n => if n.own = m.originEpoch ∧ n.peer = m.destEpoch then n.next else 0
  | none => 0

/-- The channel once the mailbag at its head is sent. -/
def Chan.sent (k : Chan) (m : Mailbag) (rest : List Mailbag) : Chan :=
  ⟨rest, mapPut k.counts (pairKey m) ⟨k.seqFor m + 1, m.originEpoch, m.destEpoch⟩⟩

/-- Whether an earlier collective of a mailbag's role will still queue mailbags for its destination (R400): a scheduled
ALLREDUCE with that peer that has not gathered yet. -/
def State.awaitsEarlier (s : State) (m : Mailbag) : Bool :=
  s.fabric.colls.any fun c =>
    c.role == m.originPostcode && c.peers.contains m.destPostcode && c.sched && c.word.code == 0x3E2 && !c.reduced &&
    c.status == 0 &&
    decide (0 < (m.collective - c.number).toNat) && decide ((m.collective - c.number).toNat < 2 ^ 31)

/-- Whether an entry has sent its mailbag of this slot (R390). -/
def State.slotUsed (s : State) (entry : Nat) : Bool := mapGet s.fabric.slots entry == some s.postmark

/-- SLOT_SEND (R390): the oldest mailbag of the entry's channel is sent, or diverted (R397), as on a port that the role's
PORT_MASK forbids (R379), one in each slot; while the retention is full nothing is sent (R394). The mailbags of a channel
go in collective order (R400). -/
def execSlotSend (entry : Nat) (s : State) : Result :=
  .next (match s.time.active with
    | none => s
    | some a =>
      (match a.entries[entry]? with
       | none => s
       | some e =>
         if !e.send || !a.slotNow s.postmark e.slot || s.slotUsed entry || 2048 ≤ s.fabric.retained.length ||
             !s.inTurn 5 then s
         else
           let k := mapGetD s.fabric.chans { } e.channel.toNat
           match k.queue with
           | [] => s
           | b :: rest =>
             if s.awaitsEarlier b then s
             else
             let m : Mailbag :=
               { b with
                   version := a.version, slot := BitVec.ofNat 16 e.slot, chanSeq := k.seqFor b,
                   round := BitVec.ofNat 32 (a.roundAt s.postmark) }
             let s1 := s.modFabric fun f =>
               { f with chans := mapPut f.chans e.channel.toNat (k.sent b rest)
                        slots := mapPut f.slots entry s.postmark }
             let payer := match s.role m.originPostcode with | some r => fnOf r.ctx | none => 0
             if s1.portCarries e.outPort && !s1.portBusy e.outPort &&
                 maskAllows (s1.maskOf m.originPostcode) e.outPort then
               (s1.putBag e.outPort m payer).retain m (some e.outPort)
             else (s1.divert m).retain m none))

/-! ### At the destination (R394, R395) -/

/-- The key of a channel at its destination. -/
def chanInKey (m : Mailbag) : Nat :=
  (m.originPostcode.toNat * 65536 + m.destPostcode.toNat) * 65536 + m.channel.toNat

/-- A channel at its destination; under a new epoch of either role it begins anew (notes/assumptions/20.md). -/
def State.chanIn (s : State) (m : Mailbag) : ChanIn :=
  let fresh : ChanIn := ⟨m.originPostcode, m.originEpoch, m.destPostcode, m.destEpoch, m.channel, 0, [], false⟩
  match mapGet s.fabric.chansIn (chanInKey m) with
  | some k => if k.epoch = m.originEpoch ∧ k.destEpoch = m.destEpoch then k else fresh
  | none => fresh

/-- Hands a mailbag to its collective (R400). -/
def State.openBag (s : State) (m : Mailbag) : State :=
  s.collMessage m.destPostcode m.collective m.originPostcode (.bag m.index.toNat m.payload)

/-- Delivers the mailbags that came early, while they are next; they count as delivered in this round. -/
def State.openEarly : Nat → Nat → State → State
  | 0, _, s => s
  | n + 1, key, s =>
    match mapGet s.fabric.chansIn key with
    | none => s
    | some k =>
      match k.early.find? fun m => m.chanSeq == k.next with
      | none => s
      | some m =>
        let k1 : ChanIn := { k with next := k.next + 1, early := k.early.filter fun x => x.chanSeq != k.next }
        State.openEarly n key ((s.modFabric fun f => { f with chansIn := mapPut f.chansIn key k1 }).openBag m)

/-- The payload of an acknowledgement (KIND 8, notes/assumptions/20.md): 0 and the next CHAN_SEQ, or 1
and a gap's first and last. -/
def ackPayload (code : Nat) (channel : W16) (a b : W32) : List Byte :=
  leBytes 1 code ++ leBytes 2 channel.toNat ++ leBytes 4 a.toNat ++ leBytes 4 b.toNat

/-- The end of what a destination has of a channel: beyond the highest CHAN_SEQ that came. -/
def ChanIn.seen (k : ChanIn) : W32 :=
  k.early.foldl (fun n m => if (m.chanSeq - k.next).toNat < (n - k.next).toNat then n else m.chanSeq + 1) k.next

/-- Delivers a mailbag in CHAN_SEQ order, once (R395). -/
def State.deliverBag (s : State) (m : Mailbag) : State :=
  let key := chanInKey m
  let k := s.chanIn m
  let put (k : ChanIn) (s : State) : State := s.modFabric fun f => { f with chansIn := mapPut f.chansIn key k }
  if m.chanSeq = k.next then
    State.openEarly k.early.length key
      ((put { k with next := k.next + 1, ackDue := true } s).openBag m)
  else if 2 ^ 31 ≤ (m.chanSeq - k.next).toNat then put k s
  else if k.early.any fun x => x.chanSeq == m.chanSeq then s
  else
    let s1 := put { k with early := k.early ++ [m] } s
    if (k.seen - k.next).toNat < (m.chanSeq - k.next).toNat then
      (s1.sendFrame m.destPostcode m.originPostcode 2 8 0 0
        (ackPayload 1 m.channel k.seen (m.chanSeq - 1))).1
    else s1

/-- Counts a corrected mailbag (R394). -/
def State.countCorrected (s : State) : State := s.modStats fun t => { t with e2eCorrected := t.e2eCorrected + 1 }

/-- A mailbag whose destination is a role of this module (R380, R395). -/
def State.receiveBag (s : State) (m : Mailbag) (port : Nat) : State :=
  match s.role m.destPostcode with
  | none => s
  | some r =>
    if r.epoch = m.destEpoch then s.deliverBag m
    else if m.destEpoch.toNat < r.epoch.toNat then s.returnBag m port
    else (s.supersede m.destPostcode).returnBag m port

/-- The FORWARD entry for a mailbag that arrived on a port (R391). -/
def Schedule.forwardOf (c : Schedule) (port : Nat) (m : Mailbag) : Option SlotEntry :=
  if m.version = c.version then
    c.entries.find? fun e => !e.send && e.inPort == port && e.slot == m.slot.toNat
  else none

/-- A mailbag of this module whose sending began at this instant on a port (R392). -/
def State.justSent (s : State) (p : Nat) : Option Retained :=
  s.fabric.retained.find? fun r => r.port == some p && r.sent == s.postmark

/-- Takes back a mailbag of this module that a forwarded one displaces at an equal start (R392). -/
def State.displace (s : State) (p : Nat) (r : Retained) : State :=
  (s.modFabric fun f =>
    { f with out := eraseFirst (fun o => o == .mailbag p r.bag) f.out
             retained := modWhere (fun x => x == r) (fun x => { x with port := none }) f.retained }).divert r.bag

/-- Forwards a mailbag on a port, or diverts it (R391, R392, R397). -/
def State.forwardBag (s : State) (p : Nat) (m : Mailbag) : State :=
  if !s.portCarries p then s.divert m
  else if s.portBusy p then
    match s.justSent p with
    | some r => (s.displace p r).putBag p m 0
    | none => s.divert m
  else s.putBag p m 0

/-- MAILBAG_ARRIVE (R391, R394): delivered here, cut through, or diverted; a link whose ends differ in their version
carries no scheduled traffic in either direction (R59). By a port that the destination role's PORT_MASK forbids a mailbag
is not taken, and its origin resends it as a diverted one (R379, R394; notes/assumptions/59.md). The event stands at the
instant at which a FORWARD would begin (notes/assumptions/10.md). -/
def execMailbagArrive (port : Nat) (bag : Mailbag) (corrected damaged : Bool) (s : State) : Result :=
  .next (
    if (s.port port).state != .up then s
    else if (s.role bag.destPostcode).isSome then
      if damaged || !maskAllows (s.maskOf bag.destPostcode) port then s
      else
        let s1 := if corrected then s.countCorrected else s
        if s.power.state = .sleep then s1.holdAsleep (.bag port bag) else s1.receiveBag bag port
    else
      match s.time.active with
      | some a =>
        (match a.forwardOf port bag with
         | some e => if s.versionsAgree port then s.forwardBag e.outPort bag else s.divert bag
         | none => (s.modStats fun t => { t with unmatched := satTo 0xFFFF (t.unmatched + 1) }).divert bag)
      | none => (s.modStats fun t => { t with unmatched := satTo 0xFFFF (t.unmatched + 1) }).divert bag)

/-! ### At the origin (R394) -/

/-- Resends a kept mailbag as a diverted one. -/
def State.resendBag (s : State) (r : Retained) : State :=
  ((s.modFabric fun f =>
    { f with retained := modWhere (fun x => x == r) (fun x => { x with sent := s.postmark, port := none })
               f.retained }).modStats fun t => { t with e2eResent := t.e2eResent + 1 }).divert r.bag

/-- The round length in ns: that of the active schedule, 8,000 where none is active (R60). -/
def State.roundNs (s : State) : Nat :=
  match s.time.active with
  | some a => a.roundNs
  | none => 8000

/-- MAILBAG_RESEND_TIMEOUT (R394): unacknowledged 4 rounds after sending. -/
def execMailbagResendTimeout (channel : W16) (chanSeq : W32) (s : State) : Result :=
  .next (match s.fabric.retained.find? fun r =>
      r.bag.channel == channel && r.bag.chanSeq == chanSeq &&
      decide (r.sent.toNat + 4 * s.roundNs ≤ s.postmark.toNat) with
    | some r => s.resendBag r
    | none => s)

/-- An acknowledgement at the origin (R394): it frees what was delivered, or names a gap to resend. -/
def State.takeAck (s : State) (origin dest : W16) (p : List Byte) : State :=
  let ch := fieldAt p 1 2
  let a : W32 := BitVec.ofNat 32 (fieldAt p 3 4)
  let b : W32 := BitVec.ofNat 32 (fieldAt p 7 4)
  let mine (r : Retained) : Bool :=
    r.bag.originPostcode == origin && r.bag.destPostcode == dest && r.bag.channel.toNat == ch
  if fieldAt p 0 1 = 0 then
    s.modFabric fun f =>
      { f with retained := f.retained.filter fun r =>
          !(mine r && decide (2 ^ 31 ≤ (r.bag.chanSeq - a).toNat)) }
  else
    (s.fabric.retained.filter fun r => mine r && decide ((r.bag.chanSeq - a).toNat ≤ (b - a).toNat)).foldl
      (fun s r => s.resendBag r) s

/-- The cumulative acknowledgements of a round (R394). -/
def State.sendAcks (s : State) : State :=
  (mapVals s.fabric.chansIn).foldl (fun s k =>
    if k.ackDue && (s.role k.dest).isSome then
      (s.sendFrame k.dest k.origin 2 8 0 0 (ackPayload 0 k.channel k.next 0)).1
    else s)
    (s.modFabric fun f => { f with chansIn := f.chansIn.map fun x => (x.1, { x.2 with ackDue := false }) })

/-! ### Reassembly (R396) -/

/-- A mailbag header from its 32 bytes (R389). -/
def bagOf (p : List Byte) : Mailbag :=
  let w (o : Nat) : W16 := BitVec.ofNat 16 (fieldAt p o 2)
  let d (o : Nat) : W32 := BitVec.ofNat 32 (fieldAt p o 4)
  ⟨w 0, w 2, w 4, w 6, w 8, w 10, w 12, d 0x10, d 0x14, d 0x18, d 0x1C, []⟩

/-- A reassembled mailbag (R394, R396): what damage its way did to it before its diversion is not told, so whether it is
corrected, and whether it is beyond correction and discarded, are free (notes/assumptions/59.md). -/
def State.takeWhole (s : State) (m : Mailbag) (port : Nat) : State :=
  if Config.choice s.free 1 then s.bumpFree
  else (if Config.choice s.free 0 then s.bumpFree.countCorrected else s.bumpFree).receiveBag m port

/-- The mailbag of four parts, in the order of their FLOW_SEQ, which is that of their sending. -/
def Parts.whole (x : Parts) : Mailbag :=
  let first := match x.got with | g :: _ => g.1 | [] => 0
  { x.bag with payload := (sortOn (fun g : W32 × List Byte => (g.1 - first + 16).toNat) x.got).flatMap Prod.snd }

/-- One part of a diverted mailbag: the frames of one sending carry one POSTMARK, and each counts once; the fourth completes
the mailbag, and parts of an earlier sending are dropped (notes/assumptions/20.md). -/
def State.takePart (s : State) (f : Frame) (port : Nat) : State :=
  let h := bagOf f.payload
  let ofBag (x : Parts) : Bool := x.src == f.srcPostcode && x.bag == h
  let same (x : Parts) : Bool := ofBag x && x.sent == f.postmark
  let x := (s.fabric.parts.find? same).getD ⟨f.srcPostcode, h, f.postmark, []⟩
  let x1 : Parts :=
    { x with got := (x.got.filter fun g => g.1 != f.flowSeq) ++ [(f.flowSeq, bytesAt f.payload 32 3200)] }
  if x1.got.length = 4 then
    (s.modFabric fun y => { y with parts := y.parts.filter fun z => !ofBag z }).takeWhole x1.whole port
  else
    s.modFabric fun y =>
      { y with parts := (y.parts.filter fun z => !(ofBag z && decide (z.sent.toNat ≤ f.postmark.toNat))) ++ [x1] }

end Sys2Proof.Machine
end

