-- ==== Sys2Proof/Machine/Frames.lean ====
section
/-! DEFINITION. Received frames: flows, and what each KIND does at its destination (spec/14 R380 to
R387, spec/13 R354, R363, spec/04 R115, spec/10 R304). -/

namespace Sys2Proof.Machine

open Sys2Proof

/-- Answers a frame with one of KIND 2. -/
def State.reply2 (s : State) (f : Frame) (code : Nat) : State :=
  (s.sendFrame f.destPostcode f.srcPostcode 0 2 0 0 (replyPayload f.flowSeq code 0 0 0)).1

/-! ### What reaches an object of this module -/

/-- A sync operation on an object of this module (R354), or the withdrawal of a watch that an earlier one registered
(R122, R369). -/
def State.takeOp (s : State) (f : Frame) (r : Role) : State :=
  let op := fieldAt f.payload 0 1
  let h : W64 := BitVec.ofNat 64 (fieldAt f.payload 1 8)
  let n := signed 64 (fieldAt f.payload 9 8)
  let i := hIndex h
  let barrier := hBarrier h
  if op = 6 then
    let mine (w : Watch) : Bool :=
      w.whom == .remote f.srcPostcode f.destPostcode (BitVec.ofNat 32 (fieldAt f.payload 1 4))
    { s with hubWatches := s.hubWatches.filter fun w => !mine w
             hubWaiting := s.hubWaiting.filter fun w => !mine w }.admitUnits
  else if !handleOk h || !hHub h || !s.hubUsable i r.ctx barrier || (barrier && op != 2) then s.reply2 f 5
  else if op ≤ 1 then
    let x := s.signal .hub i (if op = 1 then -n else n)
    match x.2 with
    | some .syncUnderflow => x.1.reply2 f 2
    | some .syncOverflow => x.1.reply2 f 3
    | some _ => x.1.reply2 f 4
    | none => x.1.reply2 f 0
  else if op = 2 then
    ((s.settleArrivals fun j a => j == i && a.fromRole f.srcPostcode).initAt .hub i barrier n.toNat).reply2 f 0
  else
    let kind : WatchKind := if op = 3 then .ge else if op = 4 then .eq else .claim
    s.register .hub ⟨i, kind, n.toNat, r.ctx, .remote f.srcPostcode f.destPostcode f.flowSeq⟩

/-- An arrival for a barrier of this module (R361): it is on its way to the home's tally. -/
def State.takeArrival (s : State) (f : Frame) (r : Role) : State :=
  let p := f.payload
  let h : W64 := BitVec.ofNat 64 (fieldAt p 0 8)
  let a : Arrival :=
    ⟨f.srcPostcode, f.srcEpoch, fieldAt p 8 1, fieldAt p 9 1, .remote f.srcPostcode f.destPostcode f.flowSeq, 0,
     BitVec.ofNat 64 (fieldAt p 10 8), BitVec.ofNat 32 (fieldAt p 18 4), BitVec.ofNat 32 (fieldAt p 22 4),
     BitVec.ofNat 32 (fieldAt p 26 4)⟩
  if !handleOk h || !hHub h || !s.hubUsable (hIndex h) r.ctx true then s.reply2 f 5
  else s.modFabric fun x => { x with arriving := x.arriving ++ [(hIndex h, a)] }

/-! ### What reaches an operation of this module -/

/-- Whether an operation is an arrival held at this module (R304, R430): no answer is owed to it. -/
def RemoteWork.isHeld : RemoteWork → Bool
  | .arrive _ _ _ held => held
  | _ => false

/-- The operation that a reply or a return answers. -/
def State.remoteOf (s : State) (src dest : W16) (seq : W32) : Option Remote :=
  s.fabric.remote.find? fun r => r.src == src && r.dest == dest && r.flowSeq == seq && !r.work.isHeld

/-- Ends the wait of an operation. -/
def State.dropRemote (s : State) (r : Remote) : State :=
  s.modFabric fun f => { f with remote := eraseFirst (fun x => x == r) f.remote }

/-- Whether the launch that issued an operation still holds its team. -/
def State.stillRuns (s : State) (r : Remote) : Bool :=
  match (s.team r.team).kernel with
  | some k => k.ctx == r.ctx && k.seq == r.seq
  | none => false

/-- A fault that an answer brings (R360, R355, R340, R538): of its launch, where that still runs; of a
unit's signal, also of the next launch. -/
def State.remoteFault (s : State) (r : Remote) (kind : FaultKind) : State :=
  if r.core = 16 then s.unitFault r.team r.ctx kind
  else if s.stillRuns r then (s.faultNow r.team r.core kind).admitUnits
  else
    match s.ctx r.ctx with
    | some x =>
      (match (mapGet x.saved r.team).bind fun k => k.kernel with
       | some k => if k.seq = r.seq then s.faultSaved r.ctx r.team r.core kind else s
       | none => s)
    | none => s

/-- An operation that does not act, or whose frame came back (R354): D zero and ADDR_DROP. -/
def State.remoteZero (s : State) (r : Remote) (tag : Nat) : State :=
  (s.deliver r.team r.core tag 0).addEventsFor r.ctx r.team evAddr

/-- Whether further arrivals of this module wait at a barrier of another. -/
def State.arrivalsLeft (s : State) (dest : W16) (index : Nat) : Bool :=
  s.fabric.remote.any fun r =>
    r.dest == dest && match r.work with
      | .arrive _ i _ _ => i == index
      | _ => false

/-- A STEP_MISMATCH at a participant (R340): D zero and the fault; the update requests that wait on the
barrier end, and the step counts once on this module. -/
def State.mismatchHere (s : State) (r : Remote) (tag index : Nat) : State :=
  let s1 := (s.deliver r.team r.core tag 0).remoteFault r .stepMismatch
  if s1.arrivalsLeft r.dest index then s1
  else
    let h := barrierHandle r.dest index
    let s2 := s1.failUpdates (fun c b => s1.names (.away r.dest h) c b) 4
    { s2 with regs := { s2.regs with updMismatch := s2.regs.updMismatch + 1 } }

/-- The barrier at another module is poisoned (R342, R360): the arrival's launch faults, and the update requests that wait
on the barrier are skipped. -/
def State.lostHere (s : State) (r : Remote) (tag index : Nat) (v : W64) : State :=
  let s1 := ((s.notePoison r.dest index true).deliver r.team r.core tag v).remoteFault r .ownerLost
  s1.failUpdates (fun c b => s1.names (.away r.dest (barrierHandle r.dest index)) c b) 5

/-- A release from a home (R363): it takes effect at its postmark, in the order of R64, and at once where that has passed; one whose postmark
has passed counts in LATE_EVENTS once on this module, however many of its arrivals it completes (R63, R362). -/
def State.takeRelease (s : State) (r : Remote) (tag index : Nat) (v step at_ : W64) : State :=
  let x : Incoming :=
    ⟨r, index, tag, ⟨step, BitVec.ofNat 32 (bits v.toNat 0 32), BitVec.ofNat 32 (bits v.toNat 32 32)⟩, at_⟩
  if at_.toNat < s.postmark.toNat || (at_ == s.postmark && s.inTurn 4) then
    let key := relKey r.dest index
    let first := s.fabric.lastRel.all fun y => y.1 % 2 ^ 32 != key || y.2 != x.release
    (if at_.toNat < s.postmark.toNat && first then s.lateEvent else s).completeRemote x
  else s.modFabric fun f => { f with releases := f.releases ++ [x] }

/-- A reply reaches the operation that waits for it. -/
def State.takeReply (s : State) (f : Frame) : State :=
  let p := f.payload
  let code := fieldAt p 4 1
  let v : W64 := BitVec.ofNat 64 (fieldAt p 5 8)
  match s.remoteOf f.destPostcode f.srcPostcode (BitVec.ofNat 32 (fieldAt p 0 4)) with
  | none => s
  | some r =>
    let s1 := s.dropRemote r
    match r.work with
    | .signal tag index init =>
      let s0 := if code = 0 && init then s1.initAway r.dest index else s1.notePoison r.dest index (code == 4)
      let s2 := s0.deliver r.team r.core tag 0
      if code = 2 then s2.remoteFault r .syncUnderflow
      else if code = 3 then s2.remoteFault r .syncOverflow
      else if code = 4 then s2.remoteFault r .ownerLost
      else if code = 5 then s2.addEventsFor r.ctx r.team evAddr
      else s2
    | .watch tag index =>
      let s2 := s1.notePoison r.dest index (code == 1)
      if code = 5 then s2.remoteZero r tag
      else if code = 1 then (s2.deliver r.team r.core tag v).remoteFault r .ownerLost
      else s2.deliver r.team r.core tag v
    | .arrive tag index _ _ =>
      if code = 16 then
        s1.takeRelease r tag index v (BitVec.ofNat 64 (fieldAt p 13 8)) (BitVec.ofNat 64 (fieldAt p 21 8))
      else if code = 17 then s1.mismatchHere r tag index
      else if code = 5 then s1.remoteZero r tag
      else if code = 1 then s1.lostHere r tag index v
      else s1.deliver r.team r.core tag v
    | .write tag => s1.answerTransfer r.team r.core tag 0 [] (code == 7)
    | .halo role number => if code = 7 then s1.collDrop role number else s1
    | .mirror c table _ => ((if code = 7 then s1.mirrorEnds c table else s1).endHeldSets c).offerHeld.answerCopies
    | _ => s1

/-- Data of a FABRIC read reaches its transfer (R115). -/
def State.takeData (s : State) (f : Frame) : State :=
  match s.remoteOf f.destPostcode f.srcPostcode (BitVec.ofNat 32 (fieldAt f.payload 0 4)) with
  | none => s
  | some r =>
    match r.work with
    | .read tag at_ =>
      (s.dropRemote r).answerTransfer r.team r.core tag at_ (f.payload.drop 5) (fieldAt f.payload 4 1 == 1)
    | _ => s

/-- Resolves an operation whose frame was returned (R386). -/
def State.takeReturn (s : State) (f : Frame) : State :=
  if f.kind = 7 then
    let m := bagOf f.payload
    (s.modFabric fun x =>
      { x with retained := x.retained.filter fun r =>
          !(r.bag.originPostcode == m.originPostcode && r.bag.channel == m.channel && r.bag.chanSeq == m.chanSeq &&
            r.bag.destPostcode == m.destPostcode) }
      ).failColl m.originPostcode m.collective 0x0201
  else
    match s.remoteOf f.destPostcode f.srcPostcode f.flowSeq with
    | none => s
    | some r =>
      let s1 := s.dropRemote r
      match r.work with
      | .signal tag _ _ => s1.remoteZero r tag
      | .watch tag _ => s1.remoteZero r tag
      | .arrive tag index a _ =>
        if s1.lost r.dest then
          s1.modFabric fun x => { x with remote := x.remote ++ [{ r with work := .arrive tag index a true }] }
        else s1.remoteZero r tag
      | .write tag => s1.answerTransfer r.team r.core tag 0 [] true
      | .read tag at_ => s1.answerTransfer r.team r.core tag at_ [] true
      | .mirror c table _ => ((s1.mirrorEnds c table).endHeldSets c).offerHeld.answerCopies
      | .halo role number => s1.collDrop role number
      | .coll role number => s1.failColl role number 0x0201

/-! ### Memory -/

/-- A FABRIC write into the region of the context that holds the role (R115, R116), acknowledged to
its sender; the last part of a HALO transfer counts in its collective (R404). -/
def State.takeWrite (s : State) (f : Frame) (r : Role) : State :=
  let what := fieldAt f.payload 0 1
  let off := fieldAt f.payload 5 8
  let data := f.payload.drop 13
  match s.ctx r.ctx with
  | none => s.reply2 f 7
  | some x =>
    let s1 := (s.busWrite (s.regionCells x off data)).reply2 f (if s.regionDrops x off data.length then 7 else 6)
    if what = 2 then
      s1.collMessage f.destPostcode (BitVec.ofNat 32 (fieldAt f.payload 1 4)) f.srcPostcode .halo
    else s1

/-- A mirror write, at the same row of the mirror table of the context that holds the role (R304). -/
def State.takeMirror (s : State) (f : Frame) (r : Role) : State :=
  let table := fieldAt f.payload 0 4 + mirrorBit
  let row := fieldAt f.payload 4 8
  let off := fieldAt f.payload 12 4
  let data := f.payload.drop 16
  match s.table r.ctx table with
  | some k =>
    if row < k.rows && off + data.length ≤ k.slice then
      (s.busWrite ((List.range data.length).map fun i => (k.rowAddr row + off + i, data.getD i 0))).reply2 f 6
    else s.reply2 f 7
  | none => s.reply2 f 7

/-- A frame of a collective (R399 to R401). -/
def State.takeColl (s : State) (f : Frame) : State :=
  s.collMessage f.destPostcode (BitVec.ofNat 32 (fieldAt f.payload 1 4)) f.srcPostcode (collMsgOf f.payload)

/-! ### Flows (R384) -/

/-- What a frame does at its destination, by KIND (R382). -/
def State.handle (s : State) (port : Nat) (f : Frame) (r : Role) : State :=
  if f.kind = 1 then s.takeOp f r
  else if f.kind = 2 then s.takeReply f
  else if f.kind = 3 then s.takeWrite f r
  else if f.kind = 4 then s.takeRead f r
  else if f.kind = 5 then s.takeData f
  else if f.kind = 6 then s.takeMirror f r
  else if f.kind = 7 then s.takePart f port
  else if f.kind = 8 then s.takeAck f.destPostcode f.srcPostcode f.payload
  else if f.kind = 9 then s.takeColl f
  else if f.kind = 10 then s.takeArrival f r
  else s

/-- The flow of a frame. -/
def Frame.key (f : Frame) : Nat := flowKey f.srcPostcode f.srcEpoch f.destPostcode f.destEpoch

/-- Delivers held frames of a flow while they are next. -/
def State.drainFlow : Nat → Nat → State → State
  | 0, _, s => s
  | n + 1, key, s =>
    match (s.flow key).pop with
    | none => s
    | some x =>
      let s1 := s.modFabric fun f => { f with flows := mapPut f.flows key x.2 }
      State.drainFlow n key
        (match s1.role x.1.frame.destPostcode with
         | some r => s1.handle x.1.port x.1.frame r
         | none => s1)

/-- A frame for a role of this module, in its flow (R384). One whose source holds no role is of no flow. -/
def State.accept (s : State) (port : Nat) (f : Frame) (r : Role) : State :=
  if f.srcPostcode = 0xFFFF then s.handle port f r
  else
    let key := Frame.key f
    let x := s.flow key
    match x.classify f.flowSeq with
    | .duplicate => s.modStats fun t => { t with dupDiscarded := satTo 0xFFFF (t.dupDiscarded + 1) }
    | .early =>
      s.modFabric fun y => { y with flows := mapPut y.flows key { x with held := x.held ++ [⟨port, s.postmark, f⟩] } }
    | .now =>
      let s1 := s.modFabric fun y => { y with flows := mapPut y.flows key { x with next := some (f.flowSeq + 1) } }
      State.drainFlow x.held.length key (s1.handle port f r)

/-- Whether a frame for a role of this module waits for the end of SLEEP (R490): sync operations on hub objects are
served. -/
def State.waitsAsleep (s : State) (f : Frame) : Bool :=
  s.power.state == .sleep && f.kind != 1 && f.kind != 10

/-- A frame of a kind arrives for a role of this module: it is delivered, or returned (R380). By a port that the role's
PORT_MASK forbids there is no route to it, and the frame is parked (R379, R383, R387; notes/assumptions/59.md). A frame
for another module is the matter of FRAME_FORWARD, and one that is a return that of RETURNED_FRAME. -/
def State.receive (s : State) (port : Nat) (f : Frame) (isKind : Bool) : State :=
  if !isKind || f.flags.getLsbD 0 || (s.port port).state != .up then s
  else
    match s.inbound f, s.role f.destPostcode with
    | .mine, some r =>
      if !maskAllows r.mask port then s.park (frameHeader f) f.payload 1 (BitVec.ofNat 16 port)
      else if s.waitsAsleep f then s.holdAsleep (.frame port f)
      else s.accept port f r
    | .returned, _ => s.returnFrame f (BitVec.ofNat 16 port)
    | .superseded, _ => (s.supersede f.destPostcode).returnFrame f (BitVec.ofNat 16 port)
    | _, _ => s

/-- FRAME_FORWARD (R383, R387): a frame for a postcode held elsewhere goes on; one whose postcode has
no route any more is parked. -/
def execFrameForward (port : Nat) (frame : Frame) (s : State) : Result :=
  .next (
    if (s.port port).state != .up then s
    else
      match s.inbound frame with
      | .forward => s.forward frame (BitVec.ofNat 16 port)
      | .lost =>
        s.park (frameHeader frame) frame.payload (if frame.flags.getLsbD 0 then 3 else 5) (BitVec.ofNat 16 port)
      | _ => s)

/-- SYNC_OPERATION_FRAME (R354, R361): KIND 1 and KIND 10. -/
def execSyncOperationFrame (port : Nat) (frame : Frame) (s : State) : Result :=
  .next (s.receive port frame (frame.kind == 1 || frame.kind == 10))

/-- What the operation that a KIND 2 frame answers waits for. -/
def State.answers (s : State) (f : Frame) (p : RemoteWork → Bool) : Bool :=
  match s.remoteOf f.destPostcode f.srcPostcode (BitVec.ofNat 32 (fieldAt f.payload 0 4)) with
  | some r => p r.work
  | none => false

def isMirror : RemoteWork → Bool
  | .mirror _ _ _ => true
  | _ => false
def isWrite : RemoteWork → Bool
  | .write _ => true
  | .halo _ _ => true
  | _ => false

/-- SYNC_REPLY_FRAME (R363): KIND 2, but for the acknowledgements of writes. -/
def execSyncReplyFrame (port : Nat) (frame : Frame) (s : State) : Result :=
  .next (s.receive port frame (frame.kind == 2 && !s.answers frame fun w => isMirror w || isWrite w))

/-- FABRIC_WRITE_FRAME (R115). -/
def execFabricWriteFrame (port : Nat) (frame : Frame) (s : State) : Result :=
  .next (s.receive port frame (frame.kind == 3))

/-- FABRIC_READ_REQUEST (R115). -/
def execFabricReadRequest (port : Nat) (frame : Frame) (s : State) : Result :=
  .next (s.receive port frame (frame.kind == 4))

/-- FABRIC_READ_DATA (R115). -/
def execFabricReadData (port : Nat) (frame : Frame) (s : State) : Result :=
  .next (s.receive port frame (frame.kind == 5))

/-- MIRROR_WRITE (R304). -/
def execMirrorWrite (port : Nat) (frame : Frame) (s : State) : Result :=
  .next (s.receive port frame (frame.kind == 6))

/-- MIRROR_WRITE_ACK (R304). -/
def execMirrorWriteAck (port : Nat) (frame : Frame) (s : State) : Result :=
  .next (s.receive port frame (frame.kind == 2 && s.answers frame isMirror))

/-- FABRIC_WRITE_ACK (R404). -/
def execFabricWriteAck (port : Nat) (frame : Frame) (s : State) : Result :=
  .next (s.receive port frame (frame.kind == 2 && s.answers frame isWrite))

/-- DIVERTED_MAILBAG_PART (R396). -/
def execDivertedMailbagPart (port : Nat) (frame : Frame) (s : State) : Result :=
  .next (s.receive port frame (frame.kind == 7))

/-- MAILBAG_ACKNOWLEDGEMENT (R394). -/
def execMailbagAcknowledgement (port : Nat) (frame : Frame) (s : State) : Result :=
  .next (s.receive port frame (frame.kind == 8))

/-- COLLECTIVE_CONTROL (R399): KIND 9 of CLASS CONTROL. -/
def execCollectiveControl (port : Nat) (frame : Frame) (s : State) : Result :=
  .next (s.receive port frame (frame.kind == 9 && frame.cls == 2))

/-- COLLECTIVE_DATA_FRAME (R401): KIND 9 of CLASS DATA. -/
def execCollectiveDataFrame (port : Nat) (frame : Frame) (s : State) : Result :=
  .next (s.receive port frame (frame.kind == 9 && frame.cls == 3))

/-- RETURNED_FRAME (R386, R387). -/
def execReturnedFrame (port : Nat) (frame : Frame) (s : State) : Result :=
  .next (
    if !frame.flags.getLsbD 0 || (s.port port).state != .up then s
    else
      match s.inbound frame with
      | .mine =>
        if !maskAllows (s.maskOf frame.destPostcode) port then
          s.park (frameHeader frame) frame.payload 3 (BitVec.ofNat 16 port)
        else if s.power.state = .sleep then s.holdAsleep (.frame port frame)
        else s.takeReturn frame
      | .forward => s
      | _ => s.park (frameHeader frame) frame.payload 3 (BitVec.ofNat 16 port))

/-- What waited during SLEEP goes on (R490). -/
def State.wakeFrames (s : State) : State :=
  s.fabric.asleep.foldl (fun s a =>
    match a with
    | .bag port m => s.receiveBag m port
    | .frame port f =>
      match s.inbound f, s.role f.destPostcode with
      | .mine, some r => if f.flags.getLsbD 0 then s.takeReturn f else s.accept port f r
      | _, _ => s.returnFrame f (BitVec.ofNat 16 port))
    (s.modFabric fun f => { f with asleep := [] })

/-- FLOW_BREAK (R384): a gap not filled within 1 ms parks the held frames of the flow. -/
def execFlowBreak (src dest : W16) (s : State) : Result :=
  .next (
    let mine (x : Nat × FlowIn) : Bool :=
      x.1 / 2 ^ 48 == src.toNat && x.1 / 2 ^ 16 % 2 ^ 16 == dest.toNat &&
      x.2.held.any fun h => decide (h.at_.toNat + 1000000 ≤ s.postmark.toNat)
    (s.fabric.flows.filter mine).foldl (fun s x =>
      let s1 := s.modFabric fun f =>
        { f with flows := mapPut f.flows x.1 ⟨none, []⟩, parts := f.parts.filter fun p => p.src != src }
      x.2.held.foldl (fun s h =>
        s.park (frameHeader h.frame) h.frame.payload 4 (BitVec.ofNat 16 h.port)) s1) s)

end Sys2Proof.Machine
end

