-- ==== Sys2Proof/Machine/Contexts.lean ====
section
/-! DEFINITION. Contexts: poisoning, reset and destruction, saving and restoring the state of their teams
(spec/13 R353, R360, R367 to R370, spec/16 R446 to R452). -/

namespace Sys2Proof.Machine

open Sys2Proof

/-! ### Poisoning (R360, R369) -/

/-- Poisons a hub object, and says how many watches and arrivals it released. -/
def State.poisonHub (s : State) (i : Nat) : State × Nat :=
  match mapGet s.hub i with
  | none => (s, 0)
  | some o =>
    if o.barrier then
      let s1 := s.setHub i { o with poisoned := true, tally := [] }
      let s2 := o.tally.foldl (fun s a => s.answerArrival a .lost o.value) s1
      ({ s2 with regs := { s2.regs with ownerLost := satTo 0xFFFF (s2.regs.ownerLost + o.tally.length) } },
       o.tally.length)
    else s.poison .hub i

/-- Folds a counting operation over a list. -/
def countFold {α : Type} (f : State → α → State × Nat) (s : State) (l : List α) : State × Nat :=
  l.foldl (fun x a => let r := f x.1 a; (r.1, x.2 + r.2)) (s, 0)

/-- The hub objects that a context owns. -/
def State.ownedHub (s : State) (c : W32) : List Nat := (s.hub.filter fun x => x.2.owner == c).map Prod.fst

/-- The numbers of the cluster objects (R351). -/
def clusterObjects : List Nat := List.range 1024

/-- A cluster unit with every object poisoned, as a saved state keeps it. -/
def Team.poisonSaved (k : Team) : Team :=
  { k with sync := clusterObjects.map fun i => (i, { mapGetD k.sync SyncObj.reset i with poisoned := true })
           watches := [], waiting := [] }

/-! ### What a team keeps -/

/-- The parts of a team that a reset of its context empties beside its kernel (R219, R276, R293, R320,
R369): unit requests, parcels, row handles, mask slots, hot rows, the store; handle counts stay. -/
def Team.clear (k : Team) : Team :=
  let h := k.halt
  { h with
    acs := [], masks := [], heldFaults := []
    sampler := { count := h.sampler.count }
    rows := { count := h.rows.count } }

/-- A team at the start of a context that takes it (R353, R447): nothing of the previous holder stays. -/
def State.freshTeam (s : State) (t : Nat) : State :=
  { s with teams := mapPut s.teams t { Team.reset with testing := (s.team t).testing } }

/-- The row engine without its migration: a row under migration is read at its home, which holds every value (R298). -/
def RowEngine.settled (e : RowEngine) : RowEngine :=
  match e.migration with
  | some m =>
    { e with migration := none, hot := e.hot.filter fun h => !(h.table == m.table && h.row == m.row) }
  | none => e

/-- A team as it is saved (R449, R450): parcels and stagings in progress are drawn again later. -/
def Team.toSave (k : Team) (fabric : Bool) : Team :=
  let r : RowEngine :=
    { k.rows.settled with
      slots := k.rows.slots.map fun x =>
        (x.1, if x.2.phase == .staging then { x.2 with phase := .queued } else x.2) }
  let k1 := { k with rows := r, testing := false }
  if fabric then { k1 with sync := [], watches := [], waiting := [] } else k1

/-- The teams of a context. -/
def Ctx.teams (x : Ctx) : List Nat := bitsSet 24 x.teamMask

/-- The cores of a context's teams on a die (R453, R454). -/
def Ctx.coresHeld (x : Ctx) (die : Nat) : Nat := 16 * (x.teams.filter fun t => t / 6 == die).length

/-- Charges the time of a restore to the context that resumes (R453): to the current period, and what lies before its start
to the last closed one. Its teams were not unheld then (R454). -/
def State.chargeRestore (s : State) (c : W32) (x : Ctx) (us : Nat) : State :=
  let cores := (List.range 4).map x.coresHeld
  let all := cores.foldl (· + ·) 0
  let least (d : Nat) : Nat :=
    let n := s.meter.unheld.getD d 0
    if (if d = 4 then all else cores.getD d 0) = 0 then n else n - 1000 * us
  let s1 : State := { s with meter := { s.meter with unheld := (List.range 5).map least } }
  s1.modFn (c.toNat / 2 ^ 26) fun k =>
    let now := min (1000 * us) (s.postmark.toNat - k.frank.start)
    { k with
      frank := { k.frank with coreNs := k.frank.coreNs + all * now }
      periods := modIdx k.periods 0 fun r => { r with coreNs := r.coreNs + all * (1000 * us - now) }
      interval := (List.range 4).map fun d => k.interval.getD d 0 + cores.getD d 0 * (1000 * us) }

/-- DOZE ends at what needs a cluster (R489). -/
def State.endDoze (s : State) : State :=
  { s with power := { s.power with state := if s.power.state = .doze then .active else s.power.state } }

/-- Whether no RUNNING context names a team and no SELFTEST holds it (R447, R499). -/
def State.teamFree (s : State) (t : Nat) : Bool := (s.holder t).isNone && !(s.team t).testing

/-- Hub watches and waiting registrations of cores of some teams, in their order (R367). -/
def State.watchesFrom (s : State) (teams : List Nat) : List Watch :=
  (s.hubWatches.filter fun w => w.repliesTo teams) ++ (s.hubWaiting.filter fun w => w.repliesTo teams)

/-- Takes the hub watches of cores of some teams away without a reply; registrations that wait take their room. -/
def State.withdraw (s : State) (teams : List Nat) : State :=
  let s1 : State :=
    { s with hubWatches := s.hubWatches.filter fun w => !w.repliesTo teams
             hubWaiting := s.hubWaiting.filter fun w => !w.repliesTo teams }
  s1.admitUnits

/-- The accumulation stores of some teams are read whole, to be saved: a free number of rows is corrected (R323, R449). -/
def State.correctStores (s : State) (teams : List Nat) : State :=
  teams.foldl (fun s t => s.correctSome (64 + t) 1048576) s

/-- Saves a context's teams and frees them (R450): it is PREEMPTED. -/
def State.saveTeams (s : State) (c : W32) : State :=
  match s.ctx c with
  | none => s
  | some x =>
    let saved : SMap Team := x.teams.map fun t => (t, (s.team t).toSave (x.span == 1))
    let ws := s.watchesFrom x.teams
    let s1 := (s.withdraw x.teams).modCtx c fun x =>
      { x with running := false, saved := saved, savedWatches := ws, issueHeld := false, preempting := none }
    ((x.teams.foldl (fun s t => s.freshTeam t) s1).dropUnfenced x.teams).correctStores x.teams

/-- Restores a context's teams (R452): its watches are registered again in their order, and each
object is evaluated once (R367). -/
def State.restoreTeams (s : State) (c : W32) : State :=
  match s.ctx c with
  | none => s
  | some x =>
    let s1 := x.saved.foldl (fun s t => { s with teams := mapPut s.teams t.1 t.2 }) (s.seesHost (x.saved.map Prod.fst))
    let s2 := s1.modCtx c fun x => { x with running := true, saved := [], savedWatches := [], resuming := none }
    let s3 := x.savedWatches.foldl (fun s w => s.register .hub w) s2
    let s4 := x.saved.foldl (fun s t => t.2.sync.foldl (fun s o => s.evaluate (.cluster t.1) o.1) s) s3
    let s5 := (s4.ownedHub c).foldl (fun s i => s.evaluate .hub i) s4
    s5.admitUnits

/-- Passes free teams to a new or PREEMPTED context without a saved kernel: none of them keeps
anything (R353, R447). -/
def State.freshTeams (s : State) (teams : List Nat) : State :=
  (teams.foldl (fun s t => s.freshTeam t) s).dropUnfenced teams

/-! ### CONTEXT_RESET and CONTEXT_DESTROY (R369, R370) -/

/-- Completes, with ABANDONED, a pre-emption or a resume of a context that a reset ends (R451, R452). -/
def State.abandonMoves (s : State) (x : Ctx) : State :=
  let s1 := match x.preempting with
    | some p =>
      let n := s.preemptCounts p
      (s.bumpFree.finishRef p.cmd 0x0204 n.1 n.2).completeCmd p.cmd.ctx p.cmd.seq
    | none => s
  match x.resuming with
  | some r => (s1.bumpFree.finishRef r.cmd 0x0204 (s1.resumeCounts r).1 0).completeCmd r.cmd.ctx r.cmd.seq
  | none => s1

/-- The hub objects that a module reset keeps for a context are live again (R351, R367). -/
def State.hubBack (s : State) (c : W32) : State :=
  match s.ctx c with
  | some x =>
    let s1 : State := { s with hub := x.savedHub.foldl (fun m o => mapPut m o.1 o.2) s.hub }
    s1.modCtx c fun x => { x with savedHub := [] }
  | none => s

/-- The takeover of the role that a context holds fails with it (R424, R433), and what it knows of the releases of other
modules' barriers is forgotten with its watches (R341). -/
def State.endFabric (s : State) (c : W32) : State :=
  let s1 := s.forgetReleases c
  if s1.postcodeOf c = 0xFFFF then s1 else s1.takeFails (s1.postcodeOf c)

/-- The steps of R369 on a context, once what it knows of other modules is forgotten. -/
def State.resetSteps (s : State) (c : W32) : State × Nat × Nat :=
  match s.ctx c with
  | none => (s, 0, 0)
  | some x =>
    let a := s.abandonAll c fun _ => false
    if x.running then
      let ts := x.teams
      let s1 := a.1.stopCtx c ts false
      let s2 := { s1 with
        hubWaiting := s1.hubWaiting.filter fun w => !w.repliesTo ts
        teams := s1.teams.map fun y => (y.1, { y.2 with waiting := y.2.waiting.filter fun w => !w.repliesTo ts }) }
      let p := countFold (fun s t => countFold (fun s i => s.poison (.cluster t) i) s clusterObjects) s2 ts
      let h := countFold (fun s i => s.poisonHub i) p.1 (p.1.ownedHub c)
      let s3 := ts.foldl (fun s t => s.modTeam t Team.clear) (h.1.withdraw ts)
      let s4 := (s3.modCtx c fun x =>
        { x with faulted := false, preempting := none, resuming := none
                 tables := x.tables.map fun t => (t.1, { t.2 with replacing := none }) }).abandonMoves x
      (s4, a.2, p.2 + h.2)
    else
      let own := (x.saved.map fun t => t.2.watches.length).foldl (· + ·) 0
      let s1 := ((a.1.hubBack c).dropArrivals c).modCtx c fun x =>
        { x with faulted := false, launches := [], preempting := none, resuming := none, snapping := none
                 savedWatches := [], skipped := []
                 tables := x.tables.map fun t => (t.1, { t.2 with replacing := none })
                 saved := x.saved.map fun t => (t.1, t.2.clear.poisonSaved) }
      let s2 : State := { s1 with regs := { s1.regs with ownerLost := satTo 0xFFFF (s1.regs.ownerLost + own) } }
      let h := countFold (fun s i => s.poisonHub i) s2 (s2.ownedHub c)
      ((h.1.abandonMoves x), a.2, own + h.2)

/-- The steps of R369 on a context: the state, the commands abandoned, the watches and arrivals
released. -/
def State.resetContext (s : State) (c : W32) : State × Nat × Nat :=
  match s.ctx c with
  | none => (s, 0, 0)
  | some _ => (s.endFabric c).resetSteps c

/-- A release that a barrier has placed for its arrivals: those of this module's cores complete at its postmark, although the
barrier is gone by then (R363, R370). -/
def Placed.leave (p : Placed) (i : Nat) : List Incoming :=
  p.arrivals.filterMap fun a =>
    match a.whom with
    | .core t q tag => some ⟨⟨0, a.postcode, 0xFFFF, t, q, a.ctx, 0, .arrive tag i a false⟩, i, tag, p.release, p.at_⟩
    | .remote _ _ _ => none

/-- The hub objects of a context leave the hub: what is on its way to them finds them poisoned, and what they have placed
goes its way (R358, R363, R370). -/
def State.clearHub (s : State) (gone : List Nat) : State :=
  let placed := (s.hub.filter fun o => gone.contains o.1).flatMap fun o => o.2.placed.flatMap fun p => p.leave o.1
  (s.settleArrivals fun i _ => gone.contains i).modFabric fun f => { f with releases := f.releases ++ placed }

/-- CONTEXT_DESTROY's effect (R370): the steps of R369, then its hub objects, teams, role and identifier
are free. A registration that waits for room on one of those objects finds it poisoned (R358). -/
def State.destroyContext (s : State) (c : W32) : State :=
  match s.ctx c with
  | none => s
  | some x =>
    let r := (s.resetContext c).1
    let gone := r.ownedHub c
    let s1 := r.clearHub gone
    let waits (w : Watch) : Bool := gone.contains w.obj
    let s0 := (s1.hubWaiting.filter waits).foldl (fun s w => s.replyLost w.whom (s.obj .hub w.obj).value)
      { s1 with hubWaiting := s1.hubWaiting.filter fun w => !waits w }
    let s2 : State := { s0 with
      hub := s0.hub.filter fun o => o.2.owner != c
      hubWatches := s0.hubWatches.filter fun w => !gone.contains w.obj
      ctxs := mapDrop s0.ctxs c.toNat
      cmds := mapDrop s0.cmds c.toNat }
    let s3 := s2.modFabric fun f =>
      { f with roles := f.roles.filter fun r => r.2.ctx != c
               colls := f.colls.filter fun y => y.ctx != c }
    (if x.running then s3.freshTeams x.teams else s3).admitUnits

/-! ### Save areas (R448) -/

/-- Save areas allocated in a die by the existing contexts. -/
def State.areasUsed (s : State) (die : Nat) : Nat :=
  (s.ctxs.map fun x => (x.2.teams.filter fun t => t / 6 == die).length).foldl (· + ·) 0

/-- Save areas that a die's pool holds. -/
def State.areasOf (s : State) (die : Nat) : Nat := s.pool.getD die 8 * 256 / 72

/-- Whether every die has room for the save areas of some teams. -/
def State.areasFit (s : State) (teams : List Nat) : Bool :=
  (List.range 4).all fun d =>
    decide (s.areasUsed d + (teams.filter fun t => t / 6 == d).length ≤ s.areasOf d)

end Sys2Proof.Machine
end

