-- ==== Sys2Proof/Machine/Translate.lean ====
section
/-! DEFINITION. The Lumfy container and its translation (spec/04 R125 to R136, spec/05 R137 to R143, R168,
R169). -/

namespace Sys2Proof.Machine

open Sys2Proof

/-! ### The instruction word (R137, R138) -/

/-- The operand that a specifier names; none where its kind is not assigned. -/
def operandOf (spec : Nat) : Option Operand :=
  let v := spec % 4096
  match spec / 4096 with
  | 0 => some .none
  | 1 => some (.sreg v)
  | 2 => some (.treg v)
  | 3 => some (.preg v)
  | 4 => some (.creg v)
  | 5 => some .imm
  | 6 => some (.const v)
  | _ => none

/-- The fields of a 128-bit word: OPCODE, TYPE, PRED, MOD, the three specifiers, IMM, bits [127:124]. -/
structure RawWord where
  code : Nat
  ty   : Nat
  pred : Nat
  mod  : Nat
  d    : Nat
  a    : Nat
  b    : Nat
  imm  : Nat
  top  : Nat
  deriving DecidableEq, Repr

/-- The fields of a word (R137). -/
def rawWord (w : Nat) : RawWord :=
  ⟨bits w 0 10, bits w 10 6, bits w 16 4, bits w 20 8, bits w 28 16, bits w 44 16, bits w 60 16,
   bits w 76 48, bits w 124 4⟩

/-- The decoded instruction of a word. -/
def RawWord.decode (r : RawWord) : LumfyWord :=
  ⟨r.code, ⟨r.ty, r.pred, BitVec.ofNat 8 r.mod, (operandOf r.d).getD .none, (operandOf r.a).getD .none,
    (operandOf r.b).getD .none, BitVec.ofNat 48 r.imm⟩⟩

/-- The check of one specifier (R168 order 6): the reason, none where it is allowed. `dest` says whether
it is D, `seen` whether an earlier operand has kind 0x5. -/
def operandFault (kinds : List Nat) (dest seen : Bool) (spec : Nat) : Option Nat :=
  match operandOf spec with
  | none => some 10
  | some o =>
    if !kinds.contains (spec / 4096) then some 10
    else if spec / 4096 = 0 ∧ spec % 4096 ≠ 0 then some 7
    else if spec / 4096 = 5 ∧ spec % 4096 ≠ 0 then some 10
    else if !operandInRange o then some 10
    else if dest && o == .preg 0 then some 10
    else if seen && spec / 4096 == 5 then some 10
    else none

/-- What the fixed-use IMM values are checked against (R168 order 8). -/
structure Counts where
  code   : Nat
  consts : Nat
  descs  : Nat
  deriving DecidableEq, Repr

/-- The derivative codes of R314. -/
def drvCodes : List Nat := [0x01, 0x02, 0x03, 0x04, 0x05, 0x08, 0x09, 0x0A, 0x0B, 0x10, 0x11]

/-- Whether a fixed-use IMM value is allowed. -/
def immOk (n : Counts) (r : RawWord) : Bool :=
  if r.code = 0x080 then decide (bits r.imm 0 11 < n.descs)
  else if r.code = 0x012 then bits r.imm 0 16 % 8 == 0 && decide (bits r.imm 0 16 + 8 ≤ n.consts)
  else if r.code = 0x101 then drvCodes.contains (bits r.imm 8 8)
  else if r.code = 0x1B1 then decide (0 < bits r.imm 0 32) && decide (bits r.imm 0 32 ≤ 0x3F800000)
  else true

/-- The first reason for which an instruction is refused (R168), none where it passes. -/
def wordFault (n : Counts) (r : RawWord) : Option Nat :=
  match opRow r.code with
  | none => some 8
  | some o =>
    let k5 (x : Nat) : Bool := x / 4096 == 5
    if r.top ≠ 0 then some 7
    else if !o.types.contains r.ty then some 9
    else if o.unpred && r.pred != 0 then some 10
    else if Nat.land r.mod (o.modMask r.ty) != r.mod then some 10
    else
      match operandFault o.d true false r.d with
      | some x => some x
      | none =>
        match operandFault o.a false (k5 r.d) r.a with
        | some x => some x
        | none =>
          match operandFault o.b false (k5 r.d || k5 r.a) r.b with
          | some x => some x
          | none =>
            if Nat.land r.imm (o.immMask r.ty (k5 r.d || k5 r.a || k5 r.b)) != r.imm then some 7
            else if !immOk n r then some 10
            else none

/-! ### The checks of reason 11 (R109, R168) -/

/-- Whether an opcode is a branch. -/
def isBranch (code : Nat) : Bool := code == 0x002 || code == 0x003 || code == 0x004

/-- The matching of loops: pairs (LOOP, ENDLOOP), or the index of an ENDLOOP that closes no LOOP. -/
def matchLoops (code : List LumfyWord) : Except Nat (List (Nat × Nat)) :=
  let step (acc : Except Nat (List Nat × List (Nat × Nat))) (x : Nat × LumfyWord) :
      Except Nat (List Nat × List (Nat × Nat)) :=
    match acc with
    | .error e => .error e
    | .ok (stack, pairs) =>
      if x.2.code = 0x005 then .ok (x.1 :: stack, pairs)
      else if x.2.code = 0x006 then
        match stack with
        | [] => .error x.1
        | l :: rest => .ok (rest, (l, x.1) :: pairs)
      else .ok (stack, pairs)
  match ((List.range code.length).zip code).foldl step (.ok ([], [])) with
  | .error e => .error e
  | .ok r => .ok r.2

/-- The loops whose body holds an index (R109). -/
def bodiesOf (pairs : List (Nat × Nat)) (i : Nat) : List (Nat × Nat) :=
  pairs.filter fun p => decide (p.1 < i) && decide (i ≤ p.2)

/-- Where control can go after an instruction (R168): the length of CODE stands for a run past its end. -/
def successors (code : List LumfyWord) (i : Nat) : List Nat :=
  match code[i]? with
  | none => []
  | some w =>
    if w.code = 0x001 then []
    else if w.code = 0x002 then [w.args.imm.toNat % 65536]
    else if w.code = 0x003 ∨ w.code = 0x004 then [w.args.imm.toNat % 65536, i + 1]
    else if w.code = 0x005 then [i + 1, w.args.imm.toNat % 65536 + 1]
    else [i + 1]

/-- The indices reachable from a list, by at most `n` rounds. -/
def reach (code : List LumfyWord) : Nat → List Nat → List Nat → List Nat
  | 0, _, seen => seen
  | n + 1, front, seen =>
    let next := ((front.flatMap (successors code)).eraseDups).filter fun j => !seen.contains j
    if next.isEmpty then seen else reach code n next (seen ++ next)

/-- The instruction for which the control checks fail (R168), none where they pass. -/
def controlFault (code : List LumfyWord) (entries : List Nat) : Option Nat :=
  let all_ := (List.range code.length).zip code
  let target (w : LumfyWord) : Nat := w.args.imm.toNat % 65536
  match all_.find? fun x => (isBranch x.2.code || x.2.code == 0x005) && !decide (target x.2 < code.length) with
  | some x => some x.1
  | none =>
    match matchLoops code with
    | .error i => some i
    | .ok pairs =>
      match all_.find? fun x => x.2.code == 0x005 && !pairs.contains (x.1, target x.2) with
      | some x => some x.1
      | none =>
        match all_.find? fun x => isBranch x.2.code && bodiesOf pairs x.1 != bodiesOf pairs (target x.2) with
        | some x => some x.1
        | none =>
          match all_.find? fun x => x.2.code == 0x005 && decide (8 ≤ (bodiesOf pairs x.1).length) with
          | some x => some x.1
          | none =>
            let start := entries.filter fun e => decide (e < code.length)
            if (reach code (code.length + 1) start start).contains code.length then some (code.length - 1)
            else none

/-! ### The container (R125 to R128) -/

/-- A directory entry (R126). -/
structure Section where
  kind   : Nat
  offset : Nat
  length : Nat
  count  : Nat
  deriving DecidableEq, Repr

/-- Entry `i` of the directory. -/
def sectionAt (b : List Byte) (i : Nat) : Section :=
  let o := 0x40 + 16 * i
  ⟨fieldAt b o 4, fieldAt b (o + 4) 4, fieldAt b (o + 8) 4, fieldAt b (o + 12) 4⟩

/-- Whether LENGTH and COUNT of a section meet R126. -/
def Section.sizesOk (x : Section) : Bool :=
  if x.kind = 1 then x.length == 16 * x.count && decide (1 ≤ x.count) && decide (x.count ≤ 65536)
  else if x.kind = 2 then decide (x.length ≤ 65536) && x.count == 0
  else if x.kind = 3 then x.length == 32 * x.count && decide (x.count ≤ 2048)
  else if x.kind = 4 then x.length == 16 * x.count && decide (x.count ≤ 65536)
  else if x.kind = 5 then x.length == 64 * x.count && decide (1 ≤ x.count) && decide (x.count ≤ 256)
  else true

/-- Whether an entry meets R126, given the length of the container and the earlier entries. -/
def Section.ok (x : Section) (total dir : Nat) (before : List Section) : Bool :=
  decide (1 ≤ x.kind) && decide (x.kind ≤ 0xFFFF) && x.sizesOk && x.offset % 64 == 0 &&
  decide (x.offset + x.length ≤ total) && (x.length == 0 || decide (dir ≤ x.offset)) &&
  before.all fun y =>
    !(y.kind == x.kind && decide (x.kind ≤ 5)) &&
    (x.length == 0 || y.length == 0 || !rangesMeet (x.offset, x.length) (y.offset, y.length))

/-- A refusal: its reason and the offset of the part that failed (R130). -/
abbrev Refused := Nat × Nat

/-- The first element of a list for which a check gives a refusal. -/
def firstFault {α : Type} (l : List α) (f : α → Option Refused) : Option Refused := l.findSome? f

/-- The section of a kind. -/
def sectionOf (dir : List Section) (kind : Nat) : Section := (dir.find? fun x => x.kind == kind).getD ⟨kind, 0, 0, 0⟩

/-- Reasons 1 to 7 of the header and the directory (R130). A directory beyond TOTAL_LENGTH is reported at TOTAL_LENGTH: the
model's choice (notes/assumptions/64.md). -/
def headerFault (b : List Byte) (len : Nat) : Option Refused :=
  let total := fieldAt b 8 4
  let n := fieldAt b 0x10 2
  let dirEnd := 0x40 + 16 * n
  let crcOf := crc32 (b.take 0x0C ++ [0, 0, 0, 0] ++ b.drop 0x10)
  let dir := (List.range n).map (sectionAt b)
  if fieldAt b 0 4 ≠ 0x59464D4C then some (1, 0x00)
  else if fieldAt b 4 2 ≠ 1 then some (2, 0x04)
  else if total ≠ len ∨ total < dirEnd then some (3, 0x08)
  else if fieldAt b 0x0C 4 ≠ crcOf.toNat then some (4, 0x0C)
  else if n < 5 ∨ 16 < n then some (5, 0x10)
  else
    match firstFault (List.range n) fun i =>
        if (sectionAt b i).ok total dirEnd (dir.take i) then none else some (5, 0x40 + 16 * i) with
    | some x => some x
    | none =>
      if !([1, 2, 3, 4, 5].all fun k => dir.any fun x => x.kind == k) then some (5, 0x40)
      else if 1 < fieldAt b 6 2 then some (6, 0x06)
      else if !((bytesAt b 0x12 46).all (· == 0)) then some (7, 0x12)
      else none

/-- A stream table entry (R128). -/
def streamEntryOf (e : List Byte) : StreamEntry :=
  ⟨fieldAt e 0 4, fieldAt e 4 4, fieldAt e 8 4, fieldAt e 12 4, BitVec.ofNat 32 (fieldAt e 16 4)⟩

/-- Reasons 7 and 14 of a stream table entry. -/
def streamFault (n : Counts) (e : List Byte) : Option Nat :=
  let x := streamEntryOf e
  if 8 ≤ x.flags.toNat ∨ fieldAt e 0x14 4 ≠ 0 ∨ !((bytesAt e 0x28 24).all (· == 0)) then some 7
  else if n.code ≤ x.entry ∨ 1048576 < x.coreBytes ∨ 16777216 < x.clusterBytes ∨ x.clusterBytes % 64 ≠ 0 ∨
      3145728 < x.accWords then some 14
  else none

/-- Reasons 7 and 12 of a descriptor (R117). -/
def descFault (e : List Byte) : Option Nat :=
  let d := TileDesc.ofBytes e
  if 2 ≤ d.layout.toNat ∨ !((bytesAt e 5 3).all (· == 0)) ∨ fieldAt e 0x14 4 ≠ 0 then some 7
  else if !d.legal then some 12
  else none

/-- A relocation (R127). -/
structure Reloc where
  sect   : Nat
  kind   : Nat
  at_    : Nat
  addend : Nat
  deriving DecidableEq, Repr

def relocOf (e : List Byte) : Reloc := ⟨fieldAt e 0 1, fieldAt e 1 1, fieldAt e 4 4, fieldAt e 8 8⟩

/-- The value of a relocation for the context that loads (R127). -/
def Reloc.value (r : Reloc) (c : W32) (base : W64) : Nat :=
  if r.kind = 1 then (base.toNat + r.addend) % 2 ^ 64 else c.toNat

/-- Whether an instruction has an operand of kind 0x5 (R169). -/
def usesImm (w : LumfyWord) : Bool := w.args.d == .imm || w.args.a == .imm || w.args.b == .imm

/-- Reasons 7 and 13 of a relocation (R127, R169). -/
def relocFault (n : Counts) (code : List LumfyWord) (c : W32) (base : W64) (e : List Byte) : Option Nat :=
  let r := relocOf e
  if fieldAt e 2 2 ≠ 0 then some 7
  else if r.kind ≠ 1 ∧ r.kind ≠ 2 then some 13
  else if r.kind = 2 ∧ r.addend ≠ 0 then some 13
  else if r.sect = 1 then
    match code[r.at_]? with
    | some w => if usesImm w && decide (r.value c base < 2 ^ 48) then none else some 13
    | none => some 13
  else if r.sect = 2 then if r.at_ % 8 = 0 ∧ r.at_ + 8 ≤ n.consts then none else some 13
  else if r.sect = 3 then if r.at_ < n.descs then none else some 13
  else some 13

/-- Applies a relocation to an image. -/
def Reloc.apply (r : Reloc) (c : W32) (base : W64) (i : Image) : Image :=
  let v := r.value c base
  if r.sect = 1 then
    { i with code := i.code.modify r.at_ fun w => { w with args := { w.args with imm := BitVec.ofNat 48 v } } }
  else if r.sect = 2 then
    { i with constants := i.constants.take r.at_ ++ leBytes 8 v ++ i.constants.drop (r.at_ + 8) }
  else { i with descs := i.descs.modify r.at_ fun d => { d with base := BitVec.ofNat 64 v } }

/-- The parts of a container: its counts, sections, raw words and tables. -/
structure Parsed where
  n       : Counts
  dir     : List Section
  raw     : List RawWord
  descs   : List (List Byte)
  relocs  : List (List Byte)
  streams : List (List Byte)
  deriving DecidableEq, Repr

/-- The entries of a section. -/
def entriesOf (b : List Byte) (x : Section) (size : Nat) : List (List Byte) :=
  (List.range x.count).map fun i => bytesAt b (x.offset + size * i) size

/-- The parts of a container whose header and directory have passed. -/
def parseContainer (b : List Byte) : Parsed :=
  let dir := (List.range (fieldAt b 0x10 2)).map (sectionAt b)
  let s (k : Nat) : Section := sectionOf dir k
  ⟨⟨(s 1).count, (s 2).length, (s 3).count⟩, dir,
   (entriesOf b (s 1) 16).map fun e => rawWord (leNat e),
   entriesOf b (s 3) 32, entriesOf b (s 4) 16, entriesOf b (s 5) 64⟩

/-- The image of a container before relocation. -/
def imageOf (b : List Byte) (p : Parsed) : Image :=
  let c := sectionOf p.dir 2
  ⟨p.raw.map RawWord.decode, bytesAt b c.offset c.length, p.descs.map TileDesc.ofBytes, p.streams.map streamEntryOf⟩

/-- A check over the entries of a section, in index order. -/
def entriesFault {α : Type} (x : Section) (size : Nat) (l : List α) (f : α → Option Nat) : Option Refused :=
  firstFault ((List.range l.length).zip l) fun y =>
    match f y.2 with
    | some r => some (r, x.offset + size * y.1)
    | none => none

/-- Translates a container for a context (R129, R130): the image, or the first refusal. -/
def translate (b : List Byte) (len : Nat) (c : W32) (base : W64) : Except Refused Image :=
  match headerFault b len with
  | some r => .error r
  | none =>
    let p := parseContainer b
    let i := imageOf b p
    let s (k : Nat) : Section := sectionOf p.dir k
    match entriesFault (s 1) 16 p.raw (wordFault p.n) with
    | some r => .error r
    | none =>
      match controlFault i.code (i.streams.map fun x => x.entry) with
      | some k => .error (11, (s 1).offset + 16 * k)
      | none =>
        match entriesFault (s 3) 32 p.descs descFault with
        | some r => .error r
        | none =>
          match entriesFault (s 4) 16 p.relocs (relocFault p.n i.code c base) with
          | some r => .error r
          | none =>
            match entriesFault (s 5) 64 p.streams (streamFault p.n) with
            | some r => .error r
            | none =>
              if 524288 < 24 * p.n.code + p.n.consts + 32 * p.n.descs then .error (15, 0xFFFFFFFF)
              else .ok ((p.relocs.map relocOf).foldl (fun i r => r.apply c base i) i)

/-! ### Loading (R129, R132 to R135) -/

/-- Puts an image into a bank of a team. -/
def Team.load (k : Team) (bank : Nat) (i : Bank) : Team :=
  let r := k.refused.filter fun b => b != bank
  if bank = 0 then { k with bank0 := i, refused := r } else { k with bank1 := i, refused := r }

/-- The translation cache after a translation (R132): most recently used first, 256 entries. -/
def cacheUse (l : List CacheEntry) (e : CacheEntry) : List CacheEntry :=
  (e :: l.filter fun x => !(x.fn == e.fn && x.container == e.container)).take 256

/-- Whether another load into a bank of one of some teams is still under way in a context. -/
def State.loadingBank (s : State) (c : W32) (teams bank : Nat) : Bool :=
  (s.cmdsOf c).cmds.any fun x =>
    x.opcode == 0x0010 && !x.over && Packet.field x.pkt 0x0C 1 == bank &&
    Nat.land (Packet.field x.pkt 0x10 4) teams != 0

/-- A team of a context: as it runs, or as it is saved while the context is PREEMPTED (R447). -/
def State.ctxTeam (s : State) (x : Ctx) (t : Nat) : Team :=
  if !x.running && bitOf x.teamMask t then mapGetD x.saved Team.reset t else s.team t

/-- The check of R135 on a LAUNCH: the parameter at fault, none where it passes. -/
def State.streamCheck (s : State) (x : Ctx) (teams bank stream : Nat) : Option Nat :=
  let ks := (bitsSet 24 teams).map (s.ctxTeam x)
  if ks.any fun k => k.bank bank == .empty || k.refused.contains bank then some 0x04
  else if ks.any fun k =>
      match k.bank bank with
      | .full i =>
        (match i.streams[stream]? with
         | some e => e.flags.getLsbD 0 && x.span == 0
         | none => true)
      | .empty => true then some 0x06
  else none

/-- Settles the LAUNCHes that waited for a load (R135): once no bank they name is being loaded, one that
fails the check completes with BAD_PARAM. -/
def State.settleDeferred (s : State) (c : W32) (x : Ctx) : State :=
  let mine := (s.cmdsOf c).cmds.filter fun y => y.opcode == 0x0011 && y.deferred && !y.over
  mine.foldl (fun s y =>
    let ts := Packet.field y.pkt 0x00 4
    let bank := Packet.field y.pkt 0x04 1
    if s.loadingBank c ts bank then s
    else if (s.streamCheck x ts bank (Packet.field y.pkt 0x06 2)).isSome then
      s.finishCmd c y.seq 0x0102 (if y.phase = .started then (s.postmark.toNat - y.startedAt.toNat) / 1000 else 0) 0
    else s.modCmd c y.seq fun z => { z with deferred := false }) s

/-- A bank of a team whose load was refused (R91, R135): its content stays. -/
def Team.refuse (k : Team) (bank : Nat) : Team := { k with refused := bank :: k.refused.filter fun b => b != bank }

end Sys2Proof.Machine
end

