-- ==== Sys2Proof/Machine/Accept.lean ====
section
/-! DEFINITION. Packets: the checks of acceptance and the replies that decide them (spec/03 R72 to R92,
R536; spec/02 R55, R61; spec/09 R252; spec/10 R286; spec/14 R379, R388; spec/15 R419, R420;
spec/16 R446, R459, R460). -/

namespace Sys2Proof.Machine

open Sys2Proof

/-! ### The opcode table (R88) -/

/-- Where a command is sent. -/
inductive SentIn where
  | either | own | control
  deriving DecidableEq, Repr

/-- A row of the opcode table: the opcode, where it is sent, PF only, the least and the greatest PARAM_LEN,
block-marked. -/
structure CmdRow where
  opcode : Nat
  sent   : SentIn
  pfOnly : Bool
  lenMin : Nat
  lenMax : Nat
  marked : Bool
  deriving DecidableEq, Repr

/-- The opcode table. -/
def cmdRows : List CmdRow :=
  [⟨0x0001, .either, false, 0, 0, false⟩, ⟨0x0010, .own, false, 2, 2, false⟩, ⟨0x0011, .own, false, 2, 2, true⟩,
   ⟨0x0020, .own, false, 3, 3, true⟩, ⟨0x0021, .own, false, 2, 2, true⟩, ⟨0x0030, .own, false, 3, 3, true⟩,
   ⟨0x0040, .control, false, 2, 2, false⟩, ⟨0x0041, .control, false, 1, 1, false⟩,
   ⟨0x0042, .control, false, 1, 1, false⟩, ⟨0x0043, .control, false, 1, 1, false⟩,
   ⟨0x0044, .control, false, 1, 1, false⟩, ⟨0x0050, .own, false, 2, 2, false⟩, ⟨0x0051, .own, false, 1, 1, false⟩,
   ⟨0x0060, .control, true, 1, 1, false⟩, ⟨0x0061, .control, true, 1, 1, false⟩,
   ⟨0x0062, .control, true, 1, 1, false⟩, ⟨0x0063, .control, true, 1, 1, false⟩,
   ⟨0x0070, .control, false, 1, 1, false⟩, ⟨0x0080, .control, true, 1, 1, false⟩,
   ⟨0x0090, .control, false, 8, 255, false⟩]

/-- The row of an opcode; none where it is not listed. -/
def cmdRow (opcode : Nat) : Option CmdRow := cmdRows.find? fun r => r.opcode == opcode

/-! ### The verdict on a packet (R86, R536) -/

/-- The outcome of the checks that differ between commands: for each step of R86 the COUNT_A of its
failure, none where it passes; whether R55 needs the module posted; the copied schedule. -/
structure Checks where
  perm     : Option Nat := none
  param    : Option Nat := none
  sign     : Option Nat := none
  absent   : Option (Nat × Nat) := none
  busy     : Option Nat := none
  timed    : Bool := false
  schedule : Option Schedule := none
  deriving DecidableEq, Repr

/-- How a packet is answered. -/
inductive Verdict where
  | accepted
  | duplicate (status kind : Nat)
  | rejected (status countA : Nat)
  deriving DecidableEq, Repr

/-- COUNT_A where no field is named. -/
def noField : Nat := 0xFFFFFFFF

/-- Whether a context exists: a working context, or the control context of a function (R79). -/
def State.ctxExists (s : State) (c : W32) : Bool := isControl c || (s.ctx c).isSome

/-- The ledger floor of a context (R81). -/
def CmdState.floor (k : CmdState) : Nat :=
  if k.ledger.length < 4096 then 1 else match k.ledger with | x :: _ => x.1.toNat | [] => 1

/-- The classification of a SEQ (R80); none where it is new. -/
def CmdState.classify (k : CmdState) (seq : W64) : Option Verdict :=
  if seq = 0 then some (.rejected 0x0102 0x08)
  else if k.h.toNat < seq.toNat then none
  else if k.cmds.any fun x => x.seq == seq && !x.done then some (.duplicate 0x0001 1)
  else
    match k.ledger.find? fun x => x.1 == seq with
    | some x => some (.duplicate x.2.toNat 2)
    | none => if seq.toNat < k.floor then some (.duplicate 0xFFFF 0) else some (.rejected 0x0102 0x08)

/-- Whether the opcode may be sent in a context of this kind. -/
def CmdRow.kindOk (r : CmdRow) (c : W32) : Bool :=
  match r.sent with
  | .either => true
  | .own => !isControl c
  | .control => isControl c

/-- Whether FLAGS is allowed (R82). -/
def CmdRow.flagsOk (r : CmdRow) (f : Byte) : Bool :=
  decide (f.toNat < 8) && (r.marked || !f.getLsbD 1)

/-- The opcodes that a FAULTED context accepts (R86). -/
def faultedMay (opcode : Nat) : Bool := [0x0001, 0x0051, 0x0044, 0x0043].contains opcode

/-- Whether the context is FAULTED. -/
def State.isFaulted (s : State) (c : W32) : Bool :=
  match s.ctx c with
  | some x => x.faulted
  | none => false

/-- Whether the module is posted (R54). -/
def State.posted (s : State) : Bool := s.time.state == .locked

/-- The checks of R86 in order: the first that fails decides. -/
def State.verdict (s : State) (r : CmdRow) (p : Packet) (c : Checks) : Verdict :=
  if fnOf p.context ≠ p.fn ∨ !s.ctxExists p.context then .rejected 0x0301 0x04
  else if r.pfOnly && (p.fn != 0 || !isControl p.context) then .rejected 0x0301 0x00
  else if let some a := c.perm then .rejected 0x0301 a
  else if let some v := (s.cmdsOf p.context).classify p.seq then v
  else if s.isFaulted p.context && !faultedMay r.opcode then .rejected 0x0204 noField
  else if !r.kindOk p.context then .rejected 0x0102 0x04
  else if p.paramLen.toNat < r.lenMin ∨ r.lenMax < p.paramLen.toNat then .rejected 0x0102 0x03
  else if !r.flagsOk p.flags then .rejected 0x0102 0x02
  else if let some a := c.param then .rejected 0x0102 a
  else if let some a := c.sign then .rejected 0x0302 a
  else if let some x := c.absent then .rejected x.1 x.2
  else if let some a := c.busy then .rejected 0x0104 a
  else if c.timed && !s.posted then .rejected 0x0106 noField
  else .accepted

/-! ### Intake (R72, R73, R76, R97) -/

/-- Whether the sorting office takes a packet from the ring of a function now. -/
def State.intakeOpen (s : State) (f : Nat) : Bool :=
  let k := s.fn f
  s.reaches f && !s.faults.selfFenced && s.power.state != .sleep && !s.intakePaused && k.sqOn &&
  decide (0 < k.sqPending) && !k.stalled

/-- The reply that decides a packet. -/
def State.decided (s : State) (p : Packet) (status kind countA : Nat) : Reply :=
  ⟨p.seq, BitVec.ofNat 16 status, kind, false, p.context, s.postmark, BitVec.ofNat 32 countA, 0, false⟩

/-- The journal record of an accepted packet (R96): it starts as accepted. -/
def State.journalled (s : State) (opcode : Nat) (p : Packet) (c : Checks) (deferred : Bool) : Cmd :=
  let target := if [0x0041, 0x0042, 0x0043, 0x0044].contains opcode then
      (s.ctx (BitVec.ofNat 32 (Packet.field p 0x00 4))).map fun x => x.uid
    else if opcode = 0x0061 then (s.ctx (BitVec.ofNat 32 (Packet.field p 0x08 4))).map fun x => x.uid
    else none
  ⟨p.seq, BitVec.ofNat 16 opcode, p, target, s.postmark, 0, .accepted, c.schedule, 0, deferred, false, []⟩

/-- Keeps the packet that a function's ring gave last, in case the core that took it fails (R74): the reply that decided
it, and what the reply ring held in its place. -/
def State.keepInHand (s : State) (before : State) (f : Nat) (r : Reply) : State :=
  let k := before.fn f
  s.modFn f fun x => { x with inHand := some (r, memRead before.hostMem (k.rqBase * 4096 + 32 * k.rqTail) 32) }

/-- Step 10 of R86 and what follows it: the record, H, ACCEPTED. -/
def State.journal10 (s : State) (opcode : Nat) (p : Packet) (c : Checks) (deferred : Bool) : State :=
  let s1 := s.modCmds p.context fun k =>
    { k with h := p.seq, cmds := k.cmds ++ [s.journalled opcode p c deferred] }
  let s2 := s1.modFn p.fn fun k =>
    { k with accepted := k.accepted + 1, frank := { k.frank with commands := k.frank.commands + 1 } }
  (s2.pushReply p.fn (s.decided p 0x0001 1 0)).keepInHand s p.fn (s.decided p 0x0001 1 0)

/-- Takes the packet at SQ_HEAD of its function's ring and decides it. Where intake is closed, or the record ring has no
room for it (R97), nothing changes (notes/assumptions/1.md). `deferred` marks a LAUNCH that waits for a load (R135). -/
def State.takePacket (s : State) (opcode : Nat) (p : Packet) (c : Checks) (deferred : Bool := false) : State :=
  match cmdRow opcode with
  | none => s
  | some r =>
    if !s.intakeOpen p.fn || !s.ringTakes p then s
    else
      let next (s : State) : State := s.modFn p.fn fun k => { k with sqHead := (k.sqHead + 1) % 2 ^ k.sqLog }
      let tell (r : Reply) : State := next ((s.pushReply p.fn r).keepInHand s p.fn r)
      match s.verdict r p c with
      | .accepted => next (s.journal10 opcode p c deferred)
      | .duplicate st kind => tell (s.decided p 0x0002 4 (st + kind * 65536))
      | .rejected st a => tell (s.decided p st 3 a)

/-! ### Parameter bytes (R83, R536) -/

/-- The first offset at fault among `n` bytes: the start of a listed field (offset, size, whether it obeys its
rules) that breaks one, or a byte outside every listed field that is not zero. -/
def fieldFault (b : List Byte) (n : Nat) (l : List (Nat × Nat × Bool)) : Option Nat :=
  (List.range n).find? fun i =>
    (l.any fun f => f.1 == i && !f.2.2) ||
    (!(l.any fun f => decide (f.1 ≤ i) && decide (i < f.1 + f.2.1)) && b.getD i 0 != 0)

/-- The COUNT_A of the parameter bytes of a packet. -/
def paramFault (p : Packet) (l : List (Nat × Nat × Bool)) : Option Nat :=
  (fieldFault p.params 48 l).map fun i => 0x10 + i


/-- Whether a team is exposed by the grade and in service (R32, R37). -/
def State.teamServes (s : State) (t : Nat) : Bool :=
  decide (t < 24) && !(s.part9620 && t % 6 == 5) && !s.faults.clusterOut.contains t

/-- Step 7 of a team mask: COUNT_A where a team is absent. -/
def State.absentTeam (s : State) (mask at_ : Nat) : Option (Nat × Nat) :=
  if (bitsSet 24 mask).all s.teamServes then none else some (0x0103, at_)

/-- Whether a port is exposed and in service (R32, R41). -/
def State.portServes (s : State) (p : Nat) : Bool :=
  decide (p < 32) && !(s.part9620 && decide (16 ≤ p)) && (s.port p).state != .out

/-- The checks of a command on the working context of the packet; none apply where it does not exist. -/
def State.ownChecks (s : State) (p : Packet) (f : Ctx → Checks) : Checks :=
  match s.ctx p.context with
  | some x => f x
  | none => { }

/-- The target that a control command names, where it is an existing working context (R89). -/
def State.target (s : State) (p : Packet) : Option Ctx := s.ctx (BitVec.ofNat 32 (Packet.field p 0x00 4))

/-- Step 2 of a TARGET: a virtual function names only its own contexts (R88). -/
def targetPerm (p : Packet) : Option Nat :=
  if p.fn != 0 && Packet.field p 0x00 4 / 2 ^ 26 != p.fn then some 0x10 else none

/-- Whether AT is 0, or at least 1,000,000 ns after the acceptance (R63). -/
def State.atOk (s : State) (at_ : Nat) : Bool := at_ == 0 || decide (s.postmark.toNat + 1000000 ≤ at_)

/-! ### Commands without parameters or on banks and launches -/

/-- The checks of NOP (R89). -/
def nopChecks (p : Packet) : Checks := { param := paramFault p [] }

/-- NOP (R88). -/
def execNop (p : Packet) (s : State) : Result := .next (s.takePacket 0x0001 p (nopChecks p))

/-- UNLISTED_OPCODE_PACKET (R86 step 1): OPCODE is not in the opcode table. -/
def execUnlistedOpcodePacket (opcode : W16) (p : Packet) (s : State) : Result :=
  .next (if (cmdRow opcode.toNat).isSome || !s.intakeOpen p.fn then s
    else ((s.pushReply p.fn (s.decided p 0x0101 3 0)).keepInHand s p.fn (s.decided p 0x0101 3 0)).modFn p.fn fun k =>
      { k with sqHead := (k.sqHead + 1) % 2 ^ k.sqLog })

/-- Whether a container's code holds a matrix instruction with type code 0x09 (R33). -/
def holdsMxfp4 (b : List Byte) : Bool :=
  (List.range (fieldAt b 0x10 2)).any fun i =>
    let x := sectionAt b i
    decide (0x40 + 16 * i + 16 ≤ b.length) && x.kind == 1 &&
    (List.range ((min (x.offset + x.length) b.length - x.offset) / 16)).any fun j =>
      let w := fieldAt b (x.offset + 16 * j) 2
      decide (0x100 ≤ w % 1024) && decide (w % 1024 ≤ 0x17F) && w / 1024 == 0x09

/-- Teams outside the context (R103). -/
def foreignTeams (x : Ctx) (mask at_ : Nat) : Option (Nat × Nat) :=
  if Nat.land mask x.teamMask = mask then none else some (0x0301, at_)

/-- Whether an accepted LAUNCH of any context that has not completed names a bank for a team (R90). -/
def State.launchNames (s : State) (t bank : Nat) : Bool :=
  (mapVals s.cmds).any fun k => k.cmds.any fun x =>
    x.opcode == 0x0011 && !x.done && Packet.field x.pkt 0x04 1 == bank && bitOf (Packet.field x.pkt 0x00 4) t

/-- Whether a bank of a team is in use (R90). -/
def State.bankInUse (s : State) (x : Ctx) (t bank : Nat) : Bool :=
  (s.ctxTeam x t).active == bank || s.launchNames t bank

/-- The checks of LOAD_PROGRAM (R33, R89, R90, R103). -/
def State.loadChecks (s : State) (p : Packet) (x : Ctx) : Checks :=
  let at_ := Packet.field p 0x00 8
  let len := Packet.field p 0x08 4
  let bank := Packet.field p 0x0C 1
  let mask := Packet.field p 0x10 4
  { param := paramFault p
      [(0x00, 8, at_ % 64 == 0 && s.rangeInRegion x at_ len),
       (0x08, 4, decide (64 ≤ len) && decide (len ≤ 2 ^ 28)),
       (0x0C, 1, decide (bank ≤ 1)),
       (0x10, 3, decide (mask ≠ 0))]
    absent :=
      match s.absentTeam mask 0x20 with
      | some a => some a
      | none =>
        if s.part9620 && holdsMxfp4 (memRead s.busView at_ len) then some (0x0103, 0x10)
        else foreignTeams x mask 0x20
    busy := if (bitsSet 24 mask).any fun t => s.bankInUse x t bank then some 0x1C else none }

/-- LOAD_PROGRAM (R89). -/
def execLoadProgram (p : Packet) (s : State) : Result :=
  .next (s.takePacket 0x0010 p (s.ownChecks p (s.loadChecks p)))

/-- The checks of LAUNCH (R55, R89, R103, R135). Byte 3 of a team mask is a reserved byte (R536). -/
def State.launchChecks (s : State) (p : Packet) (x : Ctx) : Checks :=
  let mask := Packet.field p 0x00 4
  let bank := Packet.field p 0x04 1
  let mine := Machine.maskOf ((bitsSet 24 mask).filter fun t => s.teamServes t && x.teams.contains t)
  let fault := if bank ≤ 1 ∧ !s.loadingBank p.context mask bank then
      s.streamCheck x mine bank (Packet.field p 0x06 2) else none
  { param := paramFault p
      [(0x00, 3, decide (mask ≠ 0)),
       (0x04, 1, decide (bank ≤ 1) && fault != some 0x04),
       (0x06, 2, fault != some 0x06),
       (0x08, 8, decide (Packet.field p 0x08 8 < 12 * stackSize)), (0x10, 8, true)]
    absent :=
      match s.absentTeam mask 0x10 with
      | some a => some a
      | none => foreignTeams x mask 0x10
    timed := x.span == 1 }

/-- LAUNCH (R89). -/
def execLaunch (p : Packet) (s : State) : Result :=
  .next (s.takePacket 0x0011 p (s.ownChecks p (s.launchChecks p))
    (s.loadingBank p.context (Packet.field p 0x00 4) (Packet.field p 0x04 1)))

/-! ### Tables and graphs -/

/-- The type codes that spec/06 assigns. -/
def typeCodes : List Nat :=
  [0x00, 0x01, 0x02, 0x03, 0x04, 0x05, 0x06, 0x07, 0x08, 0x09, 0x0A, 0x10, 0x11, 0x12, 0x13, 0x14, 0x15, 0x16,
   0x18, 0x19, 0x1A, 0x1C, 0x1D]

/-- Whether VALUE_TYPE and RULE form a combination of R283. -/
def tableCombo (ty rule : Nat) : Bool :=
  if rule = 0xFF then decide (ty ≤ 6) || [0x0A, 0x10, 0x11, 0x12, 0x13, 0x15].contains ty
  else decide (rule ≤ 3) && (ty == 0x00 || ty == 0x19)

/-- Whether a number names an ordinary table or a mirror table (R281). -/
def tableNumber (n : Nat) : Bool := decide (n < 64) || (decide (mirrorBit ≤ n) && decide (n < mirrorBit + 64))

/-- The checks of TABLE_CREATE (R89, R283, R286). -/
def State.tableChecks (s : State) (p : Packet) (x : Ctx) : Checks :=
  let n := Packet.field p 0x00 4
  let ty := Packet.field p 0x04 1
  let cols := Packet.field p 0x06 2
  let rows := Packet.field p 0x08 8
  let base := Packet.field p 0x10 8
  let group := Packet.field p 0x20 2
  let buddy := Packet.field p 0x22 2
  { param := paramFault p
      [(0x00, 4, tableNumber n), (0x04, 1, typeCodes.contains ty),
       (0x05, 1, tableCombo ty (Packet.field p 0x05 1)),
       (0x06, 2, decide (1 ≤ cols) && decide (cols ≤ 4096) && (!isBlockTy ty || cols % 32 == 0)),
       (0x08, 8, decide (1 ≤ rows) && decide (rows ≤ 2 ^ 48)),
       (0x10, 8, base % 64 == 0 && s.stackUsable x base),
       (0x18, 8, Packet.field p 0x18 8 % 64 == 0),
       (0x20, 2, decide (1 ≤ group) && decide (group ≤ 64)),
       (0x22, 2, buddy == 0xFFFF || (decide (n < 64) && x.span == 1))] }

/-- TABLE_CREATE (R286). -/
def execTableCreate (p : Packet) (s : State) : Result :=
  .next (s.takePacket 0x0020 p (s.ownChecks p (s.tableChecks p)))

/-- The checks of TABLE_REPLACE (R89): R306 checks the rest when the command executes. -/
def replaceChecks (p : Packet) : Checks := { param := paramFault p [(0x00, 4, true), (0x08, 8, true), (0x10, 4, true)] }

/-- TABLE_REPLACE (R89). -/
def execTableReplace (p : Packet) (s : State) : Result := .next (s.takePacket 0x0021 p (replaceChecks p))

/-- The checks of GRAPH_LOAD (R252). -/
def State.graphChecks (s : State) (p : Packet) (x : Ctx) : Checks :=
  let ty := Packet.field p 0x04 1
  let image := Packet.field p 0x08 8
  let len := Packet.field p 0x10 8
  let nodes := Packet.field p 0x18 8
  { param := paramFault p
      [(0x00, 4, decide (Packet.field p 0x00 4 < 16)), (0x04, 1, ty == 0x1C || ty == 0x1D),
       (0x05, 1, decide (Packet.field p 0x05 1 < 4)),
       (0x08, 8, image % 64 == 0 && s.rangeInRegion x image len),
       (0x10, 8, decide (128 ≤ len)),
       (0x18, 8, decide (1 ≤ nodes) && decide (nodes ≤ if ty = 0x1C then 2 ^ 32 - 1 else 2 ^ 48 - 1)),
       (0x20, 8, decide (Packet.field p 0x20 8 ≤ 2 ^ 40))] }

/-- GRAPH_LOAD (R252). -/
def execGraphLoad (p : Packet) (s : State) : Result :=
  .next (s.takePacket 0x0030 p (s.ownChecks p (s.graphChecks p)))

/-! ### Contexts -/

/-- The dies of a partition under a layout (R441); none where the code is not valid. -/
def partitionDies (layout part : Nat) : Option (Nat × Nat) :=
  if layout = 0 ∧ part = 0 then some (0, 4)
  else if layout = 1 ∧ (part = 1 ∨ part = 2) then some (2 * (part - 1), 2)
  else if layout = 2 ∧ 4 ≤ part ∧ part ≤ 7 then some (part - 4, 1)
  else none

/-- The checks of CONTEXT_CREATE (R55, R89, R446). -/
def State.createChecks (s : State) (p : Packet) : Checks :=
  let new := Packet.field p 0x00 4
  let part := Packet.field p 0x04 1
  let span := Packet.field p 0x05 1
  let modules := Packet.field p 0x06 2
  let mask := Packet.field p 0x08 4
  let base := Packet.field p 0x10 8
  let size := Packet.field p 0x18 8
  let k := s.fn p.fn
  let dies := partitionDies s.pm.layout part
  let inDies (t : Nat) : Bool :=
    match dies with
    | some (d, n) => decide (d ≤ t / 6) && decide (t / 6 < d + n)
    | none => false
  let inStacks : Bool :=
    match dies with
    | some (d, n) => decide (3 * d * stackSize ≤ base) && decide (base + size ≤ 3 * (d + n) * stackSize)
    | none => false
  { perm :=
      if !(decide (part < 8) && bitOf k.partMask part) then some 0x14
      else if span == 1 && !k.mayFabric then some 0x15
      else if base < k.winBase * 0x4000000 ∨ (k.winBase + k.winSize) * 0x4000000 < base + size then some 0x20
      else none
    param := paramFault p
      [(0x00, 4, new / 2 ^ 26 == p.fn && new % 2 ^ 26 != 0 && (s.ctx (BitVec.ofNat 32 new)).isNone),
       (0x04, 1, dies.isSome), (0x05, 1, decide (span ≤ 1)),
       (0x06, 2, if span = 0 then modules == 1 else decide (2 ≤ modules)),
       (0x08, 3, decide (mask ≠ 0) && (bitsSet 24 mask).all inDies),
       (0x10, 8, base % 0x10000 == 0 && inStacks && !s.meetsReserved base 0x820000),
       (0x18, 8, size % 0x10000 == 0 && decide (0x1000000 ≤ size))]
    absent := s.absentTeam mask 0x18
    timed := decide (2 ≤ modules) }

/-- CONTEXT_CREATE (R446). -/
def execContextCreate (p : Packet) (s : State) : Result :=
  .next (s.takePacket 0x0040 p (s.createChecks p))

/-- The checks of a command that names a TARGET. -/
def State.targetChecks (s : State) (p : Packet) (rest : List (Nat × Nat × Bool)) (timed : Bool) : Checks :=
  { perm := targetPerm p
    param := paramFault p ((0x00, 4, (s.target p).isSome) :: rest)
    timed := timed && match s.target p with | some x => x.span == 1 | none => false }

/-- The checks of CONTEXT_PREEMPT (R55, R63, R89). -/
def State.preemptChecks (s : State) (p : Packet) : Checks :=
  s.targetChecks p [(0x04, 4, true), (0x08, 8, s.atOk (Packet.field p 0x08 8))] true

/-- CONTEXT_PREEMPT (R89). -/
def execContextPreempt (p : Packet) (s : State) : Result := .next (s.takePacket 0x0041 p (s.preemptChecks p))

/-- The checks of CONTEXT_RESUME (R55, R89, R452). -/
def State.resumeChecks (s : State) (p : Packet) : Checks :=
  { s.targetChecks p [(0x08, 8, true)] true with
    absent := match s.target p with | some x => s.absentTeam x.teamMask 0x10 | none => none }

/-- CONTEXT_RESUME (R89). -/
def execContextResume (p : Packet) (s : State) : Result := .next (s.takePacket 0x0042 p (s.resumeChecks p))

/-- CONTEXT_DESTROY (R89). -/
def execContextDestroy (p : Packet) (s : State) : Result := .next (s.takePacket 0x0043 p (s.targetChecks p [] false))

/-- CONTEXT_RESET (R89). -/
def execContextReset (p : Packet) (s : State) : Result := .next (s.takePacket 0x0044 p (s.targetChecks p [] false))

/-! ### Snapshots (R417 to R420) -/

/-- The address of a context's state list. -/
def Ctx.listAt (x : Ctx) : Nat := x.regionBase.toNat + 0x810000

/-- The ranges of a context's state list. -/
def State.listRanges (s : State) (x : Ctx) : List ListRange := s.rangesAt x.listAt

/-- Bytes of the on-chip part for a number of teams: at most 56 MiB for each (R418, R449). -/
def onChipSize (teams : Nat) : Nat := min (Config.onChipBytes teams) (teams * 0x3800000)

/-- S, the bytes of a snapshot image (R418). -/
def State.imageSize (s : State) (x : Ctx) : Nat :=
  4096 + 0x820000 + ((s.listRanges x).map fun r => r.bytes).foldl (· + ·) 0 + onChipSize x.teams.length

/-- The DEST that a SNAPSHOT uses: 0 selects that of the older of two records (R419). -/
def State.snapDest (s : State) (c : W32) (dest : Nat) : Option Nat :=
  if dest ≠ 0 then some dest
  else
    match s.snapsOf c with
    | [a, _] => some a.dest
    | _ => none

/-- Whether DEST meets R419. -/
def State.destOk (s : State) (c : W32) (x : Ctx) (dest : Nat) : Bool :=
  match s.snapDest c dest with
  | none => false
  | some d =>
    let size := s.imageSize x
    let base := x.regionBase.toNat
    d % 65536 == 0 && s.rangeInRegion x d size && !rangesMeet (d, size) (base, 0x820000) &&
    ((s.listRanges x).all fun r => !rangesMeet (d, size) (base + r.offset, r.bytes)) &&
    match (s.snapsOf c).getLast? with
    | some n => !rangesMeet (d, size) (n.dest, n.size)
    | none => true

/-- The checks of SNAPSHOT (R55, R63, R419). -/
def State.snapshotChecks (s : State) (p : Packet) (x : Ctx) : Checks :=
  { param := paramFault p
      [(0x00, 8, s.atOk (Packet.field p 0x00 8)), (0x08, 8, s.destOk p.context x (Packet.field p 0x08 8)),
       (0x10, 4, !((s.fn p.fn).snaps.any fun r => r.id.toNat == Packet.field p 0x10 4))]
    timed := x.span == 1 }

/-- SNAPSHOT (R89). -/
def execSnapshot (p : Packet) (s : State) : Result :=
  .next (s.takePacket 0x0050 p (s.ownChecks p (s.snapshotChecks p)))

/-- The stacks that hold bytes of a range. -/
def stacksOf (addr len : Nat) : List Nat :=
  (List.range 12).filter fun k => rangesMeet (addr, len) (k * stackSize, stackSize) && decide (0 < len)

/-- Whether the teams and the region of a context are in service (R420). -/
def State.ctxServes (s : State) (x : Ctx) : Bool :=
  x.teams.all s.teamServes &&
  (stacksOf x.regionBase.toNat x.regionSize.toNat).all fun k => !s.faults.stackOut.contains k

/-- The record that a RESTORE names for its context (R420). -/
def State.restorable (s : State) (c : W32) (x : Ctx) (id : Nat) : Option SnapRec :=
  match (s.fn (fnOf c)).snaps.find? fun r => r.id.toNat == id with
  | some r =>
    if r.regionBase = x.regionBase ∧ r.regionSize = x.regionSize ∧ r.teams = x.teams.length then some r else none
  | none => none

/-- The record of R421 from which the new holder of a lost role restores (R432): of the role that its context took
over, with the SNAP_ID and the team count. -/
def State.takenRecord (s : State) (c : W32) (x : Ctx) (id : Nat) : Option (List Byte × List Byte) :=
  let pc := s.postcodeOf c
  match mapGet s.faults.records pc.toNat with
  | some r =>
    if pc != 0xFFFF && pc == s.faults.takePostcode && fieldAt r.1 4 4 == id && fieldAt r.1 0x38 4 == x.teams.length then
      some r
    else none
  | none => none

/-- The checks of RESTORE (R420, R432). -/
def State.restoreChecks (s : State) (p : Packet) (x : Ctx) : Checks :=
  let id := Packet.field p 0x00 4
  { param := paramFault p [(0x00, 4,
      (s.restorable p.context x id).isSome || (s.takenRecord p.context x id).isSome)]
    absent := if s.ctxServes x then none else some (0x0103, noField) }

/-- RESTORE (R89). -/
def execRestore (p : Packet) (s : State) : Result :=
  .next (s.takePacket 0x0051 p (s.ownChecks p (s.restoreChecks p)))

/-! ### Fabric and services -/

/-- The channel records of a slot table (R388). -/
def tableChannels (b : List Byte) (n : Nat) : List SchedChannel :=
  (List.range n).map fun i =>
    let o := 0x10 + 8 * i
    ⟨BitVec.ofNat 16 (fieldAt b o 2), BitVec.ofNat 16 (fieldAt b (o + 2) 2), BitVec.ofNat 16 (fieldAt b (o + 4) 2)⟩

/-- The slot entries of a slot table (R388). -/
def tableEntries (b : List Byte) (n e : Nat) : List SlotEntry :=
  (List.range e).map fun i =>
    let o := 0x10 + 8 * n + 8 * i
    ⟨fieldAt b o 2, fieldAt b (o + 2) 1 == 1, fieldAt b (o + 3) 1, fieldAt b (o + 4) 1,
     BitVec.ofNat 16 (fieldAt b (o + 6) 2)⟩

/-- Whether every element of a list precedes the next by an order. -/
def ascending {α : Type} (lt : α → α → Bool) : List α → Bool
  | a :: b :: r => lt a b && ascending lt (b :: r)
  | _ => true

/-- Whether a channel record obeys R388, of a module that holds the given roles. -/
def channelOk (roles : List (Nat × Role)) (b : List Byte) (i : Nat) : Bool :=
  let o := 0x10 + 8 * i
  decide (fieldAt b o 2 < 1024) && (mapGet roles (fieldAt b (o + 2) 2)).isSome &&
  fieldAt b (o + 2) 2 != fieldAt b (o + 4) 2 && fieldAt b (o + 6) 2 == 0

/-- Whether a slot entry obeys R388. -/
def slotEntryOk (b : List Byte) (slots : Nat) (chans : List SchedChannel) (o : Nat) : Bool :=
  let act := fieldAt b (o + 2) 1
  let out := fieldAt b (o + 3) 1
  let inp := fieldAt b (o + 4) 1
  decide (fieldAt b o 2 < slots) && decide (out < 32) && fieldAt b (o + 5) 1 == 0 &&
  (if act = 1 then inp == 0xFF && chans.any fun c => c.id.toNat == fieldAt b (o + 6) 2
   else act == 2 && decide (inp < 32) && inp != out && fieldAt b (o + 6) 2 == 0)

/-- Whether no (SLOT, IN_PORT) pair appears in two FORWARD entries. -/
def forwardsOnce (l : List SlotEntry) : Bool :=
  let keys := (l.filter fun e => !e.send).map fun e => e.slot * 256 + e.inPort
  keys.length == keys.eraseDups.length

/-- Whether a slot table obeys R388, for a module that holds the given roles. -/
def slotTableOk (roles : List (Nat × Role)) (b : List Byte) (slots : Nat) : Bool :=
  let n := fieldAt b 0 2
  let e := fieldAt b 4 4
  let chans := tableChannels b n
  decide (n ≤ 1024) && fieldAt b 2 2 == 0 && decide (e ≤ 32000) && fieldAt b 8 8 == 0 &&
  b.length == 16 + 8 * n + 8 * e &&
  (List.range n).all (channelOk roles b) && ascending (fun x y => decide (x.id.toNat < y.id.toNat)) chans &&
  ((List.range e).all fun i => slotEntryOk b slots chans (0x10 + 8 * n + 8 * i)) &&
  ascending (fun x y => decide (x.slot < y.slot) || (x.slot == y.slot && decide (x.outPort < y.outPort)))
    (tableEntries b n e) &&
  forwardsOnce (tableEntries b n e)

/-- Whether START of a schedule obeys R61. -/
def State.startOk (s : State) (start : Nat) : Bool :=
  start % 64 == 0 && decide (s.postmark.toNat + 1000000 ≤ start) &&
  match s.time.active with
  | some c => decide (c.start.toNat ≤ start) && (start - c.start.toNat) % c.roundNs == 0
  | none => true

/-- The schedule that an image gives (R61, R388); none where a rule of the header or the table is broken. -/
def State.parseSchedule (s : State) (image : Nat) : Option Schedule :=
  let m := s.busView
  let h := memRead m image 64
  let version := fieldAt h 0x04 2
  let slots := fieldAt h 0x06 2
  let lead := fieldAt h 0x10 4
  let off := fieldAt h 0x18 8
  let b := memRead m (image + off) (fieldAt h 0x14 4)
  let active := match s.time.active with | some c => c.version.toNat | none => 0
  if fieldAt h 0 4 == 0x44484353 && version != 0 && version != active && decide (16 ≤ slots) &&
      decide (slots ≤ 1000) && s.startOk (fieldAt h 0x08 8) &&
      (lead == 0 || (decide (256 ≤ lead) && decide (lead ≤ 65536))) && off % 64 == 0 &&
      (bytesAt h 0x24 28).all (· == 0) && fieldAt h 0x20 4 == (crc32 b).toNat && slotTableOk s.fabric.roles b slots then
    let n := fieldAt b 0 2
    some ⟨BitVec.ofNat 16 version, slots, BitVec.ofNat 64 (fieldAt h 0x08 8), if lead = 0 then 2000 else lead,
      tableChannels b n, tableEntries b n (fieldAt b 4 4)⟩
  else none

/-- The ports that a schedule uses. -/
def Schedule.ports (c : Schedule) : List Nat :=
  c.entries.flatMap fun e => if e.send then [e.outPort] else [e.outPort, e.inPort]

/-- The checks of SCHEDULE_LOAD (R61, R62, R388). -/
def State.scheduleChecks (s : State) (p : Packet) : Checks :=
  let image := Packet.field p 0x00 8
  let len := Packet.field p 0x08 4
  let table := memNat s.busView (image + 0x18) 8 + memNat s.busView (image + 0x14) 4
  let fault := paramFault p
    [(0x00, 8, image % 64 == 0 && decide (image + len ≤ 12 * stackSize) && !s.meetsReserved image len),
     (0x08, 4, decide (64 ≤ len) && decide (table ≤ len))]
  let sched := if fault.isSome then none else s.parseSchedule image
  { param := match fault with
      | some a => some a
      | none => if sched.isSome then none else some noField
    absent := match sched with
      | some c => if c.ports.all s.portServes then none else some (0x0103, noField)
      | none => none
    busy := if s.time.pending.isSome || ((s.cmdsOf p.context).cmds.any fun x => x.opcode == 0x0060 && !x.over) then
        some 0x10 else none
    timed := true
    schedule := sched }

/-- SCHEDULE_LOAD (R61). -/
def execScheduleLoad (p : Packet) (s : State) : Result :=
  .next (s.takePacket 0x0060 p (s.scheduleChecks p))

/-- The checks of ROLE_ASSIGN (R55, R379). -/
def State.roleChecks (s : State) (p : Packet) : Checks :=
  { param := paramFault p
      [(0x00, 2, Packet.field p 0x00 2 != 0xFFFF), (0x02, 2, true), (0x04, 4, true),
       (0x08, 4, match s.ctx (BitVec.ofNat 32 (Packet.field p 0x08 4)) with
        | some k => k.span == 1
        | none => false)]
    absent := if (bitsSet 32 (Packet.field p 0x04 4)).all s.portServes then none else some (0x0103, 0x14)
    timed := true }

/-- ROLE_ASSIGN (R379). -/
def execRoleAssign (p : Packet) (s : State) : Result := .next (s.takePacket 0x0061 p (s.roleChecks p))

/-- The checks of SPARE_ARM (R55, R422). -/
def armChecks (p : Packet) : Checks :=
  { param := paramFault p
      [(0x00, 2, Packet.field p 0x00 2 != 0xFFFF), (0x02, 1, decide (Packet.field p 0x02 1 ≤ 1))]
    timed := true }

/-- SPARE_ARM (R422). -/
def execSpareArm (p : Packet) (s : State) : Result := .next (s.takePacket 0x0062 p (armChecks p))

/-- The checks of TAKEOVER (R55, R424). -/
def takeChecks (p : Packet) : Checks :=
  { param := paramFault p [(0x00, 2, Packet.field p 0x00 2 != 0xFFFF), (0x02, 2, true)], timed := true }

/-- TAKEOVER (R424). -/
def execTakeover (p : Packet) (s : State) : Result := .next (s.takePacket 0x0063 p (takeChecks p))

/-- The checks of FRANK_READ (R88, R89). -/
def frankChecks (p : Packet) : Checks :=
  { perm := if p.fn != 0 && Packet.field p 0x00 4 != p.fn then some 0x10 else none
    param := paramFault p
      [(0x00, 4, decide (Packet.field p 0x00 4 < 64)), (0x04, 1, decide (Packet.field p 0x04 1 ≤ 48)),
       (0x08, 8, true)] }

/-- FRANK_READ (R88). -/
def execFrankRead (p : Packet) (s : State) : Result := .next (s.takePacket 0x0070 p (frankChecks p))

/-- Marks the teams that an accepted SELFTEST holds (R499). -/
def State.holdTeams (s : State) (mask : Nat) (on : Bool) : State :=
  (bitsSet 24 mask).foldl (fun s t => s.modTeam t fun k => { k with testing := on }) s

/-- The checks of SELFTEST (R499). -/
def State.selftestChecks (s : State) (p : Packet) : Checks :=
  let mask := Packet.field p 0x00 4
  { param := paramFault p [(0x00, 3, true), (0x04, 1, decide (Packet.field p 0x04 1 ≤ 2))]
    absent := s.absentTeam mask 0x10
    busy := if (bitsSet 24 mask).all s.teamFree then none else some 0x10 }

/-- SELFTEST (R499): its teams stay out of the free state from the acceptance on. -/
def execSelftest (p : Packet) (s : State) : Result :=
  let t := s.takePacket 0x0080 p (s.selftestChecks p)
  .next (if (t.cmd p.context p.seq).isSome && (s.cmd p.context p.seq).isNone then
      t.holdTeams (Packet.field p 0x00 4) true
    else t)

/-! ### Signed requests (R459, R460) -/

def qSlot (b : List Byte) : Nat := fieldAt b 0x04 1
def qOp (b : List Byte) : Nat := fieldAt b 0x05 1
def qLen (b : List Byte) : Nat := fieldAt b 0x06 2
def qCounter (b : List Byte) : Nat := fieldAt b 0x10 8
def qBody (b : List Byte) (off n : Nat) : Nat := fieldAt b (0x40 + off) n

/-- The first byte of a block that breaks the layout of R459. -/
def requestFault (b : List Byte) : Option Nat :=
  fieldFault b (b.length - 64)
    [(0x00, 4, fieldAt b 0 4 == 0x51524D50), (0x04, 1, decide (qSlot b ≤ 3)), (0x05, 1, true),
     (0x06, 2, decide (0x40 + qLen b ≤ b.length - 64)), (0x08, 8, true), (0x10, 8, true), (0x18, 8, true),
     (0x40, qLen b, true)]

/-- The right that an OP needs, as a bit of RIGHTS (R458, R461); an unknown OP needs none beyond VALID. -/
def rightOf (op : Nat) : Nat :=
  if op = 1 ∨ op = 2 ∨ op = 3 then 3 else if op = 4 then 2 else if op = 5 then 4
  else if op = 6 ∨ op = 7 then 1 else if op = 8 then 5 else 0

/-- The checks of R460; `verified` is the verdict on the Ed25519 signature (notes/assumptions/9.md). -/
def State.signedOk (s : State) (b : List Byte) (verified : Bool) : Bool :=
  let rights := s.pm.rights.getD (qSlot b) 0
  let until_ := fieldAt b 0x18 8
  rights.getLsbD 0 && fieldAt b 0x08 8 == s.pm.moduleId.toNat &&
  decide ((s.pm.ctrs.getD (qSlot b) 0).toNat < qCounter b) &&
  (until_ == 0 || (s.posted && decide (s.postmark.toNat ≤ until_))) &&
  rights.getLsbD (rightOf (qOp b)) && verified

/-- Takes the COUNTER of an accepted request (R460). -/
def State.takeCounter (s : State) (b : List Byte) : State :=
  { s with pm := { s.pm with ctrs := s.pm.ctrs.set (qSlot b) (BitVec.ofNat 64 (qCounter b)) } }

/-- Counts a refused request (R460). -/
def State.refuseRequest (s : State) : State :=
  { s with pm := { s.pm with reqRefused := satTo 0xFFFF (s.pm.reqRefused + 1) } }

/-- The checks of a POSTMASTER_REQUEST (R83, R459, R460). -/
def State.requestChecks (s : State) (p : Packet) (verified : Bool) : Checks :=
  { param :=
      match paramFault p [(0x00, 8, Packet.field p 0x00 8 % 16 == 0)] with
      | some a => some a
      | none => (requestFault p.block).map fun i => 64 + i
    sign := if s.signedOk p.block verified then none else some p.block.length }

/-- Takes a POSTMASTER_REQUEST packet: a refusal under R460 is counted, an acceptance takes COUNTER. -/
def State.takeRequest (s : State) (p : Packet) (verified : Bool) : State :=
  let c := s.requestChecks p verified
  let t := s.takePacket 0x0090 p c
  match cmdRow 0x0090 with
  | none => t
  | some r =>
    if !s.intakeOpen p.fn || !s.ringTakes p then t
    else
      match s.verdict r p c with
      | .accepted => t.takeCounter p.block
      | .rejected 0x0302 _ => t.refuseRequest
      | _ => t

end Sys2Proof.Machine
end

