-- ==== Sys2Proof/Machine/Gather.lean ====
section
/-! DEFINITION. GATHER.ROWS, GATHER.STAGED, GATHER.EDGE and GATHER.ROUTE (spec/05 R147, R163; spec/07
R210 to R215; spec/10 R291, R293). -/

namespace Sys2Proof.Machine

open Sys2Proof

/-- A row of element codes with its scales; none is a zero row (R210). -/
abbrev GatherRow := Option (List Nat × List Nat)

/-- Logical row r of a source of LAYOUT 0 or 1 at BASE and STRIDE (R211, R212). -/
def sourceRow (rd : Nat → Byte) (ty cols : Nat) (colMajor : Bool) (base stride scaleBase r : Nat) :
    List Nat × List Nat :=
  let w := elemBits ty
  let code (addr bit : Nat) : Nat :=
    bits (leNat ((List.range (ceilDiv (bit % 8 + w) 8)).map fun i => rd (addr + bit / 8 + i))) (bit % 8) w
  ((List.range cols).map fun j =>
     if colMajor then code (base + j * stride) (r * w) else code (base + r * stride) (j * w),
   if isBlockTy ty then (List.range (ceilDiv cols 32)).map fun b => (rd (scaleBase + 4 * r + b)).toNat else [])

/-- The bytes of row r of a source (R116): first address and count, for each contiguous piece. -/
def sourceSpans (ty cols : Nat) (colMajor : Bool) (base stride scaleBase r : Nat) : List (Nat × Nat) :=
  let w := elemBits ty
  (if colMajor then
     (List.range cols).map fun j => (base + j * stride + r * w / 8, ceilDiv (r * w % 8 + w) 8)
   else [(base + r * stride, ceilDiv (cols * w) 8)]) ++
  (if isBlockTy ty then [(scaleBase + 4 * r, ceilDiv cols 32)] else [])

/-- Whether a list of spans has a byte outside what `ok` allows. -/
def spansOutside (ok : Nat → Bool) (l : List (Nat × Nat)) : Bool :=
  l.any fun x => !ok x.1 || !ok (x.1 + x.2 - 1)

/-- Code of an element of a list of output rows, and the scale of block b of line l of a LAYOUT 0 tile;
a zero row has codes 0 and scales 127 (R210). -/
def rowsCode (rows : List GatherRow) (i j : Nat) : Nat :=
  match rows.getD i none with
  | some r => r.1.getD j 0
  | none => 0
def rowsScale (rows : List GatherRow) (l b : Nat) : Nat :=
  match rows.getD l none with
  | some r => r.2.getD b 127
  | none => 127

/-- STRICT (R147). -/
def strictOf (x : Args) : Bool := x.mod.getLsbD 6

/-- Cells of a list of bytes at an address. -/
def cellsAt (a : Nat) (bytes : List Byte) : List (Nat × Byte) :=
  (List.range bytes.length).map fun i => (a + i, bytes.getD i 0)

/-- Ends a gather-class instruction in a core (R147, R163, R210): with STRICT and a drop it writes
nothing and faults; else D's descriptor becomes `d`, the rows and the extra CORE bytes are written
and the events are counted. The drop of a gather that STRICT faults counts too, and its status record is written: the
model's choice (R197, notes/assumptions/64.md). -/
def State.gatherDone (s : State) (t q : Nat) (w : LumfyWord) (d : TileDesc) (cells extra : List (Nat × Byte))
    (ev : Events) (outside : Bool) : State :=
  if strictOf w.args && decide (0 < ev.idxDrop + ev.capDrop) then
    ((s.finish t q w (Events.withAddr { } outside)).launchFault t q .badParam)
  else
    let ok := s.usable t 0
    let s1 := match w.args.d with
      | .treg n => s.modCore t q fun k => k.setT n d
      | _ => s
    let s2 := s1.store ⟨t, some q, .gm, tregOf w.args.d⟩ (.core t q) (cells.filter fun c => ok c.1)
    let s3 := s2.store ⟨t, some q, .gm, none⟩ (.core t q) (extra.filter fun c => ok c.1)
    s3.finish t q w (ev.withAddr (outside || extra.any fun c => !ok c.1))

/-- The cells of output rows in D (R210). -/
def State.gatherCells (s : State) (t q : Nat) (d : TileDesc) (rows : List GatherRow) : List (Nat × Byte) :=
  tileCells (memGet (s.core t q).mem) d (rowsCode rows) (rowsScale rows)

/-- Whether D and a source of R210 fit: types, columns, and LAYOUT 0 for block types. -/
def gatherNull (d : TileDesc) (ty srcTy cols : Nat) (colMajor : Bool) : Bool :=
  d.nullForCompute || d.tyN != ty || srcTy != ty || d.cols != cols ||
  (isBlockTy ty && (d.colMajor || colMajor))

/-! ### GATHER.ROWS and GATHER.STAGED (R212) -/

/-- The "no node" value of an index type (R181). -/
def noNodeOf (ty v : Nat) : Bool := (ty == 0x1C && v == 2 ^ 32 - 1) || (ty == 0x1D && v == 2 ^ 48 - 1)

/-- Rows for a list of indices: beyond the extent a zero row and a drop, "no node" a zero row (R163, R210). -/
def indexRows (ty extent : Nat) (row : Nat → List Nat × List Nat) (idx : List Nat) : List GatherRow × Nat :=
  (idx.map fun v => if noNodeOf ty v || decide (extent ≤ v) then none else some (row v),
   (idx.filter fun v => !noNodeOf ty v && decide (extent ≤ v)).length)

/-- The index values of an m × 1 tile. -/
def State.indices (s : State) (t q : Nat) (x : Args) (a : TileDesc) : List Nat :=
  let ta := s.readTile t q .gm (tregOf x.a) a
  (List.range a.rows).map fun i => ta.code i 0

/-- One core's GATHER.ROWS. -/
def State.gatherRowsCore (s : State) (t q : Nat) (w : LumfyWord) : State :=
  let k := s.core t q
  let x := w.args
  let a := k.tile x.a
  let b := k.tile x.b
  let d := k.tile x.d
  if a.nullForCompute || b.nullForCompute || !([0x13, 0x15, 0x1C, 0x1D].contains a.tyN) || a.cols != 1 ||
      gatherNull d x.ty b.tyN b.cols b.colMajor || d.rows != a.rows || d.overlaps a || d.overlaps b then
    s.finish t q w evNull
  else
    let rd := guarded (s.usable t 0) (s.view ⟨t, some q, .gm, tregOf x.b⟩ (.core t q))
    let row := sourceRow rd b.tyN b.cols b.colMajor b.base.toNat b.stride.toNat b.scaleBase.toNat
    let idx := s.indices t q x a
    let r := indexRows a.tyN b.rows row idx
    let read := idx.filter fun v => decide (v < b.rows)
    let bad := s.coreOutside t a || s.coreOutside t d || read.any fun v =>
      spansOutside (s.usable t 0)
        (sourceSpans b.tyN b.cols b.colMajor b.base.toNat b.stride.toNat b.scaleBase.toNat v)
    s.gatherDone t q w d (s.gatherCells t q d r.1) [] { idxDrop := r.2 } bad

/-- GATHER.ROWS (R212). -/
def execGatherRows (team : Nat) (x : Args) (s : State) : Result :=
  .next (s.issueTiles team ⟨0x280, x⟩ [x.a, x.b] fun s q => s.gatherRowsCore team q ⟨0x280, x⟩)

/-- What a gather reads in the staging area (R293, R295): what the row engine staged is there once the wait has ended;
what an update wrote since is ordered as R365 says. -/
def State.stagedView (s : State) (t q : Nat) : Memory :=
  let a : Accessor := ⟨t, some q, .gm, none⟩
  let undo (acc : Nat × Memory × List Nat) (e : Unfenced) : Nat × Memory × List Nat :=
    (acc.1 + 1,
     if e.unit == .re then (acc.2.1, e.cells.map Prod.fst ++ acc.2.2) else undoEntry s.free acc.1 a acc.2 e.cells)
  ((s.unfenced.filter fun e => e.place == .cluster t && e.open_ a).foldl undo (0, s.memAt (.cluster t), [])).2.1

/-- The staged rows of a handle as a source (R291): value type, columns, row reader. -/
def State.stagedSource (s : State) (t q : Nat) (k : Table) (y : RowSlot) (i : Nat) : List Nat × List Nat :=
  let base := stageBase + y.page * 65536
  let rs := stagedStride k.vtype (pCols y.record)
  sourceRow (memGet (s.stagedView t q)) k.vtype (pCols y.record) false base rs (base + y.ids.length * rs) i

/-- One core's GATHER.STAGED. -/
def State.gatherStagedCore (s : State) (t q : Nat) (w : LumfyWord) : State :=
  let k := s.core t q
  let x := w.args
  let a := k.tile x.a
  let d := k.tile x.d
  match s.rowOf t (k.value x false x.b) with
  | none => s.finish t q w evAddr
  | some y =>
    match s.table y.ctx (pTable y.record) with
    | none => s.finish t q w evAddr
    | some tb =>
      if a.nullForCompute || !(a.tyN == 0x13 || a.tyN == 0x15) || a.cols != 1 ||
          gatherNull d x.ty tb.vtype (pCols y.record) false || d.rows != a.rows || d.overlaps a then
        s.finish t q w evNull
      else
        let r := indexRows a.tyN y.ids.length (s.stagedSource t q tb y) (s.indices t q x a)
        s.gatherDone t q w d (s.gatherCells t q d r.1) [] { idxDrop := r.2 }
          (s.coreOutside t a || s.coreOutside t d)

/-- Whether a core's gather waits for the staging of a live handle in B (R293). -/
def State.stagingWait (s : State) (t : Nat) (x : Args) : Bool :=
  ((s.team t).masked x.pred).any fun q =>
    match s.rowOf t ((s.core t q).value x false x.b) with
    | some y => y.phase != .staged
    | none => false

/-- GATHER.STAGED (R212, R293). -/
def execGatherStaged (team : Nat) (x : Args) (s : State) : Result :=
  .next (if s.stagingWait team x then s else
    s.issueTiles team ⟨0x281, x⟩ [x.a] fun s q => s.gatherStagedCore team q ⟨0x281, x⟩)

/-! ### Cursors (R213) -/

/-- An edge or route cursor as read. -/
structure Cursor where
  at_ : Nat
  parcel : W64
  next : Nat
  endAt : Nat
  layer : Nat
  field : Nat
  maxRows : Nat
  flags : Nat
  heads : Nat
  offs : Nat
  winLo : Nat
  winRows : Nat
  deriving DecidableEq, Repr

/-- The cursor at a CORE address; none where it breaks R213. -/
def State.cursorAt (s : State) (t q at_ : Nat) (route : Bool) : Option Cursor :=
  let r := (List.range 64).map fun i =>
    guarded (s.usable t 0) (s.view ⟨t, some q, .gm, none⟩ (.core t q)) (at_ + i)
  let c : Cursor :=
    ⟨at_, BitVec.ofNat 64 (fieldAt r 0 8), fieldAt r 8 4, fieldAt r 0xC 4, fieldAt r 0x10 1, fieldAt r 0x11 1,
     if fieldAt r 0x12 1 = 0 then 128 else fieldAt r 0x12 1, fieldAt r 0x13 1, fieldAt r 0x14 4,
     fieldAt r 0x18 4, fieldAt r 0x28 4, fieldAt r 0x2C 4⟩
  if at_ % 32 == 0 && decide (at_ + 31 < s.coreBytes t) && decide (c.maxRows ≤ 128) && decide (c.flags < 4) &&
      (!bitOf c.flags 0 || c.heads % 64 == 0) && (!bitOf c.flags 1 || c.offs % 64 == 0) &&
      (if route then
         c.field == 0 && zeroBytes r 0x20 8 && zeroBytes r 0x30 16 && decide (1 ≤ c.winRows) &&
         decide (c.winRows ≤ 65535)
       else decide (c.field ≤ 1)) then some c
  else none

/-- The record of a layer in a parcel's header, where the cursor's layer exists (R273). -/
def Parcel.layerField (p : Parcel) (layer i : Nat) : Nat := fieldAt p.header (0x20 + 32 * layer + 4 * i) 4

/-- The parcel of a cursor: live, complete, and with its layer (R215, R274). -/
def State.cursorParcel (s : State) (t : Nat) (c : Cursor) : Option Parcel :=
  match s.parcelOf t c.parcel with
  | some p => if p.complete && decide (c.layer < fieldAt p.header 4 1) then some p else none
  | none => none

/-- Entries that a cursor takes (R214). -/
def Cursor.count (c : Cursor) (entries : Nat) : Nat := min (min c.endAt entries - c.next) c.maxRows

/-- SRC and DST of an edge of a layer, and an entry of its route (R270). -/
def edgeField (mem : Memory) (p : Parcel) (layer e : Nat) (dst : Bool) : Nat :=
  memNat mem (sBuf p.record + p.layerField layer 2 + 8 * e + (if dst then 4 else 0)) 4
def routeEntry (mem : Memory) (p : Parcel) (layer e : Nat) : Nat :=
  memNat mem (sBuf p.record + p.layerField layer 5 + 4 * e) 4

/-- Head flags of `n` entries from `first`, by the key that decides them (R214, R215). -/
def headFlags (key : Nat → Nat) (first n : Nat) : List Bool :=
  (List.range n).map fun i => decide (first + i = 0) || key (first + i) != key (first + i - 1)

/-- The rows of the segment offsets: row 0 and every head (R214). -/
def segRows (heads : List Bool) : List Nat :=
  (List.range heads.length).filter fun i => i == 0 || heads.getD i false

/-- The bytes that a cursor's outputs change (R213, R214): HEADS, OFFS, NEXT, ROWS_OUT, SEGS_OUT. Bit r of HEADS lies in
byte ⌊r ÷ 8⌋ from its address, as elements of one row follow one another: the spec gives the tile no layout and no stride
(notes/assumptions/61.md). -/
def cursorCells (old : Nat → Byte) (c : Cursor) (heads : List Bool) : List (Nat × Byte) :=
  let n := heads.length
  let nb := ceilDiv n 8
  let keep := leNat ((List.range nb).map fun i => old (c.heads + i)) / 2 ^ n * 2 ^ n
  let bitsOf := (List.range n).foldl (fun v i => if heads.getD i false then v + 2 ^ i else v) keep
  (if bitOf c.flags 0 && decide (0 < n) then cellsAt c.heads (leBytes nb bitsOf) else []) ++
  (if bitOf c.flags 1 then cellsAt c.offs ((segRows heads ++ [n]).flatMap fun r => leBytes 4 r) else []) ++
  (if 0 < n then cellsAt (c.at_ + 8) (leBytes 4 (c.next + n)) else []) ++
  cellsAt (c.at_ + 0x1C) (leBytes 2 n ++ leBytes 2 (segRows heads).length)

/-- D with its row count set; null where no row is produced (R210). -/
def withRows (d : TileDesc) (n : Nat) : TileDesc :=
  if n = 0 then TileDesc.null else { d with rowsM1 := BitVec.ofNat 8 (n - 1) }

/-- Ends a cursor gather: D, its rows, the heads and offsets, the cursor's outputs. -/
def State.cursorDone (s : State) (t q : Nat) (w : LumfyWord) (c : Cursor) (d : TileDesc) (rows : List GatherRow)
    (heads : List Bool) (drops : Nat) (outside : Bool) : State :=
  let d1 := withRows d rows.length
  let old := memGet (s.core t q).mem
  s.gatherDone t q w d1 (if rows.isEmpty then [] else s.gatherCells t q d1 rows) (cursorCells old c heads)
    { idxDrop := drops } (outside || (!rows.isEmpty && s.coreOutside t d1))

/-- One core's GATHER.EDGE. -/
def State.gatherEdgeCore (s : State) (t q : Nat) (w : LumfyWord) : State :=
  let k := s.core t q
  let x := w.args
  let d := k.tile x.d
  match s.cursorAt t q (k.value x false x.a).toNat false, s.rowOf t (k.value x false x.b) with
  | some c, some y =>
    (match s.cursorParcel t c, s.table y.ctx (pTable y.record) with
     | some p, some tb =>
       if gatherNull d x.ty tb.vtype (pCols y.record) false then s.finish t q w evNull
       else
         let mem := s.view ⟨t, some q, .gm, none⟩ .stack
         let n := c.count (p.layerField c.layer 1)
         let idx := (List.range n).map fun i => edgeField mem p c.layer (c.next + i) (c.field == 1)
         let first := pFirst y.record
         let good (v : Nat) : Bool := decide (first ≤ v) && decide (v - first < y.ids.length)
         let rows : List GatherRow :=
           idx.map fun v => if good v then some (s.stagedSource t q tb y (v - first)) else none
         let heads := headFlags (fun e => edgeField mem p c.layer e true) c.next n
         s.cursorDone t q w c d rows heads (idx.filter fun v => !good v).length false
     | _, _ => s.finish t q w evAddr)
  | _, _ => s.finish t q w evAddr

/-- GATHER.EDGE (R214, R293). -/
def execGatherEdge (team : Nat) (x : Args) (s : State) : Result :=
  .next (if s.stagingWait team x then s else
    s.issueTiles team ⟨0x282, x⟩ [] fun s q => s.gatherEdgeCore team q ⟨0x282, x⟩)

/-- The extents of a window (R167, R211). -/
def windowExtents (b : TileDesc) (rows : Nat) : List (Nat × Nat) :=
  let w := elemBits b.tyN
  let lines := if b.colMajor then b.cols else rows
  let len := if b.colMajor then rows else b.cols
  (b.base.toNat, (lines - 1) * b.stride.toNat + ceilDiv (len * w) 8) ::
    (if isBlockTy b.tyN then [(b.scaleBase.toNat, 4 * (lines - 1) + ceilDiv len 32)] else [])

/-- Whether D meets a window. -/
def meetsWindow (d b : TileDesc) (rows : Nat) : Bool :=
  d.extents.any fun a => (windowExtents b rows).any fun w => rangesMeet a w

/-- One core's GATHER.ROUTE. -/
def State.gatherRouteCore (s : State) (t q : Nat) (w : LumfyWord) : State :=
  let k := s.core t q
  let x := w.args
  let b := k.tile x.b
  let d := k.tile x.d
  match s.cursorAt t q (k.value x false x.a).toNat true with
  | none => s.finish t q w evAddr
  | some c =>
    match s.cursorParcel t c with
    | none => s.finish t q w evAddr
    | some p =>
      let n := c.count (p.layerField c.layer 1)
      if b.nullForCompute || gatherNull d x.ty b.tyN b.cols b.colMajor ||
          (decide (0 < n) && meetsWindow (withRows d n) b c.winRows) then s.finish t q w evNull
      else
        let mem := s.view ⟨t, some q, .gm, none⟩ .stack
        let rd := guarded (s.usable t 0) (s.view ⟨t, some q, .gm, tregOf x.b⟩ (.core t q))
        let pos := (List.range n).map fun i => routeEntry mem p c.layer (c.next + i)
        let good (v : Nat) : Bool := decide (c.winLo ≤ v) && decide (v - c.winLo < c.winRows)
        let at_ (v : Nat) : List Nat × List Nat :=
          sourceRow rd b.tyN b.cols b.colMajor b.base.toNat b.stride.toNat b.scaleBase.toNat (v - c.winLo)
        let rows : List GatherRow := pos.map fun v => if good v then some (at_ v) else none
        let heads := headFlags (fun e => edgeField mem p c.layer (routeEntry mem p c.layer e) false) c.next n
        let outside := (pos.filter good).any fun v => spansOutside (s.usable t 0)
          (sourceSpans b.tyN b.cols b.colMajor b.base.toNat b.stride.toNat b.scaleBase.toNat (v - c.winLo))
        s.cursorDone t q w c d rows heads (pos.filter fun v => !good v).length outside

/-- GATHER.ROUTE (R215). -/
def execGatherRoute (team : Nat) (x : Args) (s : State) : Result :=
  .next (s.issueTiles team ⟨0x283, x⟩ [x.b] fun s q => s.gatherRouteCore team q ⟨0x283, x⟩)

end Sys2Proof.Machine
end

