-- ==== Sys2Proof/Machine/Masks.lean ====
section
/-! DEFINITION. Block-sparse masks: MASK.BIND and MERGE.BSR (spec/07 R217 to R227). -/

namespace Sys2Proof.Machine

open Sys2Proof

/-! ### The description (R217, R218) -/

def mSlot (r : List Byte) : Nat := fieldAt r 0 1
def mBlock (r : List Byte) : Nat := fieldAt r 1 1
def mVtype (r : List Byte) : Nat := fieldAt r 2 1
def mGeneration (r : List Byte) : W32 := BitVec.ofNat 32 (fieldAt r 4 4)
def mBrows (r : List Byte) : Nat := fieldAt r 8 4
def mBcols (r : List Byte) : Nat := fieldAt r 0xC 4
def mBlocks (r : List Byte) : Nat := fieldAt r 0x10 4
def mCap (r : List Byte) : Nat := fieldAt r 0x14 2
def mSplit (r : List Byte) : Nat := if fieldAt r 0x16 2 = 0 then 64 else fieldAt r 0x16 2
def mRowptr (r : List Byte) : Nat := fieldAt r 0x18 8
def mColidx (r : List Byte) : Nat := fieldAt r 0x20 8
def mValues (r : List Byte) : Nat := fieldAt r 0x28 8
def mArea (r : List Byte) : Nat := fieldAt r 0x30 4
def mAreaSize (r : List Byte) : Nat := fieldAt r 0x34 4

/-- The value types of R217. -/
def maskType (ty : Nat) : Bool := decide (ty ≤ 0x0A) || ty == 0x10 || ty == 0x11 || ty == 0x14

/-- Whether the fields are in range and the reserved field is zero (R217). -/
def maskFieldsOk (r : List Byte) (clusterBytes : Nat) : Bool :=
  decide (1 ≤ mSlot r) && decide (mSlot r ≤ 64) && [8, 16, 32].contains (mBlock r) && maskType (mVtype r) &&
  decide (1 ≤ mBrows r) && decide (mBrows r ≤ 1048576) && decide (1 ≤ mBcols r) && decide (mBcols r ≤ 1048576) &&
  decide (mBlocks r ≤ 67108864) && decide (1 ≤ mCap r) && decide (mCap r ≤ 4096) &&
  decide (16 ≤ mSplit r) && decide (mSplit r ≤ 4096) && mSplit r % 16 == 0 &&
  mRowptr r % 64 == 0 && mColidx r % 64 == 0 && mValues r % 64 == 0 && mArea r % 64 == 0 &&
  decide (mArea r + mAreaSize r ≤ clusterBytes) && zeroBytes r 0x38 8

/-- The entries of ROWPTR, and whether they meet R219's status 3. -/
def rowPtrs (mem : Memory) (r : List Byte) : List Nat :=
  (List.range (mBrows r + 1)).map fun i => memNat mem (mRowptr r + 4 * i) 4
def rowPtrsOk (ps : List Nat) (blocks : Nat) : Bool :=
  ps.head? == some 0 && ps.getLast? == some blocks && ((ps.zip (ps.drop 1)).all fun x => decide (x.1 ≤ x.2))

/-- The fate of the entries of one block-row (R218): columns kept, IDX_DROPs, CAP_DROPs. -/
def keepRow (bcols cap : Nat) (cols : List Nat) : List Nat × Nat × Nat :=
  cols.foldl (fun (acc : List Nat × Nat × Nat) c =>
    if bcols ≤ c ∨ acc.1.contains c then (acc.1, acc.2.1 + 1, acc.2.2)
    else if cap ≤ acc.1.length then (acc.1, acc.2.1, acc.2.2 + 1)
    else (acc.1 ++ [c], acc.2.1, acc.2.2)) ([], 0, 0)

/-- The kept blocks and the drops of a mask (R218). -/
def keepBlocks (mem : Memory) (r : List Byte) : List (Nat × Nat) × Nat × Nat :=
  let ps := rowPtrs mem r
  (List.range (mBrows r)).foldl (fun (acc : List (Nat × Nat) × Nat × Nat) i =>
    let lo := ps.getD i 0
    let k := keepRow (mBcols r) (mCap r)
      ((List.range (ps.getD (i + 1) 0 - lo)).map fun e => memNat mem (mColidx r + 4 * (lo + e)) 4)
    (acc.1 ++ k.1.map (fun c => (i, c)), acc.2.1 + k.2.1, acc.2.2 + k.2.2)) ([], 0, 0)

/-- The required BIND_SIZE (R220). -/
def areaNeeded (r : List Byte) : Nat :=
  let pf := ceilDiv (mBrows r * mBlock r) 32
  let pt := ceilDiv (mBcols r * mBlock r) 32
  a64 (256 + 16 * (pf + pt + 2 * ceilDiv (mBlocks r) (mSplit r)) + 4 * (pf + pt + 2) + 32 * mBlocks r)

/-- CHUNK_BYTES and the row stride RS of a value chunk (R222). -/
def chunkStride (ty : Nat) : Nat := a64 (ceilDiv (128 * elemBits ty) 8)
def chunkBytes (ty : Nat) : Nat := 32 * chunkStride ty + (if isBlockTy ty then 128 else 0)

/-! ### Panels, pieces and chunks (R221, R223) -/

/-- A chunk: its panel, its global piece, its number in its direction, its union entries, and whether
it is the first or the last of its piece. -/
structure Chunk where
  panel : Nat
  piece : Nat
  number : Nat
  union : List Nat
  first : Bool
  last : Bool
  deriving DecidableEq, Repr

/-- The kept blocks of a direction as (row, column) of W or of its transpose. -/
def MaskSlot.blocks (m : MaskSlot) (dir : Bool) : List (Nat × Nat) :=
  if dir then m.kept.map fun x => (x.2, x.1) else m.kept

/-- The panels of a direction, and the union of one (R221). -/
def MaskSlot.panels (m : MaskSlot) (dir : Bool) : Nat :=
  ceilDiv ((if dir then m.bcols else m.brows) * m.block) 32
def MaskSlot.union (m : MaskSlot) (dir : Bool) (p : Nat) : List Nat :=
  sortOn id (((m.blocks dir).filterMap fun x => if x.1 / (32 / m.block) = p then some x.2 else none).eraseDups)

/-- Cuts a list into parts of n elements. -/
def cutBy {α : Type} (n : Nat) (l : List α) : List (List α) :=
  (List.range (ceilDiv l.length n)).map fun i => (l.drop (n * i)).take n

/-- The pieces of a direction in panel order, each with its panel (R223). -/
def MaskSlot.pieces (m : MaskSlot) (dir : Bool) : List (Nat × List Nat) :=
  (List.range (m.panels dir)).flatMap fun p => (cutBy m.splitLen (m.union dir p)).map fun u => (p, u)

/-- Union entries in a full chunk (R221). -/
def MaskSlot.chunkLen (m : MaskSlot) : Nat := 128 / m.block

/-- Chunks of a piece. -/
def MaskSlot.chunksIn (m : MaskSlot) (u : List Nat) : Nat := ceilDiv u.length m.chunkLen

/-- The core of every piece, by fewest chunks so far, then lowest index (R223). -/
def assignCores (sizes : List Nat) : List Nat :=
  (sizes.foldl (fun (acc : List Nat × List Nat) n =>
    let low := acc.2.foldl min (acc.2.headD 0)
    let q := (acc.2.findIdx? (· == low)).getD 0
    (acc.1 ++ [q], acc.2.modify q (· + n))) ([], List.replicate 16 0)).1

/-- The pieces of a core in piece order, as global piece numbers (R223, R224). -/
def MaskSlot.piecesOf (m : MaskSlot) (dir : Bool) (q : Nat) : List Nat :=
  let cores := assignCores ((m.pieces dir).map fun x => m.chunksIn x.2)
  (List.range cores.length).filter fun i => cores.getD i 16 == q

/-- The chunk at a position of a piece. -/
def MaskSlot.chunkAt (m : MaskSlot) (dir : Bool) (piece chunk : Nat) : Option Chunk :=
  let ps := m.pieces dir
  match ps[piece]? with
  | none => none
  | some x =>
    if chunk < m.chunksIn x.2 then
      let before := ((ps.take piece).map fun y => m.chunksIn y.2).foldl (· + ·) 0
      some ⟨x.1, piece, before + chunk, (x.2.drop (m.chunkLen * chunk)).take m.chunkLen, chunk == 0,
        chunk + 1 == m.chunksIn x.2⟩
    else none

/-- Chunks of a direction, and chunks of each core. -/
def MaskSlot.chunkCount (m : MaskSlot) (dir : Bool) : Nat :=
  ((m.pieces dir).map fun x => m.chunksIn x.2).foldl (· + ·) 0
def MaskSlot.coreChunks (m : MaskSlot) (dir : Bool) (q : Nat) : Nat :=
  ((m.piecesOf dir q).map fun i => m.chunksIn (((m.pieces dir).getD i (0, [])).2)).foldl (· + ·) 0

/-! ### MASK.BIND (R219, R220) -/

/-- The first-piece index of every panel and the final piece count (R220). -/
def MaskSlot.pieceOffs (m : MaskSlot) (dir : Bool) : List Nat :=
  (List.range (m.panels dir + 1)).map fun p => ((m.pieces dir).filter fun x => decide (x.1 < p)).length

/-- A byte that the spec does not state (notes/assumptions/7.md). -/
def freeByte (n i : Nat) : Byte := (Config.freeWord (n * 2 ^ 32 + i)).setWidth 8

/-- The bind area (R220): the header, the piece offsets at the place the model chose
(notes/assumptions/22.md), and free bytes where the records of the engine lie. -/
def MaskSlot.area (m : MaskSlot) (free size : Nat) : List Byte :=
  let t (n : Nat) : Nat := if m.transposed then n else 0
  let offF := 256
  let offT := 256 + 4 * (m.panels false + 1)
  let header := [m.panels false, t (m.panels true), (m.pieces false).length, t (m.pieces true).length,
    m.chunkCount false, t (m.chunkCount true), m.kept.length, m.capDropped, m.idxDropped, chunkBytes m.vtype,
    offF, t offT].flatMap fun n => leBytes 4 n
  let cores (dir : Bool) : List Byte := (List.range 16).flatMap fun q => leBytes 4 (m.coreChunks dir q)
  let head := header ++ cores false ++ (if m.transposed then cores true else leBytes 64 0) ++ leBytes 80 0
  let offs := ((m.pieceOffs false) ++ (if m.transposed then m.pieceOffs true else [])).flatMap fun n => leBytes 4 n
  let known := head ++ offs
  known ++ (List.range (size - known.length)).map (freeByte free)

/-- Whether the internal records of the bind area, which follow its header, stand as MASK.BIND wrote
them (R220). -/
def MaskSlot.recordsIntact (m : MaskSlot) (cluster : Memory) : Bool :=
  let l := (m.area m.areaFill m.areaSize).drop 256
  (List.range l.length).all fun i => memGet cluster (m.bindArea + 256 + i) == l.getD i 0

/-- The chunk of a record that was changed and passes the engine's check (R220): any the engine could
describe, free within the mask's dimensions. -/
def MaskSlot.strangeChunk (m : MaskSlot) (dir : Bool) (n : Nat) : Chunk :=
  let word (i : Nat) : Nat := (Config.freeWord (n * 2 ^ 32 + i)).toNat
  let across := if dir then m.brows else m.bcols
  ⟨word 0 % max 1 (m.panels dir), word 1 % 2 ^ 32, word 2 % 2 ^ 32,
   (List.range (1 + word 3 % m.chunkLen)).map fun i => word (6 + i) % across, bitOf (word 4) 0, bitOf (word 5) 0⟩

/-- A mask slot built from a description. -/
def maskOfRecord (mem : Memory) (at_ : Nat) (r : List Byte) (transposed : Bool) (fill : Nat) : MaskSlot :=
  let k := keepBlocks mem r
  { addr := at_, generation := mGeneration r, block := mBlock r, vtype := mVtype r, brows := mBrows r
    bcols := mBcols r, splitLen := mSplit r, values := mValues r, bindArea := mArea r, transposed := transposed
    kept := k.1, capDropped := k.2.2, idxDropped := k.2.1, areaSize := mAreaSize r, areaFill := fill }

/-- STATUS of a binding (R219): the checks in the order that notes/assumptions/22.md states. -/
def State.maskStatus (s : State) (t : Nat) (x : Ctx) (mem : Memory) (r : List Byte) (m : MaskSlot) : Nat :=
  if !maskFieldsOk r (s.clusterBytes t) then 1
  else if (isBlockTy (mVtype r) && mBlock r != 32) || (mVtype r == 0x09 && s.part9620) then 2
  else if mAreaSize r < areaNeeded r then 4
  else if !s.rangeInRegion x (mRowptr r) (4 * (mBrows r + 1)) || !s.rangeInRegion x (mColidx r) (4 * mBlocks r) then 5
  else if !rowPtrsOk (rowPtrs mem r) (mBlocks r) then 3
  else if !s.rangeInRegion x (mValues r) (m.chunkCount false * chunkBytes m.vtype) then 5
  else 0

/-- One core's MASK.BIND. -/
def State.maskBindCore (s : State) (t q : Nat) (w : LumfyWord) : State :=
  let x := w.args
  let a := ((s.core t q).value x false x.a).toNat
  let fail (s : State) : State := (s.modCore t q fun k => k.putD x 0).finish t q w evAddr
  match s.kernelCtx t with
  | none => s
  | some cx =>
    if a % 64 ≠ 0 ∨ s.clusterBytes t < a + 64 then fail s
    else
      let acc : Accessor := ⟨t, some q, .gm, none⟩
      let r := memRead (s.view acc (.cluster t)) a 64
      let slot := mSlot r
      let done (s : State) (e : Events) : State :=
        (s.modCore t q fun k => k.putD x (BitVec.ofNat 64 slot)).finish t q w e
      let held := match mapGet (s.team t).masks slot with
        | some m => m.addr == a && m.generation == mGeneration r
        | none => false
      if held then done s { }
      else
        let mem := s.view acc .stack
        let m := maskOfRecord mem a r (x.imm.getLsbD 0) s.free
        let status := s.maskStatus t cx mem r m
        let s1 := s.store acc (.cluster t) (cellsAt (a + 3) (leBytes 1 status))
        if status = 0 then
          let s2 := s1.modTeam t fun k => { k with masks := mapPut k.masks slot m }
          done (s2.bumpFree.store acc (.cluster t) (cellsAt m.bindArea (m.area m.areaFill m.areaSize)))
            { idxDrop := m.idxDropped, capDrop := m.capDropped }
        else fail (s1.modTeam t fun k => { k with masks := mapDrop k.masks slot })

/-- MASK.BIND (R219). -/
def execMaskBind (team : Nat) (x : Args) (s : State) : Result :=
  .next (s.issue team ⟨0x289, x⟩ fun s q => s.maskBindCore team q ⟨0x289, x⟩)

/-! ### MERGE.BSR (R224 to R227) -/

/-- A block cursor as read. -/
structure BlockCursor where
  at_ : Nat
  part : Nat
  dir : Bool
  rep : Nat
  done : Nat
  pos : Nat
  chunk : Nat
  winLo : Nat
  winRows : Nat
  deriving DecidableEq, Repr

/-- The block cursor at a CORE address; none where it breaks R224. -/
def State.blockCursorAt (s : State) (t q at_ : Nat) : Option BlockCursor :=
  let r := (List.range 32).map fun i =>
    guarded (s.usable t 0) (s.view ⟨t, some q, .gm, none⟩ (.core t q)) (at_ + i)
  if at_ % 32 == 0 && decide (at_ + 31 < s.coreBytes t) && decide (fieldAt r 0 1 ≤ 2) &&
      decide (fieldAt r 1 1 ≤ 1) && zeroBytes r 0x1B 1 && decide (1 ≤ fieldAt r 0xC 4) &&
      decide (fieldAt r 0xC 4 ≤ 65535) then
    some ⟨at_, fieldAt r 0 1, fieldAt r 1 1 == 1, if fieldAt r 2 1 = 0 then 1 else fieldAt r 2 1, fieldAt r 3 1,
      fieldAt r 4 2, fieldAt r 6 2, fieldAt r 8 4, fieldAt r 0xC 4⟩
  else none

/-- The chunk that a cursor stands at, and whether it is the core's last; none past the core's last
chunk, and at a CHUNK that the piece at POS does not have (notes/assumptions/22.md). -/
def MaskSlot.cursorChunk (m : MaskSlot) (c : BlockCursor) (q : Nat) : Option (Chunk × Bool) :=
  let mine := m.piecesOf c.dir q
  match mine[c.pos]? with
  | none => none
  | some piece =>
    match m.chunkAt c.dir piece c.chunk with
    | none => none
    | some k => some (k, k.last && c.pos + 1 == mine.length)

/-- The cursor's outputs (R224, R225): PIECE, PANEL, KCOLS, FLAGS, VAL_CHUNK, and for a DENSE
production DONE and the move. -/
def blockCursorCells (c : BlockCursor) (k : Chunk) (coreLast : Bool) (kcols : Nat) : List (Nat × Byte) :=
  let outs := cellsAt (c.at_ + 0x10) (leBytes 4 k.piece ++ leBytes 4 k.panel ++ leBytes 2 kcols ++
    leBytes 1 (natOf k.first + 2 * natOf k.last + 4 * natOf coreLast)) ++ cellsAt (c.at_ + 0x1C) (leBytes 4 k.number)
  if c.part ≠ 0 then outs
  else if c.done + 1 < c.rep then outs ++ cellsAt (c.at_ + 3) (leBytes 1 (c.done + 1))
  else
    outs ++ cellsAt (c.at_ + 3) (leBytes 1 0) ++
      (if k.last then cellsAt (c.at_ + 4) (leBytes 2 (c.pos + 1) ++ leBytes 2 0)
       else cellsAt (c.at_ + 6) (leBytes 2 (c.chunk + 1)))

/-- The block of W that element (r, col) of a chunk's tile lies in, and the element's place in it:
block-row, block-column, row, column (R221, R225). -/
def MaskSlot.blockOf (m : MaskSlot) (dir : Bool) (k : Chunk) (r col : Nat) : Nat × Nat × Nat × Nat :=
  let b := m.block
  let own := k.panel * (32 / b) + r / b
  let u := k.union.getD (col / b) 0
  if dir then (u, own, col % b, r % b) else (own, u, r % b, col % b)

/-- Where a present block lies in the value array (R222): the chunk's address, the row and the column
of element (r, c) of the block. -/
def MaskSlot.valuePlace (m : MaskSlot) (br bc r c : Nat) : Nat × Nat × Nat :=
  let b := m.block
  let panel := br / (32 / b)
  let un := m.union false panel
  let at_ := (un.findIdx? (· == bc)).getD 0
  let before := ((m.pieces false).filter fun x => decide (x.1 < panel)).foldl (fun n x => n + m.chunksIn x.2) 0
  (m.values + (before + at_ / m.chunkLen) * chunkBytes m.vtype, br % (32 / b) * b + r,
   at_ % m.chunkLen * b + c)

/-- The code and scale of element (r, col) of a VALUES tile (R225). A slot that is not present has the
scale of a zero row, 127, where the group holds no present slot (notes/assumptions/22.md). -/
def MaskSlot.valueAt (m : MaskSlot) (mem : Memory) (dir : Bool) (k : Chunk) (r col : Nat) : Nat × Nat :=
  let w := elemBits m.vtype
  let x := m.blockOf dir k r col
  if m.kept.contains (x.1, x.2.1) then
    let p := m.valuePlace x.1 x.2.1 x.2.2.1 x.2.2.2
    let at_ := p.1 + p.2.1 * chunkStride m.vtype + p.2.2 * w / 8
    let bit := p.2.2 * w % 8
    (bits (memNat mem at_ (ceilDiv (bit + w) 8)) bit w,
     if isBlockTy m.vtype then (memGet mem (p.1 + 32 * chunkStride m.vtype + 4 * p.2.1 + p.2.2 / 32)).toNat else 127)
  else (0, 127)

/-- Window row of row i of a DENSE tile; none outside the window (R225). -/
def MaskSlot.windowRow (m : MaskSlot) (c : BlockCursor) (k : Chunk) (i : Nat) : Option Nat :=
  let v := k.union.getD (i / m.block) 0 * m.block + i % m.block
  if c.winLo ≤ v ∧ v - c.winLo < c.winRows then some (v - c.winLo) else none

/-- The scale of a 32-row group of a column of a LAYOUT 1 window (R226), from the window rows of the
group: 127 for a group of zero rows, as R210 has it. Where the window's origin cuts the groups apart the spec states
none: it is free (notes/assumptions/22.md). -/
def windowScale (rd : Nat → Byte) (free : Nat) (b : TileDesc) (col : Nat) (rows : List (Option Nat)) : Nat :=
  if rows.all (·.isNone) then 127
  else
    match rows.head? with
    | some (some r) =>
      if r % 32 = 0 then (rd (b.scaleBase.toNat + 4 * col + r / 32)).toNat else (freeByte free (col * 4096 + r)).toNat
    | _ => (freeByte free (col * 4096 + 4095)).toNat

/-- The DENSE tile: code and scale functions, the drops, and whether a window row read lies outside. -/
def State.denseTile (s : State) (t q : Nat) (x : Args) (m : MaskSlot) (c : BlockCursor) (k : Chunk) (b : TileDesc) :
    (Nat → Nat → Nat) × (Nat → Nat → Nat) × Nat × Bool :=
  let rd := guarded (s.usable t 0) (s.view ⟨t, some q, .gm, tregOf x.b⟩ (.core t q))
  let n := k.union.length * m.block
  let rows := (List.range n).map fun i =>
    (m.windowRow c k i).map fun r =>
      sourceRow rd b.tyN b.cols b.colMajor b.base.toNat b.stride.toNat b.scaleBase.toNat r
  let hit := (List.range n).filterMap fun i => m.windowRow c k i
  (rowsCode rows,
   fun l g => windowScale rd s.free b l ((List.range 32).map fun i => m.windowRow c k (32 * g + i)),
   n - hit.length,
   hit.any fun r => spansOutside (s.usable t 0)
     (sourceSpans b.tyN b.cols b.colMajor b.base.toNat b.stride.toNat b.scaleBase.toNat r))

/-- Whether the tiles of a MERGE.BSR are null (R118, R210, R225, R226). DENSE asks LAYOUT 1 of the window and
of D where VTYPE is a block type (R226), and where TYPE is one; VALUES of a block type asks LAYOUT 0 of D
(notes/assumptions/22.md). -/
def mergeNull (x : Args) (m : MaskSlot) (c : BlockCursor) (kcols : Nat) (d b : TileDesc) : Bool :=
  b.nullForCompute || b.tyN != x.ty || d.nullForCompute ||
  (if c.part = 0 then
     d.tyN != x.ty || d.cols != b.cols ||
     ((isBlockTy x.ty || isBlockTy m.vtype) && (!d.colMajor || !b.colMajor || m.block != 32)) ||
     meetsWindow { d with rowsM1 := BitVec.ofNat 8 (kcols - 1) } b c.winRows
   else if c.part = 1 then
     d.tyN != x.ty || x.ty != m.vtype || d.cols != kcols || (isBlockTy x.ty && (d.colMajor || c.dir))
   else d.tyN != 0x1A || d.cols != kcols)

/-- The chunk of a MERGE.BSR: that of the cursor, or, where software changed the internal records
(R220), freely the same, none because the check fails, or that of a record that passes. -/
inductive ChunkRead where
  | chunk (k : Chunk) (coreLast : Bool)
  | pastLast
  | badRecord
  deriving DecidableEq, Repr

/-- What the engine reads at a cursor (R220, R224). -/
def State.readChunk (s : State) (t q : Nat) (m : MaskSlot) (c : BlockCursor) : ChunkRead :=
  let here : ChunkRead := match m.cursorChunk c q with
    | some (k, coreLast) => .chunk k coreLast
    | none => .pastLast
  if m.recordsIntact (s.team t).cluster || Config.choice s.free 0 then here
  else if Config.choice s.free 1 then .badRecord
  else .chunk (m.strangeChunk c.dir s.free) (Config.choice s.free 2)

/-- One core's MERGE.BSR. -/
def State.mergeCore (s : State) (t q : Nat) (w : LumfyWord) : State :=
  let x := w.args
  let k0 := s.core t q
  let d := k0.tile x.d
  let b := k0.tile x.b
  match s.blockCursorAt t q (k0.value x false x.a).toNat, mapGet (s.team t).masks (x.imm.toNat % 256) with
  | some c, some m =>
    if c.dir && !m.transposed then s.finish t q w evAddr
    else
      match s.readChunk t q m c with
      | .badRecord => s.bumpFree.finish t q w evAddr
      | .pastLast =>
        if d.nullForCompute || b.nullForCompute || b.tyN != x.ty then s.finish t q w evNull
        else s.gatherDone t q w TileDesc.null [] (cellsAt (c.at_ + 0x10) (leBytes 4 0xFFFFFFFF)) { } false
      | .chunk k coreLast =>
        let s := if m.recordsIntact (s.team t).cluster then s else s.bumpFree
        let kcols := k.union.length * m.block
        if mergeNull x m c kcols d b then s.finish t q w evNull
        else
          let mem := s.view ⟨t, some q, .gm, none⟩ .stack
          let old := memGet (s.core t q).mem
          let outs := blockCursorCells c k coreLast kcols
          if c.part = 0 then
            let d1 := withRows d kcols
            let r := s.denseTile t q x m c k b
            let pass := !c.dir && k.piece == 0 && k.first && c.done == 0
            s.gatherDone t q w d1 (tileCells old d1 r.1 r.2.1) outs
              { idxDrop := r.2.2.1 + (if pass then m.idxDropped else 0), capDrop := if pass then m.capDropped else 0 }
              (r.2.2.2 || s.coreOutside t d1)
          else
            let d1 := withRows d 32
            let code (r col : Nat) : Nat :=
              if c.part = 1 then (m.valueAt mem c.dir k r col).1
              else natOf (m.kept.contains ((m.blockOf c.dir k r col).1, (m.blockOf c.dir k r col).2.1))
            s.gatherDone t q w d1 (tileCells old d1 code fun l g => (m.valueAt mem c.dir k l (32 * g)).2) outs { }
              (s.coreOutside t d1)
  | _, _ => s.finish t q w evAddr

/-- MERGE.BSR (R225). -/
def execMergeBsr (team : Nat) (x : Args) (s : State) : Result :=
  .next (s.issueTiles team ⟨0x288, x⟩ [x.b] fun s q => s.mergeCore team q ⟨0x288, x⟩)

end Sys2Proof.Machine
end

