-- ==== Sys2Proof/Machine/Load.lean ====
section
/-! DEFINITION. What GRAPH_LOAD, TABLE_CREATE and TABLE_REPLACE do when they execute (spec/09 R250 to R254,
spec/10 R285, R287, R306; spec/03 R98). -/

namespace Sys2Proof.Machine

open Sys2Proof

/-- The 64 KiB blocks, aligned on STACK addresses, that a range of bytes touches (R98). -/
def blocksOf (at_ n : Nat) : List Nat :=
  if n = 0 then [] else (List.range ((at_ + n - 1) / 65536 - at_ / 65536 + 1)).map fun i => at_ / 65536 + i

/-- Writes bytes at a STACK address from outside the cores. -/
def State.busPut (s : State) (a : Nat) (b : List Byte) : State :=
  s.busWrite ((List.range b.length).map fun i => (a + i, b.getD i 0))

/-! ### GRAPH_LOAD (R250 to R254) -/

/-- What a GRAPH_LOAD names: its image with the fields of the command. -/
structure GraphArgs where
  number : Nat
  idType : Nat
  opts   : Nat
  image  : Nat
  length : Nat
  nodes  : Nat
  edges  : Nat
  deriving DecidableEq, Repr

/-- The parameters of a GRAPH_LOAD (R89). -/
def graphArgs (p : Packet) : GraphArgs :=
  ⟨Packet.field p 0 4, Packet.field p 4 1, Packet.field p 5 1, Packet.field p 8 8, Packet.field p 0x10 8,
   Packet.field p 0x18 8, Packet.field p 0x20 8⟩

def GraphArgs.width (g : GraphArgs) : Nat := if g.idType = 0x1D then 6 else 4
def GraphArgs.weighted (g : GraphArgs) : Bool := bitOf g.opts 0
def GraphArgs.timed (g : GraphArgs) : Bool := bitOf g.opts 1

/-- The arrays in the order of R251: header field, bytes, whether OPTIONS has it. -/
def GraphArgs.arrays (g : GraphArgs) : List (Nat × Nat × Bool) :=
  [(0x18, 8 * (g.nodes + 1), true), (0x20, g.width * g.edges, true), (0x28, 4 * g.edges, g.weighted),
   (0x30, 8 * g.edges, g.weighted), (0x38, 8 * g.edges, g.timed)]

/-- A refusal of an image: its reason and FAULT_AT (R253). -/
abbrev GraphFault := Nat × Nat

/-- The first array whose place breaks R253, given the arrays before it. -/
def placeFault (m : Memory) (g : GraphArgs) : List (Nat × Nat × Bool) → List (Nat × Nat) → Option GraphFault
  | [], _ => none
  | (f, n, need) :: rest, before =>
    let off := memNat m (g.image + f) 8
    if need then
      if off % 64 ≠ 0 ∨ off < 128 ∨ g.length < off + n ∨
          (before.any fun r => decide (0 < n) && decide (0 < r.2) && rangesMeet r (off, n)) then some (3, f)
      else placeFault m g rest ((off, n) :: before)
    else if off ≠ 0 then some (3, f)
    else placeFault m g rest before

/-- The registered form of an image whose header has passed. -/
def graphOf (m : Memory) (g : GraphArgs) : Graph :=
  let at_ (f : Nat) : Nat := memNat m (g.image + f) 8
  ⟨g.image, g.idType == 0x1D, g.opts, g.nodes, g.edges, at_ 0x18, at_ 0x20, at_ 0x28, at_ 0x30, at_ 0x38⟩

/-- The first failing field of the header (R253 reasons 1, 2 and 4). -/
def graphHeaderFault (m : Memory) (g : GraphArgs) : Option GraphFault :=
  let f (off n : Nat) : Nat := memNat m (g.image + off) n
  if f 0 4 ≠ 0x48505247 then some (1, 0)
  else if f 4 2 ≠ 1 then some (1, 4)
  else if f 6 1 ≠ g.idType then some (2, 6)
  else if f 7 1 ≠ g.opts then some (2, 7)
  else if f 8 8 ≠ g.nodes then some (2, 8)
  else if f 0x10 8 ≠ g.edges then some (2, 0x10)
  else
    match placeFault m g g.arrays [] with
    | some x => some x
    | none =>
      if f 0x43 1 ≠ 0 then some (4, 0x43)
      else if f 0x54 44 ≠ 0 then some (4, 0x54)
      else none

/-- The first failing entry of OFFSETS (R253 reason 5). -/
def offsetsFault (v : GraphView) : Option GraphFault :=
  let bad (i : Nat) : Bool :=
    if i = 0 then v.offset 0 != 0
    else decide (v.offset i < v.offset (i - 1)) || decide (2 ^ 32 ≤ v.offset i - v.offset (i - 1)) ||
      (i == v.g.nodes && v.offset i != v.g.edges)
  ((List.range (v.g.nodes + 1)).find? bad).map fun i => (5, v.g.offsetsAt + 8 * i)

/-- The positions of every node's list, in index order. -/
def GraphView.places (v : GraphView) : List (Nat × Nat) :=
  (List.range v.g.nodes).flatMap fun n => (List.range (v.degree n)).map fun p => (n, p)

/-- The first failing entry of NBR and TS (R253 reasons 6 and 7). -/
def entriesBad (v : GraphView) (timed : Bool) : Option GraphFault :=
  match v.places.find? fun x => decide (v.g.nodes ≤ v.nbr x.1 x.2) with
  | some x => some (6, v.g.nbrAt + (if v.g.wide then 6 else 4) * (v.offset x.1 + x.2))
  | none =>
    if timed then
      (v.places.find? fun x => decide (0 < x.2) && decide (v.ts x.1 x.2 < v.ts x.1 (x.2 - 1))).map fun x =>
        (7, v.g.tsAt + 8 * (v.offset x.1 + x.2))
    else none

/-- The first refusal of an image (R253). -/
def graphFault (m : Memory) (g : GraphArgs) : Option GraphFault :=
  match graphHeaderFault m g with
  | some x => some x
  | none =>
    match offsetsFault ⟨m, graphOf m g⟩ with
    | some x => some x
    | none => entriesBad ⟨m, graphOf m g⟩ g.timed

/-- The PREFIX array of a node: the running sums of its weights (R251). -/
def prefixOf (m : Memory) (at_ n : Nat) : List Nat :=
  ((List.range n).foldl (fun (acc : List Nat × Nat) i =>
    let x := acc.2 + memNat m (at_ + 4 * i) 4
    (x :: acc.1, x)) ([], 0)).1.reverse

/-- The pieces of PREFIX. -/
def prefixPieces (v : GraphView) : List (Nat × List Byte) :=
  (List.range v.g.nodes).map fun n =>
    (v.g.image + v.g.prefixAt + 8 * v.offset n,
     (prefixOf v.mem (v.g.image + v.g.wgtAt + 4 * v.offset n) (v.degree n)).flatMap (leBytes 8))

/-- SORTED and MAX_DEGREE (R250). -/
def graphSorted (v : GraphView) : Bool := v.places.all fun x => x.2 == 0 || decide (v.nbr x.1 (x.2 - 1) < v.nbr x.1 x.2)
def graphDegree (v : GraphView) : Nat := (List.range v.g.nodes).foldl (fun d n => max d (v.degree n)) 0

/-- IMAGE_CRC (R250): over the arrays present, in their order. -/
def graphCrc (m : Memory) (g : GraphArgs) : W32 :=
  crc32 (g.arrays.flatMap fun a => if a.2.2 then memRead m (g.image + memNat m (g.image + a.1) 8) a.2.1 else [])

/-- GRAPH_LOAD executes (R253): the state and COUNT_A. -/
def State.loadGraph (s : State) (c : W32) (p : Packet) : State × Nat :=
  let g := graphArgs p
  let s0 := s.modCtx c fun x => { x with graphs := mapDrop x.graphs g.number }
  let m := s0.busView
  match graphFault m g with
  | some x =>
    ((s0.busPut (g.image + 0x40) [2, BitVec.ofNat 8 x.1]).busPut (g.image + 0x48) (leBytes 8 x.2), 1)
  | none =>
    let v : GraphView := ⟨m, graphOf m g⟩
    let s1 := if g.weighted then (prefixPieces v).foldl (fun s x => s.busPut x.1 x.2) s0 else s0
    let head := [1, 0, BitVec.ofNat 8 (natOf (graphSorted v))]
    let s2 := ((s1.busPut (g.image + 0x40) head).busPut (g.image + 0x44) (leBytes 4 (graphDegree v))).busPut
      (g.image + 0x48) (leBytes 8 0 ++ leBytes 4 (graphCrc s1.busView g).toNat)
    let blocks := blocksOf (g.image + 0x40) 0x14 ++
      (if g.weighted then blocksOf (g.image + v.g.prefixAt) (8 * g.edges) else [])
    (s2.modCtx c fun x => { x with graphs := mapPut x.graphs g.number v.g }, blocks.eraseDups.length)

/-! ### TABLE_CREATE (R285, R287) -/


/-- Whether a buddy holds a mirror table of equal geometry: the module cannot see it, and the answer is a
free choice (R287). -/
def State.buddyAgrees (s : State) (buddy : W16) : Bool := s.reachable buddy && Config.choice s.free 0

/-- Fills an area (R287): each slice from INIT, or zeros where INIT is 0 or does not cover it in the region;
the state and how many slices INIT does not cover. -/
def State.fillArea (s : State) (c : W32) (x : Ctx) (n : Nat) (k : Table) (base stripes init : Nat) : State × Nat :=
  let used := usedBytes k.vtype k.rule k.cols
  (List.range k.rows).foldl (fun (acc : State × Nat) r =>
    let from_ := init + r * k.slice
    let ok := s.rangeInRegion x from_ k.slice
    let b := if init ≠ 0 && ok then memRead s.busView from_ used else leBytes used 0
    let s1 := acc.1.busPut (rowAt base stripes k.slice r) b
    (s1.sendMirror c (x.teams.headD 0) n r k b, acc.2 + natOf (init != 0 && !ok))) (s, 0)

/-- TABLE_CREATE executes (R287): the state, the status and COUNT_A. -/
def State.createTable (s : State) (c : W32) (p : Packet) : State × Nat × Nat :=
  match s.ctx c with
  | none => (s, 0x0102, 0)
  | some x =>
    let n := Packet.field p 0 4
    let base := Packet.field p 0x10 8
    let new : Table :=
      { vtype := Packet.field p 4 1, rule := Packet.field p 5 1, cols := Packet.field p 6 2
        rows := Packet.field p 8 8, group := Packet.field p 0x20 2, buddy := BitVec.ofNat 16 (Packet.field p 0x22 2)
        base := base, version := 1, stripes := s.stripeCount x base (Packet.field p 8 8)
          (sliceBytes (Packet.field p 4 1) (Packet.field p 5 1) (Packet.field p 6 2))
        pending := none, mirrorLost := false, replacing := none }
    let old := mapGet x.tables n
    let sameShape : Bool :=
      match old with
      | none => true
      | some o =>
        o.pending.isNone && o.vtype == new.vtype && o.rule == new.rule && o.cols == new.cols &&
        o.rows == new.rows && o.group == new.group &&
        (areaRanges base new.rows new.slice new.stripes).all fun a =>
          (areaRanges o.base o.rows o.slice o.stripes).all fun b => !rangesMeet a b
    if !sameShape || new.stripes == 0 || (new.buddy != 0xFFFF && !s.buddyAgrees new.buddy) then (s, 0x0102, 0)
    else
      let put : Table := match old with | none => new | some o => { o with pending := some (base, new.stripes) }
      let s1 := s.modCtx c fun x => { x with tables := mapPut x.tables n put }
      let f := s1.fillArea c x n new base new.stripes (Packet.field p 0x18 8)
      (f.1.addEventsFor c (x.teams.headD 0) { idxDrop := f.2 }, 0, ceilDiv (new.rows * new.slice) 65536)

/-- Whether a mirror write of a table is unacknowledged (R287, R304). -/
def State.mirroringTable (s : State) (c : W32) (n : Nat) : Bool :=
  s.fabric.remote.any fun r =>
    r.ctx == c && match r.work with
      | .mirror _ m _ => m == n
      | _ => false

/-! ### TABLE_REPLACE (R306) -/

/-- Whether a TABLE_REPLACE may start: the earlier TABLE_CREATEs of its table have completed, and no
UPD.ROWS set of it is in progress, that is, has begun. -/
def State.replaceReady (s : State) (c : W32) (x : Cmd) : Bool :=
  let n := Packet.field x.pkt 0 4
  (match s.table c n with
   | some k => k.replacing.isNone
   | none => true) &&
  ((s.cmdsOf c).cmds.all fun y =>
    !(y.opcode == 0x0020 && decide (y.seq.toNat < x.seq.toNat) && Packet.field y.pkt 0 4 == n) || y.done) &&
  s.teams.all fun t => t.2.upd.queue.all fun u => !(u.rows && u.begun.isSome && u.ctx == c && rTable u.record == n)

/-- TABLE_REPLACE starts (R306): the pause begins; the status where it is refused. -/
def State.beginReplace (s : State) (c : W32) (x : Cmd) : State × Option Nat :=
  let n := Packet.field x.pkt 0 4
  let source := Packet.field x.pkt 8 8
  let version := Packet.field x.pkt 0x10 4
  match s.ctx c with
  | none => (s, some 0x0102)
  | some y =>
    match mapGet y.tables n with
    | none => (s, some 0x0102)
    | some k =>
      if version ≤ k.version.toNat ∨ (source = 0 ∧ k.pending.isNone) ∨
          (source ≠ 0 ∧ !s.rangeInRegion y source (k.rows * k.slice)) then (s, some 0x0102)
      else
        (s.modTable c n fun k =>
          { k with replacing := some ⟨⟨c, x.seq⟩, s.postmark, BitVec.ofNat 32 version, source, none⟩ }, none)

/-- Whether a staging of a table that started before the pause is under way. -/
def State.stagingOn (s : State) (c : W32) (n : Nat) : Bool :=
  s.teams.any fun t => t.2.rows.slots.any fun x => x.2.ctx == c && pTable x.2.record == n && x.2.phase == .staging

/-- Whether a migration of a row of a table is in progress in a team of the context. -/
def State.migratingOn (s : State) (x : Ctx) (n : Nat) : Bool :=
  x.teams.any fun t =>
    match (s.team t).rows.migration with
    | some m => m.table == n
    | none => false

/-- The version that a table serves after its flip, and its bytes (R306). -/
def State.flipped (s : State) (c : W32) (n : Nat) (k : Table) (r : Replacing) : State :=
  let used := usedBytes k.vtype k.rule k.cols
  let pause := s.postmark.toNat - r.startedAt.toNat
  let count := s.queuedOn c n
  let s1 : State :=
    if r.source = 0 then s
    else (List.range k.rows).foldl (fun a i =>
      a.busPut (k.rowAddr i) (memRead s.busView (r.source + i * k.slice) used)) s
  let k1 : Table :=
    match r.source, k.pending with
    | 0, some (base, stripes) => { k with base := base, stripes := stripes, pending := none }
    | _, _ => k
  let k2 : Table := { k1 with version := r.version, replacing := some { r with flipped := some (pause, count) } }
  let s2 := s1.modTable c n fun _ => k2
  match s2.ctx c with
  | none => s2
  | some x =>
    let s3 := x.teams.foldl (fun s t =>
      s.modRows t fun e => { e with hot := e.hot.filter fun h => h.table != n }) s2
    (List.range k2.rows).foldl (fun a i =>
      a.sendMirror c (x.teams.headD 0) n i k2 (memRead a.busView (k2.rowAddr i) used)) s3

/-- TABLE_REPLACE_FLIP (R306): once the requests started before the pause are complete. -/
def execTableReplaceFlip (ctx : W32) (table : Nat) (s : State) : Result :=
  .next (match s.ctx ctx with
    | none => s
    | some x =>
      match mapGet x.tables table with
      | none => s
      | some k =>
        match k.replacing with
        | none => s
        | some r =>
          if r.flipped.isSome || s.stagingOn ctx table || s.migratingOn x table || !x.running ||
              s.journal.replaying.contains ctx.toNat then s
          else
            let wait (p : Preempting) : Preempting := { p with flippedAt := s.postmark }
            (s.flipped ctx table k r).modCtx ctx fun x => { x with preempting := x.preempting.map wait })

/-- Finishes a TABLE_CREATE or a flipped TABLE_REPLACE once its mirror writes are acknowledged. -/
def State.tryFinishTable (s : State) (c : W32) (x : Cmd) : State :=
  let n := Packet.field x.pkt 0 4
  if x.phase != .started || s.mirroringTable c n then s
  else if x.opcode = 0x0020 then s.finishCmd c x.seq 0 x.blocks 0
  else
    match s.table c n with
    | some k =>
      (match k.replacing with
       | some r =>
         (match r.flipped with
          | some (pause, count) =>
            if r.cmd = ⟨c, x.seq⟩ then
              (s.finishCmd c x.seq 0 pause count).modTable c n fun k => { k with replacing := none }
            else s
          | none => s)
       | none => s)
    | none => s

end Sys2Proof.Machine
end

