-- ==== Sys2Proof/Machine/Roles.lean ====
section
/-! DEFINITION. Roles: advertisements, loss, taking a role and joining its job (spec/14 R376, R379 to R381,
spec/15 R421 to R430). -/

namespace Sys2Proof.Machine

open Sys2Proof

/-! ### Advertisements (R381) -/

/-- The epoch under which the module knows a postcode: held here, or by its route. -/
def State.knownEpoch (s : State) (pc : W16) : Option Nat :=
  match s.role pc, s.route pc with
  | some r, some x => some (max r.epoch.toNat x.epoch.toNat)
  | some r, none => some r.epoch.toNat
  | none, some x => some x.epoch.toNat
  | none, none => none

/-- The ports that carry something out now, in rising order. -/
def State.upPorts (s : State) : List Nat :=
  (List.range 32).filter fun p => (s.port p).state == .up && !s.faults.selfFenced

/-- Sends an advertisement on the ports that a mask allows, but for one. -/
def State.advertise (s : State) (a : Advert) (mask : W32) (but : Nat) : State :=
  ((s.upPorts.filter fun p => maskAllows mask p && p != but)).foldl (fun s p => s.emitOut (.advert p a)) s

/-- Writes a route. -/
def State.setRoute (s : State) (pc : W16) (r : Route) : State :=
  s.modFabric fun f => { f with routes := mapPut f.routes pc.toNat r }

/-- Sends the frames that wait for a route again (R376), in the order of their classes (R383). -/
def State.flushWaiting (s : State) : State :=
  (sortOn (fun f : Frame => f.cls.toNat) s.fabric.waiting).foldl (fun s f => s.transmit f)
    (s.modFabric fun f => { f with waiting := [] })

/-! ### Loss (R423) -/

/-- Completes with ROLE_CHANGED every collective of this module that includes a postcode (R423). -/
def State.failCollsWith (s : State) (pc : W16) : State :=
  (s.fabric.colls.filter fun c => c.peers.contains pc).foldl (fun s c => s.failColl c.role c.number 0x0201) s

/-- Whether the module covers a postcode. -/
def State.covers (s : State) (pc : W16) : Bool := s.faults.armed.contains pc

/-- An arrival outstanding at a home that is lost is held here, to be sent again (R430). -/
def Remote.holdFor (pc : W16) (r : Remote) : Remote :=
  match r.work with
  | .arrive tag index a _ => if r.dest = pc then { r with work := .arrive tag index a true } else r
  | _ => r

/-- The context that holds the role taken over. -/
def State.takenCtx (s : State) : Option (W32 × Ctx) :=
  match s.role s.faults.takePostcode with
  | some r => (s.ctx r.ctx).map fun x => (r.ctx, x)
  | none => none

/-- Whether two roles take part in one barrier of this module or in one of its collectives. -/
def State.shareHere (s : State) (a b : W16) : Bool :=
  (s.hub.any fun o => s.takesPart o.2 a && s.takesPart o.2 b) ||
  s.fabric.colls.any fun c => (c.peers ++ [c.role]).contains a && (c.peers ++ [c.role]).contains b

/-- A takeover under way ends with the loss of its own role, of a source of its copy, or of a role that shares a barrier or
a collective with the one taken (R433). Which roles share one that no unit of this module shows is free
(notes/assumptions/65.md). -/
def State.sourceLost (s : State) (pc : W16) : State :=
  let taken := s.faults.takePostcode
  let source := match s.takenCtx with
    | some (_, x) => (s.listRanges x).any fun r => r.source == pc
    | none => false
  if !s.taking then s
  else if pc == taken || source || s.shareHere taken pc || Config.choice s.free pc.toNat then
    s.bumpFree.endTake .failed 0x0204
  else s.bumpFree

/-- The module learns, or declares, that a role is lost: it spreads the word, holds the arrivals outstanding there, and
its barriers and collectives learn of it, and a copy from there fails (R423, R425, R429, R430, R433). -/
def State.loseRole (s : State) (pc epoch : W16) (covered : Bool) (from_ : Nat) : State :=
  let old : Route := (s.route pc).getD ⟨epoch, false, false, []⟩
  let c := covered || old.covered || s.covers pc
  let s1 := (s.setRoute pc { old with epoch := epoch, lost := true, covered := c }).modFabric fun f =>
    { f with remote := f.remote.map (Remote.holdFor pc) }
  ((((s1.advertise ⟨pc, epoch, 0, true, c⟩ 0 from_).sourceLost pc).absentRole pc c).failCollsWith pc).buddyGone pc

/-- Whether a route's holder is a neighbour of this module. -/
def Route.neighbour (r : Route) : Bool := r.via.any fun v => decide (v.2 ≤ 1)

/-- ROLE_LOSS_TIMEOUT (R423): a neighbour of the holder has heard nothing from it. -/
def execRoleLossTimeout (postcode : W16) (s : State) : Result :=
  .next (match s.route postcode with
    | some r => if r.lost || !r.neighbour then s else s.loseRole postcode r.epoch r.covered 32
    | none => s)

/-- Whether an arrival stays at a home that its module recovers: one of another context of this module. The others are
held where they were issued and sent again (R430). -/
def Arrival.stays (c : W32) (a : Arrival) : Bool := a.fromHere && a.ctx != c

/-- The barriers of a lost home keep only the arrivals that are held at this module (R430). -/
def State.holdHome (s : State) (c : W32) : State :=
  let own := (s.hub.filter fun o => o.2.owner == c && o.2.barrier).map Prod.fst
  let keep (o : HubObj) : HubObj := { o with tally := o.tally.filter (Arrival.stays c) }
  let s1 : State := { s with hub := s.hub.map fun o => (o.1, if own.contains o.1 then keep o.2 else o.2) }
  s1.modFabric fun f =>
    { f with arriving := f.arriving.filter fun a => !own.contains a.1 || a.2.stays c }

/-- The module gives up a role of a context and recovers it itself (R414, R423): it is LOST and COVERED until
it is taken again. -/
def State.recoverRole (s : State) (c : W32) : State :=
  let pc := s.postcodeOf c
  match s.role pc with
  | some r =>
    let s1 := s.modFabric fun f => { f with roles := mapDrop f.roles pc.toNat }
    let s2 : State := { s1 with faults := { s1.faults with retake := mapPut s1.faults.retake pc.toNat r } }
    (s2.holdHome c).loseRole pc r.epoch true 32
  | none => s

/-! ### A role held again (R425, R430) -/

/-- Sends the releases of a lost home's barriers that this module received to the new home (R430). -/
def State.relayReleases (s : State) (pc : W16) : State :=
  (s.heldReleases pc).foldl (fun s x => s.emitOut (.relay pc x.1 x.2)) s

/-- Where this module itself becomes the new home, the releases that it received from the lost one count among the relayed
(R430). -/
def State.relayHere (s : State) (pc : W16) (c : W32) : State :=
  (s.heldReleases pc).foldl (fun s x =>
    match mapGet s.hub x.1 with
    | some o => if o.owner == c && o.relay.isSome then s.setHub x.1 { o with relayed := o.relayed ++ [x.2] } else s
    | none => s) s

/-- A lost role is held again: the home's join releases, the held arrivals, the relays. -/
def State.roleBack (s : State) (pc : W16) : State := ((s.returnRole pc).relayReleases pc).offerHeld

/-! ### Receiving advertisements -/

/-- Abandons the commands of a context whose role another module has taken (R424). -/
def State.yieldRole (s : State) (pc : W16) (epoch : W16) : State :=
  match mapGet s.faults.retake pc.toNat with
  | some r =>
    if r.epoch.toNat < epoch.toNat then
      (({ s with faults := { s.faults with retake := mapDrop s.faults.retake pc.toNat } }).abandonAll r.ctx
        fun _ => false).1
    else s
  | none => s

/-- Whether a port leads to a holder of a role itself: the neighbour there has advertised the role as its own, or is
the neighbour that advertises it so on another port. -/
def State.leadsHome (s : State) (port : Nat) (a : Advert) (p : Nat) : Bool :=
  (match s.route a.postcode with
   | some r => (match mapGet r.via p with | some h => decide (h ≤ 1) | none => false)
   | none => false) ||
  (a.hops == 0 && (s.port p).peerPostcode != 0xFFFF && (s.port p).peerPostcode == (s.port port).peerPostcode)

/-- Passes an advertisement of a holder on where it came by the best way to that holder now (R381), and sends the frames
that wait. It does not go back to its own holder; whether a port that leads to a holder leads to another one of the same
epoch nothing tells this module, so an advertisement goes there freely (notes/assumptions/22.md). -/
def State.passOn (s : State) (port : Nat) (a : Advert) : State :=
  let best := match s.route a.postcode with
    | some r => (r.best fun p => (s.port p).state == .up).map Prod.fst
    | none => none
  let goes (p : Nat) : Bool :=
    p != port && (if s.leadsHome port a p then Config.choice s.free p else best == some port)
  ((s.upPorts.filter goes).foldl (fun s p => s.emitOut (.advert p { a with hops := a.hops + 1 })) s.bumpFree).flushWaiting

/-- A port's neighbour advertises a role of its own: PEER_POSTCODE is the lowest of them (R408). -/
def Port.hears (x : Port) (a : Advert) : Port :=
  if a.hops = 0 then
    { x with adverts := x.adverts ++ [a.postcode]
             peerPostcode := if a.postcode.toNat < x.peerPostcode.toNat then a.postcode else x.peerPostcode }
  else x

/-- Takes a holder's advertisement (R381): a higher epoch replaces the route; the same one gives the hops by its port. A
role that is LOST comes back under a higher epoch only. -/
def State.takeAdvert (s : State) (port : Nat) (a : Advert) : State :=
  let new : Route := ⟨a.epoch, false, false, [(port, a.hops + 1)]⟩
  match s.route a.postcode with
  | none => ((s.setRoute a.postcode new).yieldRole a.postcode a.epoch).passOn port a
  | some r =>
    if r.epoch.toNat < a.epoch.toNat then
      let s1 := ((s.setRoute a.postcode new).yieldRole a.postcode a.epoch).modFabric fun f =>
        { f with poisoned := f.poisoned.filter fun p => p.1 != a.postcode }
      (if r.lost then s1.roleBack a.postcode else s1).passOn port a
    else if r.epoch = a.epoch ∧ !r.lost then
      (s.setRoute a.postcode { r with via := mapPut r.via port (a.hops + 1) }).passOn port a
    else s

/-- A holder's advertisement of a role that this module holds (R380, R381, R424): another holder of the same epoch is a
conflict; one of a higher epoch supersedes this one, and where this one was declared LOST its commands are abandoned. -/
def State.rivalAdvert (s : State) (port : Nat) (advert : Advert) (r : Role) : State :=
  if advert.epoch = r.epoch then
    if maskAllows r.mask port then
      (s.modStats fun t => { t with conflicts := satTo 0xFF (t.conflicts + 1) }).pulse 200
    else s
  else if r.epoch.toNat < advert.epoch.toNat then
    let s1 := s.modFabric fun f => { f with roles := mapPut f.roles advert.postcode.toNat { r with lost := false } }
    (s1.yieldHeld r).takeAdvert port advert
  else s

/-- ROLE_ADVERTISEMENT (R381, R422, R423): of a holder, of a covering module, or of a loss. -/
def execRoleAdvertisement (port : Nat) (advert : Advert) (s : State) : Result :=
  .next (
    if (s.port port).state != .up then s
    else if advert.lost then
      match s.role advert.postcode, s.route advert.postcode with
      | none, some r =>
        if r.epoch.toNat ≤ advert.epoch.toNat ∧ !(r.lost && r.epoch == advert.epoch) then
          s.loseRole advert.postcode advert.epoch advert.covered port
        else s
      | none, none => s.loseRole advert.postcode advert.epoch advert.covered port
      | some r, _ =>
        if r.epoch.toNat ≤ advert.epoch.toNat then
          s.modFabric fun f => { f with roles := mapPut f.roles advert.postcode.toNat { r with lost := true } }
        else s
    else if advert.covered then
      match s.route advert.postcode with
      | some r =>
        if r.covered then s
        else (s.setRoute advert.postcode { r with covered := true }).advertise
          { advert with hops := advert.hops + 1 } 0 port
      | none => s
    else
      let s1 := s.modFabric fun f => { f with ports := mapPut f.ports port ((s.port port).hears advert) }
      match s1.role advert.postcode with
      | some r => s1.rivalAdvert port advert r
      | none => s1.takeAdvert port advert)

/-- ROUTE_CHANGE (R376): a route by a port has been computed again, and the frames that waited go on. The choice among
the ports is `State.portFor`'s. -/
def execRouteChange (postcode : W16) (port : Nat) (s : State) : Result :=
  .next (match s.route postcode with
    | some r => if (s.port port).state = .up ∧ (mapGet r.via port).isSome then s.flushWaiting else s
    | none => s)

/-! ### Taking a role (R424 to R426) -/

/-- The spare context (R422): the one context with SPAN = 1 that holds no role. -/
def State.spareCtx (s : State) : Option W32 :=
  match s.ctxs.filter fun x => x.2.span == 1 && s.postcodeOf (BitVec.ofNat 32 x.1) == 0xFFFF &&
      !(s.faults.retake.any fun r => r.2.ctx.toNat == x.1) with
  | [x] => some (BitVec.ofNat 32 x.1)
  | _ => none

/-- Binds a postcode to a context of this module (R379). -/
def State.bindRole (s : State) (pc epoch : W16) (mask : W32) (c : W32) : State :=
  let s1 := s.modFabric fun f =>
    { f with roles := mapPut (f.roles.filter fun r => r.2.ctx != c) pc.toNat ⟨epoch, mask, c, 0, false⟩
             ended := f.ended.filter fun e => e.1 != pc
             routes := mapDrop f.routes pc.toNat }
  s1.advertise ⟨pc, epoch, 0, false, false⟩ mask 32

/-- The barriers of a context make no release for 100 µs (R430). -/
def State.openRelays (s : State) (c : W32) : State :=
  { s with hub := s.hub.map fun o =>
      (o.1, if o.2.owner == c && o.2.barrier then { o.2 with relay := some (s.postmark + 100000), relayed := [] } else o.2) }

/-- The module takes a role (R424): HOLDING, under its new epoch. The commands of another context of the module that
held it are abandoned. -/
def State.takeRole (s : State) (pc epoch : W16) (mask : W32) (c : W32) (cmd : Option CmdRef) : State :=
  let s0 := match s.role pc with
    | some r => if r.ctx = c then s else (s.abandonAll r.ctx fun _ => false).1
    | none => s
  let s1 := (((s0.bindRole pc epoch mask c).openRelays c).returnRole pc).setTake fun f =>
    { f with take := .holding, takePostcode := pc, takeEpoch := epoch, takeCmd := cmd, joinStep := none, armed := []
             retake := mapDrop f.retake pc.toNat }
  (s1.relayHere pc c).offerHeld.flushWaiting

/-- AUTO_TAKEOVER (R424): a covering module, or the module that recovers the role itself once containment and
the audit are complete, takes a lost role once LOCKED. -/
def execAutoTakeover (postcode : W16) (s : State) : Result :=
  .next (
    if !s.posted || s.faults.selfFenced || s.taking then s
    else
      match mapGet s.faults.retake postcode.toNat with
      | some r =>
        (match s.ctx r.ctx with
         | some x =>
           if x.teams.any fun t => s.faults.auditing.contains t then s
           else ((s.abandonAll r.ctx fun _ => false).1).takeRole postcode (r.epoch + 1) r.mask r.ctx none
         | none => s)
      | none =>
        match s.route postcode, s.spareCtx with
        | some r, some c =>
          if r.lost && s.covers postcode then s.takeRole postcode (r.epoch + 1) 0 c none else s
        | _, _ => s)

/-- JOIN_RELEASE_RECEIVED (R425, R426): the new holder learns r, writes the kept stream table, and asks for
its ranges; a range without a source on another module fails the copy. -/
def execJoinReleaseReceived (postcode : W16) (release : Release) (s : State) : Result :=
  .next (
    if s.faults.take != .holding || s.faults.takePostcode != postcode then s
    else
      match s.takenCtx with
      | none => s
      | some (_, x) =>
        let s1 := match mapGet s.faults.records postcode.toNat with
          | some r => s.busPut x.regionBase.toNat r.2
          | none => s
        let s2 := s1.setTake fun f => { f with take := .copying, joinStep := some (release.step + 1) }
        let ranges := s2.listRanges x
        if ranges.any fun r => r.source == 0xFFFF || r.source == postcode then s2.endTake .failed 0x0204
        else ranges.foldl (fun s r => s.emitOut (.copyRequest r.source release.step r.srcOff r.bytes none)) s2)

/-- NEXT_STEP, CURSOR and STRIDE from which CURSOR_J follows (R426): of the record, or of the state list. -/
def State.cursorJ (s : State) (x : Ctx) (j : W64) : W64 :=
  match mapGet s.faults.records s.faults.takePostcode.toNat with
  | some r =>
    BitVec.ofNat 64 (fieldAt r.1 0x18 8) +
      (j - BitVec.ofNat 64 (fieldAt r.1 0x10 8)) * BitVec.ofNat 64 (fieldAt r.1 0x20 8)
  | none => BitVec.ofNat 64 (memNat s.busView (x.listAt + 0x10) 8)

/-- SNAPSHOT_RECORD_RECEIVED (R421): an armed module keeps the latest record of each postcode it covers. -/
def execSnapshotRecordReceived (postcode : W16) (header streams : List Byte) (s : State) : Result :=
  .next (if s.covers postcode then
      { s with faults := { s.faults with records := mapPut s.faults.records postcode.toNat (header, streams) } }
    else s)

end Sys2Proof.Machine
end

