-- ==== Sys2Proof/Machine/Spares.lean ====
section
/-! DEFINITION. Faults and their containment (spec/01 R36 to R43, spec/03 R97, R100, R101, spec/10 R300,
spec/14 R374 to R377, R383, spec/15 R412 to R416). -/

namespace Sys2Proof.Machine

open Sys2Proof

/-! ### Records -/

/-- Changes the fault part of the state. -/
def State.modFaults (s : State) (f : Faults → Faults) : State := { s with faults := f s.faults }

/-- Records a fault: FAULT_STATUS, FAULT_AT, the interrupt (R412, R437, R438). -/
def State.recordFault (s : State) (cls unit : Nat) : State :=
  (s.modFaults fun f =>
    { f with lastClass := cls, lastUnit := unit, contained := satTo 0xFFFF (f.contained + 1), at_ := s.postmark }).pulse 203

/-- A spare enters service, or a unit leaves it (R39). -/
def State.spareChange (s : State) : State :=
  (s.modFaults fun f => { f with changes := satTo 0xFFFF (f.changes + 1) }).pulse 192

/-- Records a retired unit in the flash (R38). -/
def State.retire (s : State) (r : Retired) : State := { s with retired := s.retired ++ [r] }

/-- Takes a cluster out of service (R37). -/
def State.clusterOff (s : State) (t : Nat) : State :=
  if s.faults.clusterOut.contains t then s
  else (s.modFaults fun f =>
    { f with clusterOut := t :: f.clusterOut, auditing := f.auditing.filter fun a => a != t }).spareChange

/-! ### Blocks that a fault, a reset or a pre-emption finds under way (R98, R450, R494) -/

/-- Whether a block's rows are mirrored to a buddy: it is DONE only once the buddy has acknowledged (R98). -/
def State.mirrored (s : State) (c : W32) (b : Block) : Bool :=
  match b.table with
  | some n =>
    match s.table c n with
    | some k => k.buddy != 0xFFFF && !k.mirrorLost
    | none => false
  | none => false

/-- Writes a block home in order, and marks it. -/
def State.writeBlock (s : State) (t : Nat) (u : UpdReq) (b : Block) : State :=
  (s.markBlock u (if s.mirrored u.ctx b then b else b.done)).putBlock u.ctx t u.since b

/-- The block at which a fault finds a request is under way: each of its 64-byte units is written or not (R98, R413). -/
def State.tearBlock (s : State) (u : UpdReq) (b : Block) : State :=
  (s.markBlock u b).writeStack
    ((b.fresh.flatMap fun x => (List.range x.2.2.length).map fun i => (x.1 + i, x.2.2.getD i 0)).filter fun c =>
      Config.choice s.free (c.1 / 64))

/-- A fault or a reset ends the work of a team's update engine after a free number of blocks; a fault finds the next one
under way, or not yet begun. A reset lets each block come to its end (R494). -/
def State.cutShort (s : State) (fault : Bool) (t : Nat) : State :=
  match s.writing t with
  | none => s
  | some (u, blocks) =>
    let n := (Config.freeWord s.free).toNat % (blocks.length + 1)
    let s1 := (blocks.take n).foldl (fun s b => s.writeBlock t u b) s.bumpFree
    match blocks[n]? with
    | some b => if fault && Config.choice s1.free (2 ^ 64) then (s1.tearBlock u b).bumpFree else s1
    | none => s1

/-- A pre-emption lets the update engine of a team end a free number of blocks, and keeps the rest of the request queued
(R450). A set whose rows are mirrored keeps all its blocks (notes/assumptions/60.md). -/
def State.pauseBlocks (s : State) (t : Nat) : State :=
  match s.writing t with
  | none => s
  | some (u, blocks) =>
    if blocks.any (s.mirrored u.ctx) then s
    else
      let mine := blocks.take ((Config.freeWord s.free).toNat % (blocks.length + 1))
      let keep (l : Launch) : Launch :=
        { l with skip := mine.map Block.done ++ mine.foldl (fun k b => eraseFirst (fun y => y.key == b.key) k) l.skip }
      (mine.foldl (fun s b => s.putBlock u.ctx t u.since b) s.bumpFree).modCtx u.ctx fun x =>
        { x with launches := modWhere (fun l => l.seq == u.seq) keep x.launches }

/-! ### Contexts that a fault touches (R100, R101, R136, R416, R419, R423) -/

/-- The started LOAD_PROGRAMs of a context leave their bank empty in each team that they had not finished (R136), in the
saved state of one that is PREEMPTED; which ones they had is a free choice. -/
def State.emptyLoads (s : State) (c : W32) : State :=
  match s.ctx c with
  | none => s
  | some x =>
    ((s.cmdsOf c).cmds.filter fun y => y.phase == .started && y.opcode == 0x0010).foldl (fun s y =>
      let len := Packet.field y.pkt 0x08 4
      let image := (translate (memRead s.busView (Packet.field y.pkt 0x00 8) len) len c x.regionBase).toOption
      let bank (t : Nat) : Bank :=
        match image with
        | some i => if Config.choice s.free t then .full i else .empty
        | none => .empty
      let put (t : Nat) (k : Team) : Team := k.load (Packet.field y.pkt 0x0C 1) (bank t)
      (bitsSet 24 (Packet.field y.pkt 0x10 4)).foldl (fun s t =>
        if x.running then s.modTeam t (put t) else s.modSaved c t (put t)) s.bumpFree) s

/-- A started command is to be executed from its start again (R100). -/
def Cmd.again (y : Cmd) : Cmd := if y.phase == .started then { y with phase := .accepted, replayed := true } else y

/-- A pre-emption of a context that a fault meets in its quiesce or save starts again (R451). -/
def State.restartPreempt (s : State) (c : W32) (x : Ctx) : State :=
  match x.preempting with
  | some p =>
    if p.stoppedAt.isSome then
      (s.modCtx c fun x => { x with preempting := none, issueHeld := false }).modCmd p.cmd.ctx p.cmd.seq Cmd.again
    else s
  | none => s

/-- Sends the started LOAD_PROGRAMs of a context, a SNAPSHOT that has stopped it, and a pre-emption that has, back to be
executed from their start (R136, R419, R451). -/
def State.restartCmds (s : State) (c : W32) : State :=
  match s.ctx c with
  | none => s
  | some x =>
    let stopped := match x.snapping with | some n => n.startedAt.isSome | none => false
    let back (y : Cmd) : Cmd := if y.opcode == 0x0010 || (y.opcode == 0x0050 && stopped) then y.again else y
    let s1 := if stopped then s.modCtx c fun x => { x with snapping := none, issueHeld := false } else s
    ((s1.emptyLoads c).modCmds c fun k => { k with cmds := k.cmds.map back }).restartPreempt c x

/-- Puts a context into FAULTED for a fault that it cannot recover from (R101, R136, R416). -/
def State.contain (s : State) (c : W32) : State := (s.emptyLoads c).faultContext c

/-- The module fences itself: it stops transmitting, drives FAULT_OUT_N low and faults every context. -/
def State.fence (s : State) : State :=
  if s.faults.selfFenced then s
  else
    let s1 := (s.modFaults fun f => { f with selfFenced := true }).recordFault 10 0xFF
    let s2 : State := { s1 with power := { s1.power with faultOutN := false } }
    (s2.ctxs.map Prod.fst).foldl (fun s c => s.contain (BitVec.ofNat 32 c)) s2

/-- The contexts that an earlier fault touched, whose recovery window is open (R101). -/
def State.inWindow (s : State) (c : W32) : Bool :=
  (s.journal.windows.any fun w => w.1.contains c.toNat) || s.journal.touched.contains c.toNat

/-- The recovery windows that stay open: those of faults that touched a context which still replays (R101). -/
def Journal.prune (j : Journal) : Journal :=
  { j with windows :=
      (j.windows.map fun w => (w.1, w.2.filter fun c => j.replaying.contains c)).filter fun w => !w.2.isEmpty }

/-- A fault that touched some contexts has been met: its recovery window is open while one of them replays (R101,
notes/assumptions/65.md). -/
def State.openWindow (s : State) (touched : List Nat) : State :=
  { s with journal := { s.journal with windows := s.journal.windows ++ [(touched, touched)] }.prune }

/-- The replay of a context is complete, or not due any more (R100, R101). -/
def State.endReplay (s : State) (c : W32) : State :=
  { s with journal := { s.journal with replaying := s.journal.replaying.filter fun x => x != c.toNat }.prune }

/-- A context has a replay to make. -/
def State.toReplayed (s : State) (c : W32) : State :=
  { s with journal := { s.journal with replaying := (c.toNat :: s.journal.replaying).eraseDups } }

/-- Halts the kernel of one launch at once and marks it interrupted: a replay runs it again (R100). -/
def State.interrupt (s0 : State) (c : W32) (l : Launch) (fault : Bool) : State :=
  let ts := bitsSet 24 l.teams
  let keep (w : Watch) : Bool := !w.repliesTo ts
  let s := ts.foldl (fun s t => s.cutShort fault t) s0
  let s1 := ts.foldl (fun s t => s.modTeam t fun k =>
    let rows := k.acsRows
    let h := k.halt
    { h with acsRows := rows, watches := h.watches.filter keep, waiting := h.waiting.filter keep }) (s.withdraw ts)
  let put (y : Launch) : Launch := { y with interrupted := true }
  let s2 := (s1.dropUnfenced ts).modCtx c fun x =>
    { x with launches := modWhere (fun y => y.seq == l.seq) put x.launches
             skipped := x.skipped.filter fun q => q.2.seq != l.seq }
  (s2.modFabric fun f =>
    { f with reads := f.reads.filter fun r => !ts.contains r.team
             remote := f.remote.filter fun r => !(r.ctx == c && r.seq == l.seq)
             releases := f.releases.filter fun r => !(r.entry.ctx == c && r.entry.seq == l.seq)
             colls := f.colls.filter fun y => !(y.ctx == c && y.seq == l.seq) }).toReplayed c

/-- A context loses what a lost unit held (R416, R423): a fabric context's role is recovered, any other context enters
FAULTED, as does one in the window of an earlier fault (R101). A fabric context that holds no role has none to recover,
and is FAULTED too (notes/assumptions/32.md); one whose role the module has yet to retake has lost its state already. -/
def State.loseUnit (s : State) (c : W32) : State :=
  match s.ctx c with
  | none => s
  | some x =>
    if x.span = 1 ∧ (s.faults.retake.any fun r => r.2.ctx == c) then s
    else if x.span = 1 ∧ s.postcodeOf c ≠ 0xFFFF ∧ !s.inWindow c then
      (if x.running then (s.emptyLoads c).stopCtx c x.teams false else s).recoverRole c
    else s.contain c

/-- The launches that a fault interrupts, in their order: those it meets, and those that began after one of them on a team
of it, for they run again in the same order (R100, R105; notes/assumptions/65.md). -/
def cutLaunches (uses : Launch → Bool) (l : List Launch) : List Launch :=
  l.foldl (fun cut y => if uses y || cut.any (fun z => Nat.land z.teams y.teams != 0) then cut ++ [y] else cut) []

/-- A fault interrupts the launches of a context that use some teams, and what else it does restarts (R412 classes 1 and
3); in the window of an earlier fault that touched the context it enters FAULTED (R101). A core fault of a fabric context
whose launch has acted beyond the module is role recovery (R414). -/
def State.touch (s : State) (c : W32) (core : Bool) (uses : Launch → Bool) : State :=
  match s.ctx c with
  | none => s
  | some x =>
    if s.inWindow c then s.contain c
    else
      let mine := (cutLaunches uses x.launches).filter fun l => !l.interrupted
      if core ∧ x.span = 1 ∧ mine.any (fun l => l.external) then s.loseUnit c
      else mine.foldl (fun s l => s.interrupt c l true) ((s.restartCmds c).toReplayed c)

/-- The affected clusters restart with every hot slot empty, and their migrations are abandoned (R300). -/
def State.emptySlots (s : State) (teams : List Nat) : State :=
  teams.foldl (fun s t => s.modRows t fun e => { e with hot := [], migration := none, moves := ⟨[], []⟩ }) s

/-! ### Cores and clusters -/

/-- A cluster goes out of service as a fault (R412 class 2): for the context that holds it, and, while a reset or
start-up is under way, for one whose replay is to restore it there. -/
def State.clusterFails (s : State) (t : Nat) : State :=
  let s1 := ((s.recordFault 2 t).clusterOff t).emptySlots [t]
  let s2 := match s.holder t with
    | some h => s1.loseUnit h.1
    | none => s1
  (s.ctxs.filter fun x => x.2.restoreDue && x.2.teams.contains t).foldl (fun s x =>
    s.loseUnit (BitVec.ofNat 32 x.1)) s2

/-- A core retired by self-test (R36, R498): the spare takes its place, or the cluster goes out. -/
def State.retireCore (s : State) (t q : Nat) : State :=
  let s1 := s.retire (.core t q)
  if s.faults.clusterOut.contains t then s1
  else if s.faults.spareUsed.contains t || s.faults.auditing.contains t then s1.clusterFails t
  else (s1.modFaults fun f => { f with spareUsed := t :: f.spareUsed }).spareChange

/-- A unit that a cluster's cores share fails in a test: the cluster is out of service (R37, R498, R499). -/
def State.retireCluster (s : State) (t : Nat) : State :=
  if s.faults.clusterOut.contains t then s else (s.retire (.cluster t)).clusterFails t

/-- CORE_FAULT (R36, R412 class 1, R414): the audit of the spare begins; a second failure takes the cluster. -/
def execCoreFault (team core : Nat) (s : State) : Result :=
  .next (
    if !s.teamServes team || 16 ≤ core then s
    else if s.faults.spareUsed.contains team || s.faults.auditing.contains team then
      (s.retire (.core team core)).clusterFails team
    else
      let s1 := ((s.recordFault 1 team).retire (.core team core)).modFaults fun f =>
        { f with auditing := team :: f.auditing }
      let s2 := match s1.holder team with
        | some h => (s1.touch h.1 true fun l => bitOf l.teams team).openWindow [h.1.toNat]
        | none => s1
      (s2.emptySlots [team]).modCore team core fun k => { k with mem := [] })

/-- An uncorrectable row of the team's accumulation store, counted (R323, R324). -/
def State.acsRowLost (s : State) (team : Nat) : State :=
  { s with regs := { s.regs with acsFaults := satTo 0xFFFF (s.regs.acsFaults + 1), acsLastTeam := team } }

/-- CLUSTER_FAULT (R37, R412 class 2). The row does not say what in the cluster failed: freely a row of
the accumulation store (R323, notes/assumptions/62.md). -/
def execClusterFault (team : Nat) (s : State) : Result :=
  .next (if s.teamServes team then
      (if Config.choice s.free (2 ^ 63) then s.acsRowLost team else s).bumpFree.clusterFails team
    else s)

/-- The audit of a spare context's team (R422): SPARE_ARM completes after the last, or at a failure. -/
def State.armAudit (s : State) (team : Nat) (passed : Bool) : State :=
  match s.faults.arming with
  | some (pc, cmd, left) =>
    if !left.contains team then s
    else if !passed then (s.modFaults fun f => { f with arming := none }).finishRef cmd 0 0 0
    else
      match left.filter fun t => t != team with
      | [] =>
        let s1 := s.setTake fun f =>
          { f with arming := none, armed := (f.armed.filter fun a => a != pc) ++ [pc]
                   take := if f.take = .none ∨ f.take = .failed then .armed else f.take }
        s1.finishRef cmd 0 1 0
      | rest => s.modFaults fun f => { f with arming := some (pc, cmd, rest) }
  | none => s

/-- RECOVERY_AUDIT_COMPLETE (R414, R422). -/
def execRecoveryAuditComplete (team : Nat) (passed : Bool) (s : State) : Result :=
  .next (
    if s.faults.auditing.contains team then
      if passed then
        (s.modFaults fun f =>
          { f with auditing := f.auditing.filter fun a => a != team
                   spareUsed := team :: f.spareUsed }).spareChange
      else (s.retire (.core team 16)).clusterFails team
    else s.armAudit team passed)

/-! ### Stacks (R413, R97) -/

/-- Whether a write may still be in flight to a stack (R413): no fence has ordered it, and it is no engine's completed
work. -/
def Unfenced.inFlight (e : Unfenced) (k : Nat) : Bool :=
  e.place == .stack && !e.moduleDone && e.cells.any fun c => c.1 / stackSize == k

/-- Writes in flight to a stack (R413): each aligned 64-byte unit of them keeps its new bytes or takes its old ones. -/
def State.inFlight (s : State) (k : Nat) : State :=
  let mine (c : Nat × Byte) : Bool := c.1 / stackSize == k
  let old (c : Nat × Byte) : Bool := mine c && Config.choice s.free (c.1 / 64)
  let back := s.unfenced.flatMap fun e => if e.inFlight k then e.cells.filter old else []
  let s1 := s.bumpFree.writeStack back
  { s1 with unfenced := s1.unfenced.map fun e =>
      if e.inFlight k then { e with cells := e.cells.filter fun c => !mine c } else e }

/-- The teams with writes in flight to a stack: of their cores, or of their update engine's blocks (R98). -/
def State.writersOf (s : State) (k : Nat) : List Nat :=
  (s.unfenced.filter fun e => e.inFlight k).map (fun e => e.team) ++
  (List.range 24).filter fun t =>
    match s.writing t with
    | some w => w.2.any fun b => b.fresh.any fun x => x.1 / stackSize == k
    | none => false

/-- The contexts that have teams with writes in flight to a stack, or a SNAPSHOT that is writing its image there. -/
def State.ctxsWriting (s : State) (k : Nat) : List W32 :=
  let ts := s.writersOf k
  let image (x : Ctx) : Bool :=
    match x.snapping with
    | some n => n.startedAt.isSome && (stacksOf n.dest (s.imageSize x)).contains k
    | none => false
  (s.ctxs.filter fun x => (x.2.running && x.2.teams.any fun t => ts.contains t) || image x.2).map fun x =>
    BitVec.ofNat 32 x.1

/-- STACK_CORRECTED after reads that were rebuilt (R413, R437): their number is free (notes/assumptions/34.md). -/
def State.corrected (s : State) : Nat :=
  satTo 0xFFFF (s.faults.stackCorrected + (Config.freeWord s.free).toNat % 65536)

/-- Whether a context has bytes in a stack: of its region, or of its save areas while it is PREEMPTED (R448). -/
def Ctx.inStack (x : Ctx) (k : Nat) : Bool :=
  (stacksOf x.regionBase.toNat x.regionSize.toNat).contains k ||
  (!x.running && x.teams.any fun t => 3 * (t / 6) + 1 == k)

/-- The contexts that use a stack (R101): those with bytes or writes there. -/
def State.ctxsUsing (s : State) (k : Nat) : List W32 :=
  ((s.ctxs.filter fun x => x.2.inStack k).map fun x => BitVec.ofNat 32 x.1) ++
  (s.ctxsWriting k).filter fun c => match s.ctx c with | some x => !x.inStack k | none => false

/-- A pseudo-channel fails (R413): its content is rebuilt, and the writes in flight are resolved by replay. It touches every
context that uses the stack (R101). -/
def State.channelFails (s : State) (k : Nat) : State :=
  let ts := s.writersOf k
  let writing := s.ctxsWriting k
  let users := s.ctxsUsing k
  let s1 := ((s.recordFault 3 k).modFaults fun f =>
    { f with pchFailed := k :: f.pchFailed, filling := k :: f.filling
             stackCorrected := s.corrected }).retire (.channel k)
  (users.foldl (fun s c =>
    if writing.contains c then s.touch c false fun l => ts.any fun t => bitOf l.teams t
    else if s.inWindow c then s.contain c
    else s) (s1.inFlight k)).openWindow (users.map BitVec.toNat)

/-- The bytes of a lost stack have no restore source (R416): each is a free value. -/
def State.loseStack (s : State) (k : Nat) : State :=
  let m := s.stack.filter fun c => c.1 / stackSize == k
  { s.bumpFree with stack := m.foldl (fun m c => memSet m c.1 (freeByte s.free c.1)) s.stack }

/-- Abandons the accepted commands of a control context, and what they had under way elsewhere (R95, R100, R369): a schedule
that an abandoned SCHEDULE_LOAD left pending goes with it, the model's choice (notes/assumptions/57.md). -/
def State.abandonControl (s : State) (c : W32) : State :=
  let mine := (s.cmdsOf c).cmds.filter fun x => !x.done
  let tested := mine.flatMap fun x => if x.opcode = 0x0080 then bitsSet 24 (Packet.field x.pkt 0x00 4) else []
  let s1 := tested.foldl (fun s t => s.modTeam t fun k => { k with testing := false }) s
  let free (x : Ctx) : Ctx :=
    let own := match x.preempting with | some p => p.cmd.ctx == c | none => false
    { x with
      preempting := if own then none else x.preempting
      issueHeld := x.issueHeld && !own
      resuming := match x.resuming with | some r => (if r.cmd.ctx = c then none else some r) | none => none }
  let s2 := (s1.abandonAll c fun _ => false).1
  let pending := match s2.time.pending with | some p => (if p.2.ctx = c then none else some p) | none => none
  { s2 with ctxs := s2.ctxs.map fun x => (x.1, free x.2), time := { s2.time with pending := pending } }

/-- The ledgers are lost with the journal: a completed command whose COMPLETE the module has yet to write is ABANDONED
(R100, notes/assumptions/65.md). -/
def State.loseLedgers (s : State) : State :=
  let gone (x : Cmd) : Cmd :=
    match x.phase with
    | .recorded _ a b at_ => { x with phase := .recorded 0x0204 a b at_ }
    | _ => x
  { s with
    cmds := s.cmds.map fun k => (k.1, { k.2 with ledger := [], cmds := k.2.cmds.map gone })
    fns := s.fns.map fun f =>
      (f.1, { f.2 with held := f.2.held.map fun r => if r.kind = 2 then { r with status := 0x0204 } else r }) }

/-- A journal copy is lost (R97, R100, R101): it is rebuilt. The fault touches every context: one in the window of an
earlier fault is FAULTED, and the window of this one is open until the new copy is complete. Where no copy is left, the
journal is lost. -/
def State.loseCopy (s : State) (k : Nat) : State :=
  if !s.journal.copies.contains k then s
  else
    match s.journal.copies.filter fun c => c != k with
    | [] =>
      let s1 : State := { s with journal := { s.journal with copies := [], rebuilding := true } }
      let s2 := (List.range 64).foldl (fun s f =>
        if s.fnExists f then (s.modFn f fun k => { k with journalLost := true }).pulse (64 + f) else s) s1
      let s3 := (s2.ctxs.map Prod.fst).foldl (fun s c => s.contain (BitVec.ofNat 32 c)) s2
      (((s3.cmds.map Prod.fst).filter fun c => c % 2 ^ 26 == 0).foldl (fun s c =>
        s.abandonControl (BitVec.ofNat 32 c)) s3.loseLedgers)
    | left =>
      let all := s.ctxs.map Prod.fst
      let s1 := (all.filter fun c => s.inWindow (BitVec.ofNat 32 c)).foldl (fun s c => s.contain (BitVec.ofNat 32 c)) s
      { s1 with journal := { s1.journal with copies := left, rebuilding := true, touched := all } }

/-- A stack goes out of service (R412 class 4, R416). -/
def State.stackFails (s : State) (k : Nat) : State :=
  let hit := s.ctxs.filter fun x => x.2.inStack k
  let s1 := ((s.recordFault 4 k).modFaults fun f =>
    { f with stackOut := k :: f.stackOut, filling := f.filling.filter fun x => x != k }).spareChange
  let s2 := hit.foldl (fun s x => (s.loseUnit (BitVec.ofNat 32 x.1)).emptySlots x.2.teams) (s1.retire (.stack k))
  (s2.loseStack k).loseCopy k

/-- PSEUDO_CHANNEL_FAULT (R413): a second fault in a stack is a stack fault. -/
def execPseudoChannelFault (stack : Nat) (s : State) : Result :=
  .next (if 12 ≤ stack || s.faults.stackOut.contains stack then s
    else if s.faults.pchFailed.contains stack then s.stackFails stack
    else s.channelFails stack)

/-- SPARE_FILL_COMPLETE (R413): the spare pseudo-channel is in service. -/
def execSpareFillComplete (stack : Nat) (s : State) : Result :=
  .next (if s.faults.filling.contains stack then
      (s.bumpFree.modFaults fun f =>
        { f with filling := f.filling.filter fun x => x != stack, pchUsed := stack :: f.pchUsed
                 stackCorrected := s.corrected }).spareChange
    else s)

/-- STACK_FAULT (R412 class 4): a second pseudo-channel fault, or a fault of the controller or interface. -/
def execStackFault (stack : Nat) (cause : StackCause) (s : State) : Result :=
  .next (if 12 ≤ stack || s.faults.stackOut.contains stack then s
    else
      match cause with
      | .secondChannel => if s.faults.pchFailed.contains stack then s.stackFails stack else s
      | .interface => s.stackFails stack)

/-- The stack for a new journal copy (R97): a region that is free and in service, on a die other than that of the
surviving copy; where more than one is, the choice is free. -/
def State.standby (s : State) : Option Nat :=
  let l := [4, 10, 1, 7].filter fun k =>
    !s.journal.copies.contains k && !s.faults.stackOut.contains k &&
    s.journal.copies.all fun c => c / 3 != k / 3
  match l with
  | [] => none
  | [a] => some a
  | a :: b :: _ => some (if Config.choice s.free 0 then a else b)

/-- JOURNAL_REBUILD_COMPLETE (R97): the new copy is in service and intake resumes. -/
def execJournalRebuildComplete (s : State) : Result :=
  .next (if !s.journal.rebuilding then s
    else
      match s.standby with
      | some k =>
        let l := s.journal.copies ++ [k]
        { s.bumpFree with journal :=
            { s.journal with copies := l, rebuilding := decide (l.length < 2), touched := [] } }
      | none => s)

/-! ### Management cores and whole-module faults -/

/-- A packet that the failed core held is read again (R74): SQ_HEAD stands before it. A REJECTED or DUPLICATE reply that
it wrote stays; an ACCEPTED one that is the last written and not consumed was not written after all, or stays. -/
def State.readAgain (s : State) (f : Nat) : State :=
  let k := s.fn f
  match k.inHand with
  | none => s
  | some (r, old) =>
    if !k.sqOn || !k.rqOn || k.rqConsumed = k.rqTail || k.written.getLast? != some r ||
        (k.sqHead + 2 ^ k.sqLog - 1) % 2 ^ k.sqLog = k.sqTail then s
    else
      let n := 2 ^ k.rqLog
      let tail := (k.rqTail + n - 1) % n
      let s1 := s.modFn f fun k => { k with inHand := none, sqHead := (k.sqHead + 2 ^ k.sqLog - 1) % 2 ^ k.sqLog }
      if r.kind = 1 then
        ({ s1 with hostMem := memWrite s1.hostMem (k.rqBase * 4096 + 32 * tail) old }).modFn f fun x =>
          { x with
            rqTail := tail, written := x.written.dropLast
            phase := if k.rqTail = 0 then !x.phase else x.phase }
      else s1

/-- The remaining cores take the contexts of a failed sorting-office core and replay them (R100, R412 class 8): which those
were is a free choice. A replay that it ran has met a second fault (R101); other launches run on, and what restarts does. -/
def State.coreFails (s : State) : State :=
  let mine (k : Nat) (l : List Nat) : List Nat := l.filter fun c => Config.choice s.free (k + c)
  let all := s.ctxs.map Prod.fst
  let hit := (mine 0 all).filter fun c => s.journal.replaying.contains c
  let other := (mine 0 all).filter fun c => !s.journal.replaying.contains c
  let wait (y : Cmd) : Cmd := if y.phase == .accepted then { y with replayed := true } else y
  let s1 := (hit.foldl (fun s c =>
    if s.inWindow (BitVec.ofNat 32 c) then s.contain (BitVec.ofNat 32 c) else s) s.bumpFree).openWindow hit
  let s2 := other.foldl (fun s c =>
    (s.restartCmds (BitVec.ofNat 32 c)).modCmds (BitVec.ofNat 32 c) fun k => { k with cmds := k.cmds.map wait }) s1
  (mine (2 ^ 32) (List.range 64)).foldl (fun s f => if s.fnExists f then s.readAgain f else s) s2

/-- MC_HEARTBEAT_MISS (R74, R100, R101, R412 classes 8 and 9, R415): both postmaster cores lost fence the module. -/
def execMcHeartbeatMiss (core : Nat) (s : State) : Result :=
  .next (
    if !s.faults.cores.contains core then s
    else
      let s1 := (s.recordFault (if core < 6 then 8 else 9) core).modFaults fun f =>
        { f with cores := f.cores.filter fun c => c != core }
      if core < 6 then s1.coreFails
      else if s1.faults.cores.contains 6 || s1.faults.cores.contains 7 then s1 else s1.fence)

/-- DIE_LINK_FAULT (R412, R415): a die link (0 to 3) or the hub die fails. -/
def execDieLinkFault (_die : Nat) (s : State) : Result := .next (if s.powered then s.fence else s)

/-- RAIL_FAULT (R495, R498): PWRGD goes low, the module fences; during start-up it stops at the step under way. -/
def execRailFault (s : State) : Result :=
  .next (
    let s1 := s.fence
    if !s.powered then s
    else { s1 with power := { s1.power with
        pwrGood := false
        failedStep := if s.power.boot = .starting then s.power.bootStep + 1 else s1.power.failedStep } })


/-- FAULT_IN_ASSERT (R415, R466): registered when held 20 ns, free between 10 and 20; held for 1 µs it fences the
module. -/
def execFaultInAssert (heldNs : Nat) (s : State) : Result :=
  .next (
    if s.power.boot = .noSupply then s
    else if heldNs < 10 || (heldNs < 20 && !Config.choice s.free 0) then s.bumpFree
    else
      let s1 := s.bumpFree.modFaults fun f => { f with faultIn := true }
      if heldNs < 1000 then s1 else s1.fence)

/-- FAULT_IN_RELEASE (R466). -/
def execFaultInRelease (s : State) : Result := .next (s.modFaults fun f => { f with faultIn := false })

/-! ### Ports, lanes and light (R374 to R377) -/

/-- Changes a port. -/
def State.modPort (s : State) (p : Nat) (f : Port → Port) : State :=
  s.modFabric fun x => { x with ports := mapPut x.ports p (f (s.port p)) }

/-- Moves a port to a state; entering or leaving UP raises PORT_CHANGE (R463). -/
def State.movePort (s : State) (p : Nat) (st : PortState) : State :=
  let was := (s.port p).state
  let s1 := s.modPort p fun x => { x with state := st }
  if (was == .up) != (st == .up) then s1.pulse 197 else s1

/-- The lanes that carry traffic in UP (R373, R375): 0 to 7 without the retired one, and the spare in its place. -/
def upLanes (retired : List Nat) : BitVec 9 :=
  BitVec.ofNat 9 (maskOf ((List.range 9).filter fun l =>
    if l = 8 then !retired.isEmpty else !retired.contains l))

/-- A port that comes up with a retired lane for the first time brings its spare lane into service (R39, R41, R375). -/
def State.spareLane (s : State) (p : Nat) : State :=
  if (s.port p).retired.isEmpty || s.faults.laneUsed.contains p then s
  else (s.modFaults fun f => { f with laneUsed := p :: f.laneUsed }).spareChange

/-- A port comes up. -/
def State.portUp (s : State) (p : Nat) : State :=
  (((s.spareLane p).modPort p fun x => { x with laneMap := upLanes x.retired, attempts := 0 }).movePort p .up).flushWaiting

/-- A port carries nothing any more. In a swap it keeps its neighbour (R408). -/
def State.portStop (s : State) (p : Nat) (st : PortState) : State :=
  let quiet (x : Port) : Port := { x with laneMap := 0, attempts := 0 }
  (s.modPort p fun x =>
    if st = .swapping then quiet x else
      { quiet x with peerPostcode := 0xFFFF, peerPort := 0xFF, peerVersion := none, peerHops := none
                     adverts := [] }).movePort p st

/-- The frames that were sent on a port, in the order sent. -/
def State.framesOn (s : State) (p : Nat) : List Frame :=
  s.fabric.out.filterMap fun o =>
    match o with
    | .frame q f => if q = p then some f else none
    | _ => none

/-- Sends the unacknowledged frames of a port that has left UP again (R376): the last ones that were sent on it, at least
`least` of them; how many is free (notes/assumptions/28.md). -/
def State.resendFrames (s : State) (p least : Nat) : State :=
  let l := s.framesOn p
  let n := max least ((Config.freeWord s.free).toNat % (l.length + 1))
  (l.drop (l.length - n)).foldl (fun s f => s.transmit f) s.bumpFree

/-- A port leaves its state and carries nothing; what it sent in UP and is not acknowledged goes on another way. -/
def State.portDown (s : State) (p : Nat) (st : PortState) (least : Nat) : State :=
  let s1 := s.portStop p st
  if (s.port p).state = .up then s1.resendFrames p least else s1

/-- PORT_PARTNER_DETECT (R374): a port in DOWN trains. -/
def execPortPartnerDetect (port : Nat) (s : State) : Result :=
  .next (if port < 32 ∧ (s.port port).state = .down ∧ s.faults.selfFenced = false ∧ s.portsRun then
      s.modPort port fun x => { x with state := .training, retrains := satTo 0xFF (x.retrains + 1) }
    else s)

/-- Forgets the ways by a port: its new partner has advertised nothing yet. -/
def State.forgetWays (s : State) (p : Nat) : State :=
  s.modFabric fun f => { f with routes := f.routes.map fun r => (r.1, { r.2 with via := mapDrop r.2.via p }) }

/-- A training that failed: the port is DOWN (R374). A second one in a row is a fault of class 6 (R412); PORT_OUT stays
for a port that lost a second lane (R41, notes/assumptions/58.md). -/
def State.trainingFails (s : State) (p : Nat) : State :=
  let again := decide (1 ≤ (s.port p).failures)
  let s1 := (s.portDown p .down 0).modPort p fun x => { x with failures := satTo 0xFF (x.failures + 1) }
  if again then s1.recordFault 6 p else s1

/-- TRAINING_COMPLETE (R48, R374): DELAY is the operand, corrected by the asymmetry that training calibrates. A link to
another port of this module is never brought up (R378). -/
def execTrainingComplete (port : Nat) (result : TrainResult) (s : State) : Result :=
  .next (if (s.port port).state != .training || !s.portsRun then s
    else
      match result with
      | .up delay pc peer own =>
        if own then s.trainingFails port
        else
          ((s.bumpFree.forgetWays port).modPort port fun x =>
            { x with delay := delay, peerPostcode := pc, peerPort := peer, failures := 0
                     adverts := if pc = 0xFFFF then [] else [pc]
                     asymmetry := (Config.freeWord s.free).setWidth 16 }).portUp port
      | .down => s.trainingFails port)

/-- PORT_PARTNER_LOSS (R376): the port goes to DOWN. -/
def execPortPartnerLoss (port : Nat) (s : State) : Result :=
  .next (match (s.port port).state with
    | .up | .training | .swapping => s.portDown port .down 0
    | _ => s)

/-- LANE_RETIRE (R375, R412 classes 5 and 6): the first lane is replaced by the spare, at once where the port is UP and
otherwise when it comes up; a second takes the port out. -/
def execLaneRetire (port lane : Nat) (s : State) : Result :=
  .next (
    let x := s.port port
    if !s.portServes port || 9 ≤ lane || x.state == .dark || x.retired.contains lane ||
        (lane == 8 && x.retired.isEmpty) then s
    else
      let s1 := ((s.retire (.lane port lane)).modPort port fun x => { x with retired := lane :: x.retired }).pulse 197
      if x.retired.isEmpty then
        let s2 := s1.recordFault 5 port
        if x.state = .up then s2.portDown port .swapping 0 else s2
      else
        (((s1.recordFault 6 port).portDown port .out 0).modFaults fun f =>
          { f with portOut := port :: f.portOut }).spareChange)

/-- SWAP_COMPLETE (R375): the spare lane is in service and the port is UP again. -/
def execSwapComplete (port : Nat) (s : State) : Result :=
  .next (if (s.port port).state != .swapping then s else s.portUp port)

/-- LINK_LEVEL_RESEND (R376, R383): a hop sends a frame again. The first sending is the first of the 8 attempts, so the
seventh resend that fails takes the port to DOWN. -/
def execLinkLevelResend (port : Nat) (failed : Bool) (s : State) : Result :=
  .next (if (s.port port).state != .up then s
    else
      let s1 := s.modStats fun t => { t with hopRetries := t.hopRetries + 1 }
      if !failed then s1.modPort port fun x => { x with attempts := 0 }
      else if 6 ≤ (s.port port).attempts then s1.portDown port .down 1
      else s1.modPort port fun x => { x with attempts := x.attempts + 1 })

/-- Whether a cartridge delivers light. -/
def State.cartOk (s : State) (n : Nat) : Bool := if n = 0 then s.fabric.cart0 else s.fabric.cart1

/-- A change of cartridge state (R377): LASER, and CART_CHANGES. -/
def State.cartChange (s : State) : State :=
  (s.modStats fun t => { t with cartChanges := satTo 0xFF (t.cartChanges + 1) }).pulse 198

/-- Sets a cartridge's state. -/
def State.setCart (s : State) (n : Nat) (on : Bool) : State :=
  (s.modFabric fun f => if n = 0 then { f with cart0 := on } else { f with cart1 := on }).cartChange

/-- Every port goes dark, but for those out of service (R374, R492). -/
def State.darkPorts (s : State) : State :=
  (List.range 32).foldl (fun s p =>
    s.modPort p fun x => { x with state := if x.state = .out then .out else .dark }) s

/-- Ports that the grade exposes have light again where a cartridge delivers it: they are DOWN (R374, R408). -/
def State.lightPorts (s : State) : State :=
  if s.fabric.cart0 || s.fabric.cart1 then
    let dark := (List.range 32).filter fun p => (s.port p).state == .dark && !(s.part9620 && decide (16 ≤ p))
    dark.foldl (fun s p => s.modPort p fun x => { x with state := .down }) s
  else s

/-- CARTRIDGE_FAIL (R377, R412 class 7): with no light every port is DARK and the module fences. While no port has power,
only the cartridge's own state changes. -/
def execCartridgeFail (cartridge : Nat) (s : State) : Result :=
  .next (if 2 ≤ cartridge || !s.cartOk cartridge then s
    else if !s.powered then
      s.modFabric fun f => if cartridge = 0 then { f with cart0 := false } else { f with cart1 := false }
    else
      let s1 := (s.recordFault 7 cartridge).setCart cartridge false
      if s1.fabric.cart0 || s1.fabric.cart1 then s1
      else
        let lit := (List.range 32).filter fun p => (s1.port p).state != .out
        let up := (List.range 32).filter fun p => (s1.port p).state == .up
        (up.foldl (fun s p => s.resendFrames p 0) (lit.foldl (fun s p => s.portStop p .dark) s1)).fence)

/-- CARTRIDGE_INSERT (R377): its check begins. -/
def execCartridgeInsert (cartridge : Nat) (s : State) : Result :=
  .next (if 2 ≤ cartridge || s.cartOk cartridge || !s.powered then s else s.cartChange)

/-- CARTRIDGE_READY (R374, R377): it delivers light; dark ports that the grade exposes are DOWN. It is brought to its load
only while the module has power. -/
def execCartridgeReady (cartridge : Nat) (s : State) : Result :=
  .next (if 2 ≤ cartridge || s.cartOk cartridge || !s.powered then s
    else (s.setCart cartridge true).lightPorts)

/-! ### Replay (R100) -/

/-- The store of a team with every copied row written back (R322). -/
def Team.restoreRows (k : Team) : Team :=
  let acs := k.acsRows.foldl (fun m r =>
    ((List.range r.2.length).foldl (fun m i =>
      let v := r.2.getD i 0
      if v = 0 then mapDrop m (3 * r.1 + i) else mapPut m (3 * r.1 + i) v) m)) k.acs
  { k with acs := acs, acsRows := [] }

/-- A team before the rerun of a launch (R100 step 5, R276, R293, R322): its sync objects and parcel slots as the
launch record holds them, its store rows, also those that a launch after it has left to it, its stagings drawn again. What
it reads as it streams is read from now on (R254). -/
def Team.rerun (k old : Team) (rows : SMap (List (BitVec 40))) (log : Nat) : Team :=
  let r := { k.restoreRows with acsRows := rows }.restoreRows
  { r with
    sync := old.sync, sampler := (old.streamsAfter log).sampler
    rows := { r.rows with slots := r.rows.slots.map fun x =>
      (x.1, if x.2.phase == .staging then { x.2 with phase := .queued } else x.2) } }

/-- Whether some range of a context's state list that another module holds covers a piece of STACK (R417). -/
def State.replicaOf (s : State) (c : W32) (x : Ctx) (at_ n : Nat) : Bool :=
  (s.listRanges x).any fun r =>
    let a := x.regionBase.toNat + r.offset
    r.source != 0xFFFF && r.source != s.postcodeOf c && decide (a ≤ at_) && decide (at_ + n ≤ a + r.bytes)

/-- Whether a block that is BEGUN has a restore source (R98 to R100): the buddy mirror of its table, or a replica peer. -/
def State.hasSource (s : State) (c : W32) (x : Ctx) (b : Block) : Bool :=
  s.mirrored c b || b.fresh.all fun y => s.replicaOf c x y.1 y.2.2.length

/-- Settles a block before its launch runs again (R100 step 4): STAGED, it is restored from its scratch copy; BEGUN, it is
copied from its source with the source's mark, which is a free choice (notes/assumptions/60.md). -/
def State.settleBlock (s : State) (c : W32) (t : Nat) (b : Block) : State × Block :=
  match b.mark with
  | .done => (s, b)
  | .staged => (s.putBlock c t s.stackLog.length b, b.done)
  | .begun =>
    if Config.choice s.free 0 then (s.bumpFree.putBlock c t s.stackLog.length b, b.done)
    else (b.old.foldl (fun s x => s.writeStackAt x.1 x.2) s.bumpFree, { b with fresh := [], old := [] })

/-- Settles the blocks of an interrupted launch in their order; those that it skips or whose values it takes next. -/
def State.settleBlocks (s : State) (c : W32) (l : Launch) : State × List Block :=
  let r := l.wrote.foldl (fun (a : State × List Block) b =>
    let y := a.1.settleBlock c ((bitsSet 24 l.teams).headD 0) b
    (y.1, a.2 ++ [y.2])) (s, [])
  (r.1, r.2 ++ l.skip)

/-- Puts an interrupted LAUNCH back to its start (R98, R100 steps 4 and 5, R199, R400). -/
def State.rerun (s0 : State) (c : W32) (l : Launch) : State :=
  let b := s0.settleBlocks c l
  let s := b.1
  let s1 := (bitsSet 24 l.teams).foldl (fun s t =>
    s.modTeam t fun k =>
      k.rerun (mapGetD l.startTeams Team.reset t) (mapGetD l.acsRows [] t) s.stackLog.length) s
  let s2 := s1.modCtx c fun x =>
    { x with counters := l.counters, launches := x.launches.filter fun y => y.seq != l.seq }
  let s3 := s2.modFabric fun f =>
    { f with roles := f.roles.map fun r => if r.2.ctx == c then (r.1, { r.2 with issued := l.issued }) else r }
  s3.modCmd c l.seq fun x =>
    if x.over then x else { x with phase := .accepted, replayed := true, skip := b.2 }

/-- Runs every interrupted launch of a context again, the latest put back first. Where a torn block has no restore source,
the context is FAULTED: it falls back to its last snapshot (R98 to R101, notes/assumptions/60.md). -/
def State.rerunAll (s : State) (c : W32) : State :=
  match s.ctx c with
  | none => s
  | some x =>
    let cut := x.launches.filter fun l => l.interrupted
    if cut.any fun l => l.wrote.any fun b => b.mark == .begun && !s.hasSource c x b then s.contain c
    else ((sortOn (fun l : Launch => l.seq.toNat) cut).reverse).foldl (fun s l => s.rerun c l) s

/-- JOURNAL_REPLAY (R100): the uncompleted records of a context go on in SEQ order; a context saved by a reset is
restored first, once its teams are free, and a lost cluster is audited first (R414, R494). -/
def execJournalReplay (ctx : W32) (s : State) : Result :=
  .next (
    if !s.journal.replaying.contains ctx.toNat || s.power.boot != .running || s.journal.copies.isEmpty then s
    else
      let done (s : State) : State := s.endReplay ctx
      match s.ctx ctx with
      | none => done s
      | some x =>
        if x.teams.any fun t => s.faults.auditing.contains t then s
        else if x.restoreDue then
          if x.teams.all s.teamFree then
            done (((s.restoreTeams ctx).modCtx ctx fun y => { y with restoreDue := false }).rerunAll ctx)
          else s
        else done (s.rerunAll ctx))

end Sys2Proof.Machine
end

