-- ==== Sys2Proof/Machine/Finish.lean ====
section
/-! DEFINITION. Snapshots and their restoration, self-test, and the completion of commands (spec/15 R417 to
R421, spec/18 R499, spec/03 R88, R94; spec/02 R63). -/

namespace Sys2Proof.Machine

open Sys2Proof

/-! ### Snapshots (R418, R419) -/

/-- The header of an image (R418). -/
def snapHeader (id : W32) (idrev : W64) (steps : List Byte) (size : Nat) (start : W64) (teams : Nat) (crc : W32) :
    List Byte :=
  leBytes 4 0x50414E53 ++ leBytes 4 id.toNat ++ leBytes 8 idrev.toNat ++ bytesAt steps 0 24 ++ leBytes 8 size ++
  leBytes 8 start.toNat ++ leBytes 4 teams ++ leBytes 4 crc.toNat ++ leBytes 4032 0

/-- The bytes of the on-chip part, which the spec does not describe: free values under a number of their own. -/
def onChipBytes (key n : Nat) : List Byte := (List.range n).map fun i => freeByte (2 ^ 64 + key) i

/-- The on-chip saved state of a context (R418, R449). -/
def State.onChip (s : State) (c : W32) (x : Ctx) (counters : List Nat) : OnChip :=
  { teams := x.teams.map fun t => (t, (s.team t).toSave (x.span == 1))
    hub := s.hub.filter fun o => o.2.owner == c
    counters := counters, graphs := x.graphs, tables := x.tables }

/-- Puts a record into a function's table (R419): the older of two of its context is replaced, a full table drops
its oldest. -/
def addSnap (l : List SnapRec) (r : SnapRec) : List SnapRec :=
  let l1 := if 2 ≤ (l.filter fun y => y.ctx == r.ctx).length then eraseFirst (fun y => y.ctx == r.ctx) l else l
  (l1 ++ [r]).drop ((l1.length + 1) - 16)


/-- The postmark that a given AT places a snapshot at (R63). -/
def State.snapPlace (s : State) (at_ : W64) : Nat :=
  match s.time.active with
  | some c => if at_.toNat ≤ c.start.toNat then c.start.toNat else
      c.start.toNat + ceilDiv (at_.toNat - c.start.toNat) c.roundNs * c.roundNs
  | none => at_.toNat

/-! ### The pre-emption point (R63, R64, R368) -/

/-- Whether an operation that awaits its answer over the fabric is a watch or a signal (R368). -/
def RemoteWork.registers : RemoteWork → Bool
  | .watch _ _ | .signal _ _ false => true
  | _ => false

/-- Whether an operation is an arrival, held for its mirrors (R304), at a barrier that a context owns (R368). -/
def State.heldArrival (s : State) (c : W32) (r : Remote) : Bool :=
  match r.work with
  | .arrive _ index _ held => held && r.dest == 0xFFFF && (s.ownedHub c).contains index
  | _ => false

/-- Whether a fabric context stands at a quiescent point: the five conditions of R368. -/
def State.quiescent (s : State) (c : W32) (x : Ctx) : Bool :=
  let ts := x.teams
  (ts.all fun t =>
    (s.team t).watches.isEmpty && (s.team t).waiting.isEmpty &&
    (s.team t).sync.all fun o => o.2.value == 0 && !o.2.poisoned) &&
  (s.watchesFrom ts).isEmpty &&
  (s.hubWatches.all fun w => !(s.ownedHub c).contains w.obj) &&
  (s.hub.all fun o => o.2.owner != c || (o.2.tally.isEmpty && o.2.placed.isEmpty)) &&
  (s.fabric.arriving.all fun a => !(s.ownedHub c).contains a.1) &&
  (s.fabric.remote.all fun r => (r.ctx != c || !r.work.registers) && !s.heldArrival c r) &&
  s.fabric.colls.all fun y => y.ctx != c

/-- Takes a context's pre-emption point where it has come (R63, R368, R450): issue stops in its teams. One that falls
within a snapshot's stop time waits for its end (R64). -/
def State.takePoint (s : State) (ctx : W32) : State :=
  match s.ctx ctx with
  | none => s
  | some x =>
    match x.preempting with
    | none => s
    | some p =>
      let inSnapshot := match x.snapping with | some n => n.startedAt.isSome | none => false
      if p.stoppedAt.isSome || s.postmark.toNat < p.at_.toNat || inSnapshot || !x.running ||
          (x.span == 1 && !s.quiescent ctx x) then s
      else s.endDoze.modCtx ctx fun x =>
        { x with issueHeld := true, pausedAt := s.postmark, preempting := some { p with stoppedAt := some s.postmark } }

/-- SNAPSHOT_START (R63, R418): the context stops. -/
def execSnapshotStart (ctx : W32) (s : State) : Result :=
  .next (match s.ctx ctx with
    | none => s
    | some x =>
      match x.snapping with
      | none => s
      | some p =>
        if p.startedAt.isSome || !x.running || !s.snapTime p.at_ || !s.inTurn 2 then s
        else
          let s1 := s.endDoze.modCtx ctx fun x =>
            { x with issueHeld := true, pausedAt := s.postmark
                     snapping := some { p with startedAt := some s.postmark, counters := x.counters } }
          match s.cmd ctx p.cmd.seq with
          | some y => if p.at_ ≠ 0 ∧ s.snapPlace p.at_ < y.startedAt.toNat then s1.lateEvent else s1
          | none => s1)

/-- Writes bytes at an offset of a context's region for a command of that context: none outside the region, and none of a
reserved area (R113, R445). -/
def State.regionPut (s : State) (x : Ctx) (off : Nat) (b : List Byte) : State := s.busWrite (s.regionCells x off b)

/-- What a snapshot image holds after its header (R418, R419): the first 0x82_0000 bytes of the region, the ranges of
the list, and the on-chip part, whose bytes are free. Of a range that leaves the region, which the list must not hold
(R417), the bytes outside read as zero (R445, notes/assumptions/57.md). -/
def State.snapBody (s : State) (x : Ctx) (n : Nat) : List Byte :=
  let m := s.busView
  memRead m x.regionBase.toNat 0x820000 ++ ((s.listRanges x).flatMap fun r => s.regionRead x m r.offset r.bytes) ++
    onChipBytes s.free n

/-- A snapshot image: its 4,096-byte header, whose CRC covers the image with CRC zero, and the rest (R419). -/
def State.snapImage (s : State) (x : Ctx) (id : W32) (start : W64) (steps body : List Byte) : List Byte :=
  let head (crc : W32) : List Byte := snapHeader id s.idrev steps (4096 + body.length) start x.teams.length crc
  head (crc32 (head 0 ++ body)) ++ body

/-- SNAPSHOT_COMPLETE (R418, R419, R421): the image, the record, the header for the covering modules; a pre-emption
point that came meanwhile is taken before any instruction issues (R64). -/
def execSnapshotComplete (ctx : W32) (s : State) : Result :=
  .next (match s.ctx ctx with
    | none => s
    | some x =>
      match x.snapping with
      | none => s
      | some p =>
        match p.startedAt with
        | none => s
        | some start =>
          let steps := memRead s.busView (x.listAt + 8) 24
          let n := onChipSize x.teams.length
          let body := s.snapBody x n
          let size := 4096 + body.length
          let img := s.snapImage x p.id start steps body
          let s1 := (s.correctStores x.teams).bumpFree.regionPut x (p.dest - x.regionBase.toNat) img
          let r : SnapRec := ⟨p.id, ctx, p.dest, size, BitVec.ofNat 64 (fieldAt steps 0 8),
            BitVec.ofNat 64 (fieldAt steps 8 8), BitVec.ofNat 64 (fieldAt steps 16 8), x.teams.length,
            x.regionBase, x.regionSize, s.idrev⟩
          let s2 := s1.modFn (fnOf ctx) fun k => { k with snaps := addSnap k.snaps r }
          let s3 : State := { s2 with snapped :=
              ⟨ctx, p.id, p.dest, s.onChip ctx x p.counters, s.free, n⟩ :: s2.snapped.filter fun y => y.dest != p.dest }
          let s4 := (s3.modCtx ctx fun x => { x with snapping := none, issueHeld := false }).takePoint ctx
          let pc := s.postcodeOf ctx
          let s5 := if x.span = 1 ∧ pc ≠ 0xFFFF then
              s4.emitOut (.snapshotHeader pc (img.take 4096) (memRead s.busView x.regionBase.toNat 65536)) else s4
          s5.finishRef p.cmd 0 ((s.postmark.toNat - start.toNat) / 1000) (ceilDiv size 1048576))

/-! ### RESTORE (R420) -/

/-- The on-chip part that an image's bytes stand for; none where the image fails a check of R420. -/
def State.imageOk (s : State) (r : SnapRec) : Option OnChip :=
  let b := memRead s.busView r.dest r.size
  let zeroed := b.take 0x3C ++ leBytes 4 0 ++ b.drop 0x40
  if fieldAt b 0 4 = 0x50414E53 ∧ fieldAt b 8 8 = s.idrev.toNat ∧ fieldAt b 0x3C 4 = (crc32 zeroed).toNat then
    (s.snapped.find? fun y =>
      y.dest == r.dest && b.drop (r.size - y.size) == onChipBytes y.key y.size).map fun y => y.chip
  else none

/-- Writes back the first 0x82_0000 bytes and the ranges of an image, which its own list gives. -/
def State.writeBack (s : State) (x : Ctx) (dest : Nat) : State :=
  let s1 := s.regionPut x 0 (memRead s.busView (dest + 4096) 0x820000)
  ((s1.listRanges x).foldl (fun (a : State × Nat) r =>
    (a.1.regionPut x r.offset (memRead s.busView a.2 r.bytes), a.2 + r.bytes))
    (s1, dest + 4096 + 0x820000)).1

/-- A hub object as RESTORE leaves it: of a fabric context, a barrier has an empty tally and the step before
NEXT_STEP as its last released step; the release's values are free. -/
def restoredHub (c : W32) (fabric : Bool) (free : Nat) (next : W64) (o : HubObj) : HubObj :=
  if fabric && o.barrier then
    let r : Release := ⟨next - 1, (Config.freeWord free).setWidth 32, (Config.freeWord (free + 1)).setWidth 32⟩
    { o with owner := c, tally := [], last := some r, released := some r, lastTo := [], placed := [] }
  else { o with owner := c }

/-- The hub objects of a context that RESTORE puts back, with NEXT_STEP of the image (R420). -/
def State.hubAsRestored (s : State) (c : W32) (fabric : Bool) (next : W64) : State :=
  { s with
    free := s.free + 2
    hub := s.hub.map fun o => (o.1, if o.2.owner == c then restoredHub c fabric s.free next o.2 else o.2) }

/-- Puts the on-chip part back (R420): team i of the image goes to the i-th team of the context, and the hub objects of
the image are those of the context that is restored. -/
def State.putChip (s : State) (c : W32) (x : Ctx) (chip : OnChip) (next : W64) : State :=
  let s1 := (x.teams.zip (mapVals chip.teams)).foldl (fun s y =>
    { s with teams := mapPut s.teams y.1 (y.2.streamsAfter s.stackLog.length) }) (s.dropUnfenced x.teams)
  let fabric := x.span == 1
  let s2 := chip.hub.foldl (fun s o =>
    match mapGet s.hub o.1 with
    | some h =>
      if h.owner = c then
        { s with hub := mapPut s.hub o.1 (if fabric && h.barrier then h else { o.2 with owner := c }) } else s
    | none => { s with hub := mapPut s.hub o.1 { o.2 with owner := c } }) s1
  (s2.hubAsRestored c fabric next).modCtx c fun x =>
    { x with counters := chip.counters, graphs := chip.graphs, tables := chip.tables, faulted := false }

/-- The new holder of a lost role has no image of its own: it writes the stream table of its record and asks each
source for the ranges in the source's image of the snapshot (R432). -/
def State.restoreFromSources (s : State) (c : W32) (x : Ctx) (y : Cmd) (r : List Byte × List Byte) : State :=
  let ref : CmdRef := ⟨c, y.seq⟩
  let pc := s.postcodeOf c
  if s.faults.restoring = some ref then s
  else
    let s1 := s.regionPut x 0 r.2
    let ranges := s1.listRanges x
    if ranges.any fun g => g.source == 0xFFFF || g.source == pc then s1.finishCmd c y.seq 0x0204 0 0
    else
      (ranges.foldl (fun s g => s.emitOut (.copyRequest g.source 0 g.srcOff g.bytes
        (some (BitVec.ofNat 32 (Packet.field y.pkt 0x00 4))))) s1).modFaults fun f => { f with restoring := some ref }

/-- The copies of a RESTORE have come, or one of them fails (R432): the ranges are written, the cluster objects
and the barriers are as R420 leaves those of a fabric context, and FAULTED clears. -/
def State.restoreCopied (s : State) (ref : CmdRef) (x : Ctx) (copies : List (List Byte)) (failed : Bool) : State :=
  let s0 := s.modFaults fun f => { f with restoring := none }
  let ranges := s.listRanges x
  if failed then s0.finishRef ref 0x0204 0 0
  else if copies.map List.length != ranges.map (fun r => r.bytes) then s
  else
    let next : W64 := match mapGet s.faults.records (s.postcodeOf ref.ctx).toNat with
      | some r => BitVec.ofNat 64 (fieldAt r.1 0x10 8)
      | none => 0
    let s1 := (ranges.zip copies).foldl (fun s r => s.regionPut x r.1.offset r.2) s0
    let s2 := x.teams.foldl (fun s t => s.modTeam t fun k =>
      { k with sync := k.sync.map fun o => (o.1, { o.2 with value := 0 }) }) s1
    let s3 := ((s2.hubAsRestored ref.ctx true next).forgetReleases ref.ctx).modCtx ref.ctx fun x =>
      { x with faulted := false }
    s3.finishRef ref 0 (s.usSince ref s.postmark) 0

/-- RESTORE is performed (R420): a failing image completes it with BAD_PARAM. -/
def State.restore (s : State) (c : W32) (y : Cmd) : State :=
  match s.ctx c with
  | none => s
  | some x =>
    match s.restorable c x (Packet.field y.pkt 0x00 4) with
    | none =>
      (match s.takenRecord c x (Packet.field y.pkt 0x00 4) with
       | some r => s.restoreFromSources c x y r
       | none => s.finishCmd c y.seq 0x0102 noField 0)
    | some r =>
      match s.imageOk r with
      | none => s.finishCmd c y.seq 0x0102 noField 0
      | some chip =>
        let next : W64 := BitVec.ofNat 64 (memNat s.busView (r.dest + 0x10) 8)
        (((s.writeBack x r.dest).putChip c x chip next).forgetReleases c).finishCmd c y.seq 0
          ((s.postmark.toNat - y.startedAt.toNat) / 1000) 0

/-- The copies that a RESTORE of a new holder waits for have ended (R432). -/
def State.restoreEnds (s : State) (copies : List (List Byte)) (failed : Bool) : State :=
  match s.faults.restoring with
  | some ref =>
    (match s.ctx ref.ctx, s.cmd ref.ctx ref.seq with
     | some x, some _ => s.restoreCopied ref x copies failed
     | _, _ => s.modFaults fun f => { f with restoring := none })
  | none => s

/-- TAKEOVER_COPY_COMPLETE (R426): every range holds the bytes of its source, and the module has JOINED; or
the copy fails. With no takeover that copies, the copies are those of a RESTORE (R432, notes/assumptions/63.md). -/
def execTakeoverCopyComplete (copies : List (List Byte)) (failed : Bool) (s : State) : Result :=
  .next (
    match s.faults.take, s.takenCtx, s.faults.joinStep with
    | .copying, some (_, x), some j =>
      if failed then s.endTake .failed 0x0204
      else
        let ranges := s.listRanges x
        if copies.map List.length != ranges.map (fun r => r.bytes) then s
        else
          let s1 := (ranges.zip copies).foldl (fun s r => s.regionPut x r.1.offset r.2) s
          let s2 : State := { s1 with faults := { s1.faults with takeStep := j, takeCursor := s.cursorJ x j } }
          s2.endTake .joined 0
    | _, _, _ => s.restoreEnds copies failed)

/-! ### SELFTEST (R499) -/

/-- A team as a test leaves it. -/
def Team.tested (k : Team) : Team :=
  { k with cores := k.cores.map fun c => (c.1, { c.2 with mem := [] }), cluster := [], acs := [], acsRows := []
           bank0 := .empty, bank1 := .empty, refused := [], testing := false }

/-- Which cores of a team fail is a free choice for each. -/
def State.failingCores (s : State) (t : Nat) : List Nat :=
  (List.range 16).filter fun q => Config.choice s.free (t * 16 + q)

/-- Whether a unit that a cluster's cores share fails: levels 1 and 2 cover such units, level 0 only those of the cores
(R499). Which fail is a free choice (notes/assumptions/65.md). -/
def State.sharedFails (s : State) (level t : Nat) : Bool := decide (1 ≤ level) && Config.choice s.free (1024 + t)

/-- SELFTEST is performed: failing units are retired (R498), the teams are left clean and free. The count of
vectors is a free value. -/
def State.selftest (s : State) (c : W32) (y : Cmd) : State :=
  let ts := bitsSet 24 (Packet.field y.pkt 0x00 4)
  let bad := ts.flatMap fun t => (s.failingCores t).map fun q => (t, q)
  let shared := ts.filter fun t => s.sharedFails (Packet.field y.pkt 0x04 1) t
  let s1 := bad.foldl (fun s b => s.retireCore b.1 b.2) s.endDoze
  let s2 := shared.foldl State.retireCluster s1
  let s3 := ts.foldl (fun s t => s.modTeam t Team.tested) s2
  s3.bumpFree.finishCmd c y.seq 0 ((Config.freeWord s.free).toNat % 2 ^ 32) (bad.length + shared.length)

/-! ### COMMAND_COMPLETE (R94) -/

/-- Brings a started command to its end where nothing more holds it. -/
def State.settleCmd (s : State) (c : W32) (y : Cmd) : State :=
  if y.phase != .started then s
  else if y.opcode = 0x0011 then s.answerCopies.tryFinishLaunch c y.seq
  else if y.opcode = 0x0020 ∨ y.opcode = 0x0021 then s.tryFinishTable c y
  else if y.opcode = 0x0051 then s.endDoze.restore c y
  else if y.opcode = 0x0080 then s.selftest c y
  else s

/-- COMMAND_COMPLETE (R88, R93, R94). -/
def execCommandComplete (ctx : W32) (seq : W64) (s : State) : Result :=
  .next (match s.cmd ctx seq with
    | some y => (s.settleCmd ctx y).completeCmd ctx seq
    | none => s)

end Sys2Proof.Machine
end

