-- ==== Sys2Proof/Machine/Requests.lean ====
section
/-! DEFINITION. Signed postmaster requests: what each does, and the two paths by which they come (spec/16 R442,
R444, R448, R458 to R461; spec/18 R501; spec/20 R530). -/

namespace Sys2Proof.Machine

open Sys2Proof

/-- A request's outcome: the state and the result code of R461. -/
abbrev Applied := State × Nat

/-- Changes the postmaster's values. -/
def State.modPm (s : State) (f : Postmaster → Postmaster) : State := { s with pm := f s.pm }

/-- SET_LAYOUT (R442). -/
def State.setLayout (s : State) (b : List Byte) : Applied :=
  if 2 < qBody b 0 1 then (s, 2)
  else if !s.ctxs.isEmpty then (s, 3)
  else (s.modPm fun m => { m with layout := qBody b 0 1 }, 0)

/-- Whether ISO_A and ISO_B hold values in range (R443). -/
def isoInRange (a b : Nat) : Bool :=
  !bitOf a 3 && decide (a < 2 ^ 19) && decide (bits b 0 16 ≤ 15359) && decide (bits b 16 16 ≤ 15360 - bits b 0 16) &&
  decide (b < 2 ^ 32)

/-- Whether every context of a function stays within new isolation values (R444). -/
def State.isoFits (s : State) (f : Nat) (k : Fn) : Bool :=
  let mine := s.ctxs.filter fun x => x.1 / 2 ^ 26 == f
  decide (mine.length ≤ k.maxContexts) &&
  mine.all fun x =>
    bitOf k.partMask x.2.partition &&
    decide (k.winBase * 0x4000000 ≤ x.2.regionBase.toNat) &&
    decide (x.2.regionBase.toNat + x.2.regionSize.toNat ≤ (k.winBase + k.winSize) * 0x4000000)

/-- SET_ISO (R444). -/
def State.setIso (s : State) (b : List Byte) : Applied :=
  let f := qBody b 0 1
  let va := qBody b 8 8
  let vb := qBody b 16 8
  if f = 0 ∨ 64 ≤ f ∨ qBody b 1 7 ≠ 0 ∨ !isoInRange va vb then (s, 2)
  else
    let k : Fn := { s.fn f with isoA := BitVec.ofNat 64 va, isoB := BitVec.ofNat 64 vb }
    let meets (g : Nat) : Bool :=
      g != f && decide (0 < k.winSize) && decide (0 < (s.fn g).winSize) &&
      rangesMeet (k.winBase, k.winSize) ((s.fn g).winBase, (s.fn g).winSize)
    if ((List.range 64).drop 1).any meets ∨ !s.isoFits f k then (s, 3)
    else (s.modFn f fun _ => k, 0)

/-- SET_POOL (R448). -/
def State.setPool (s : State) (b : List Byte) : Applied :=
  let d := qBody b 0 1
  let n := qBody b 1 1
  if 4 ≤ d ∨ n = 0 ∨ 32 < n then (s, 2)
  else
    let top := (3 * d + 1) * stackSize + 0x13F0000000
    let old := s.pool.getD d 8
    let new : Nat × Nat := (top - n * 0x10000000, (n - old) * 0x10000000)
    if s.areasUsed d ≠ 0 ∨ (old < n ∧ s.ctxs.any fun x => rangesMeet new (x.2.regionBase.toNat, x.2.regionSize.toNat)) then
      (s, 3)
    else ({ s with pool := s.pool.set d n }, 0)


/-- Whether the input voltage lies outside VIN_MIN to VIN_MAX (R481). -/
def State.outOfRange (s : State) : Bool :=
  decide (s.power.vin < 10 * s.pm.vinMin) || decide (10 * s.pm.vinMax < s.power.vin)

/-- The conditions that PM_LIMITS sets, evaluated again (R461: at once). -/
def State.limits (s : State) : State :=
  { s with power := { s.power with hot := s.hotDies, supplyBad := s.outOfRange } }

/-- SET_LIMITS (R458, R461). -/
def State.setLimits (s : State) (b : List Byte) : Applied :=
  let tj := qBody b 0 1
  let lo := qBody b 2 2
  let hi := qBody b 4 2
  if tj < 60 ∨ 105 < tj ∨ qBody b 1 1 ≠ 0 ∨ lo < 216 ∨ 264 < hi ∨ hi ≤ lo then (s, 2)
  else ((s.modPm fun m => { m with tjLimit := tj, vinMin := lo, vinMax := hi }).limits, 0)

/-- SET_TIME (R461). -/
def State.setTime (s : State) (b : List Byte) : Applied :=
  let v : W64 := BitVec.ofNat 64 (qBody b 8 8)
  let src := qBody b 1 1
  if 2 < qBody b 0 1 ∨ 1 < src ∨ qBody b 2 6 ≠ 0 then (s, 2)
  else
    (s.modPm fun m =>
      { m with role := qBody b 0 1, source := src
               epochNext := if src = 0 then some v else m.epochNext
               secondNext := if src = 1 then some v else m.secondNext }, 0)

/-- SET_KEY (R461): the slot's counter becomes 0. -/
def State.setKey (s : State) (b : List Byte) : Applied :=
  let k := qBody b 0 1
  let r := qBody b 1 1
  if k = 0 ∨ 3 < k ∨ 63 < r ∨ !bitOf r 0 ∨ qBody b 2 6 ≠ 0 then (s, 2)
  else
    (s.modPm fun m =>
      { m with rights := m.rights.set k (BitVec.ofNat 8 r), ctrs := m.ctrs.set k 0
               keys := m.keys.set k (bytesAt b 0x48 32) }, 0)

/-- REVOKE_KEY (R461). -/
def State.revokeKey (s : State) (b : List Byte) : Applied :=
  let k := qBody b 0 1
  if k = 0 ∨ 3 < k then (s, 2)
  else (s.modPm fun m => { m with rights := m.rights.set k (m.rights.getD k 0 &&& 0xFE) }, 0)

/-- STAGE_FIRMWARE (R501). Whether the image passes its checks, and its version above the running one, are free:
the spec does not give an image's layout. -/
def State.stageFirmware (s : State) (b : List Byte) : Applied :=
  let at_ := qBody b 0 8
  let len := qBody b 8 4
  if len % 64 ≠ 0 ∨ 2 ^ 24 < len ∨ 12 * stackSize < at_ + len then (s, 2)
  else if 0xFFFF ≤ s.power.fwVersion ∨ !Config.choice s.free 0 then (s.bumpFree, 3)
  else
    let v := s.power.fwVersion + 1 + (Config.freeWord s.free).toNat % (0xFFFF - s.power.fwVersion)
    let s1 := s.bumpFree
    let image : Firmware := ⟨v, true⟩
    ({ s1 with power := { s1.power with
        staged := true
        bankA := if s1.power.bank = 0 then s1.power.bankA else image
        bankB := if s1.power.bank = 0 then image else s1.power.bankB } }, 0)

/-- The body lengths of the operations (R461). -/
def opLength (op : Nat) : Option Nat :=
  if op = 1 then some 1 else if op = 2 then some 24 else if op = 3 then some 2 else if op = 4 then some 6
  else if op = 5 then some 16 else if op = 6 then some 40 else if op = 7 then some 1 else if op = 8 then some 12
  else none

/-- Whether a block is a request of an operation, with the right BODY_LEN. -/
def isOp (b : List Byte) (op : Nat) : Bool := qOp b == op && opLength op == some (qLen b)

/-- What an operation does, and its result code, where the flash takes what it writes (R461). -/
def State.operate (s : State) (b : List Byte) : Applied :=
  if isOp b 1 then s.setLayout b else if isOp b 2 then s.setIso b else if isOp b 3 then s.setPool b
  else if isOp b 4 then s.setLimits b else if isOp b 5 then s.setTime b else if isOp b 6 then s.setKey b
  else if isOp b 7 then s.revokeKey b else if isOp b 8 then s.stageFirmware b else (s, 1)

/-- Whether the flash fails to take what a request writes: the spec names the case and not when it arises
(R461, notes/assumptions/36.md). -/
def State.flashFails (s : State) : Bool := Config.choice s.free (2 ^ 62)

/-- Performs a request: the state and the result code; code 0 counts in REQ_OK, and with code 4 nothing
changes (R458, R461). -/
def State.runRequest (s : State) (b : List Byte) : Applied :=
  let r := s.operate b
  if r.2 ≠ 0 then r
  else if s.flashFails then (s.bumpFree, 4)
  else (r.1.modPm fun m => { m with reqOk := satTo 0xFFFF (m.reqOk + 1) }, 0)

/-- Whether a postmaster core serves the I3C port (R412 class 9, R488). -/
def State.postmasterUp (s : State) : Bool :=
  s.i3cUp && (s.power.boot != .starting || decide (2 ≤ s.power.bootStep)) &&
  (s.faults.cores.contains 6 || s.faults.cores.contains 7)

/-- The result code of a request that was not executed: the response has the byte, and the spec no value (R530). -/
def State.noResult (s : State) : List Byte := leBytes 1 (Config.freeWord s.free).toNat

/-- A request that came in an MCTP message (R459, R460, R530): it executes at once, but not while the module is fenced, when
it accepts no command (R415). The answer's status is 0 applied, 2 refused by R460, or 3 malformed, and its body the
result code (notes/assumptions/23.md). -/
def State.requestI3c (s : State) (b : List Byte) (verified : Bool) : State :=
  if !s.postmasterUp || s.faults.selfFenced then s
  else if b.length < 128 ∨ b.length % 16 ≠ 0 ∨ (requestFault b).isSome then s.bumpFree.answer i3c 3 s.noResult
  else if !s.signedOk b verified then s.refuseRequest.bumpFree.answer i3c 2 s.noResult
  else
    let r := (s.takeCounter b).runRequest b
    r.1.answer i3c 0 (leBytes 1 r.2)

/-- A request by either path, of a block that a row names. -/
def State.request (s : State) (path : ReqPath) (p : Packet) (verified mine : Bool) : State :=
  if !mine then s
  else
    match path with
    | .packet => s.takeRequest p verified
    | .i3c => s.requestI3c p.block verified

/-- SET_LAYOUT (R442). -/
def execSetLayout (path : ReqPath) (p : Packet) (verified : Bool) (s : State) : Result :=
  .next (s.request path p verified (isOp p.block 1))

/-- SET_ISO (R444). -/
def execSetIso (path : ReqPath) (p : Packet) (verified : Bool) (s : State) : Result :=
  .next (s.request path p verified (isOp p.block 2))

/-- SET_POOL (R448). -/
def execSetPool (path : ReqPath) (p : Packet) (verified : Bool) (s : State) : Result :=
  .next (s.request path p verified (isOp p.block 3))

/-- SET_LIMITS (R461). -/
def execSetLimits (path : ReqPath) (p : Packet) (verified : Bool) (s : State) : Result :=
  .next (s.request path p verified (isOp p.block 4))

/-- SET_TIME (R461). -/
def execSetTime (path : ReqPath) (p : Packet) (verified : Bool) (s : State) : Result :=
  .next (s.request path p verified (isOp p.block 5))

/-- SET_KEY (R461). -/
def execSetKey (path : ReqPath) (p : Packet) (verified : Bool) (s : State) : Result :=
  .next (s.request path p verified (isOp p.block 6))

/-- REVOKE_KEY (R461). -/
def execRevokeKey (path : ReqPath) (p : Packet) (verified : Bool) (s : State) : Result :=
  .next (s.request path p verified (isOp p.block 7))

/-- STAGE_FIRMWARE (R501). -/
def execStageFirmware (path : ReqPath) (p : Packet) (verified : Bool) (s : State) : Result :=
  .next (s.request path p verified (isOp p.block 8))

/-- UNKNOWN_POSTMASTER_OP (R461): an unknown OP, or a wrong BODY_LEN. -/
def execUnknownPostmasterOp (path : ReqPath) (p : Packet) (verified : Bool) (s : State) : Result :=
  .next (s.request path p verified (opLength (qOp p.block) != some (qLen p.block)))

end Sys2Proof.Machine
end

