-- ==== Sys2Proof/Machine/Start.lean ====
section
/-! DEFINITION. The start of commands, of kernels and their end, pre-emption and resume (spec/03 R63, R82, R88 to R93;
spec/04 R103 to R111, R123, R135; spec/13 R366 to R370, R538; spec/15 R422, R424; spec/16 R446 to R452, R456). -/

namespace Sys2Proof.Machine

open Sys2Proof

/-! ### Kernels (R105, R111, R123) -/

/-- The registers of a core at the first instruction of a kernel (R111). -/
def startRegs (args step : W64) (q t : Nat) (c : W32) (x : Ctx) (pc : W16) : SMap W64 :=
  ([args, step, BitVec.ofNat 64 q, BitVec.ofNat 64 t, BitVec.ofNat 64 c.toNat, x.regionBase, x.regionSize,
    BitVec.ofNat 64 pc.toNat].zip (List.range 8)).foldl (fun m y => if y.1 = 0 then m else mapPut m y.2 y.1) []

/-- A core at the first instruction of a kernel: its memory stays. -/
def Core.start (k : Core) (regs : SMap W64) : Core := { Core.reset with s := regs, mem := k.mem }

/-- The generator's stream table, read as the LAUNCH starts (R260). -/
def State.streamTable (s : State) (x : Ctx) : Memory :=
  let base := x.regionBase.toNat
  (s.busView.filter fun c => decide (base ≤ c.1) && decide (c.1 < base + 65536)).map fun c => (c.1 - base, c.2)

/-- A team at the start of a kernel (R105, R111, R133). -/
def State.startTeam (s : State) (c : W32) (x : Ctx) (y : Cmd) (table : Memory) (t : Nat) : State :=
  let bank := Packet.field y.pkt 0x04 1
  let args : W64 := BitVec.ofNat 64 (Packet.field y.pkt 0x08 8)
  let step : W64 := BitVec.ofNat 64 (Packet.field y.pkt 0x10 8)
  let pc := s.postcodeOf c
  match (s.team t).bank bank with
  | .full i =>
    (match i.streams[Packet.field y.pkt 0x06 2]? with
     | some e =>
       s.modTeam t fun k =>
         { k with
           active := bank, acsRows := []
           cores := (List.range 16).map fun q => (q, (k.core q).start (startRegs args step q t c x pc))
           kernel := some
             { ctx := c, seq := y.seq, stream := e, step := step, genTable := table, pc := e.entry, loops := []
               stopped := false, ended := false } }
     | none => s)
  | .empty => s

/-- Whether every bank that a LAUNCH names holds its stream. -/
def State.bankHolds (s : State) (y : Cmd) : Bool :=
  (bitsSet 24 (Packet.field y.pkt 0x00 4)).all fun t =>
    match (s.team t).bank (Packet.field y.pkt 0x04 1) with
    | .full i => (i.streams[Packet.field y.pkt 0x06 2]?).isSome
    | .empty => false

/-- The first fault held for a team of a LAUNCH (R366, R538): in the order of teams, then of kinds. -/
def State.heldFault (s : State) (ts : List Nat) : Option FaultKind :=
  (ts.flatMap fun t => sortOn FaultKind.rank (s.team t).heldFaults).head?

/-- The started LAUNCHes of a context whose kernel has not begun, in SEQ order. -/
def State.waitingLaunches (s : State) (c : W32) : List Cmd :=
  match s.ctx c with
  | some x =>
    (s.cmdsOf c).cmds.filter fun y => y.opcode == 0x0011 && y.phase == .started && (x.launch y.seq).isNone
  | none => []

/-- Whether a LAUNCH has yet to reach its teams: it has started, or a replay has put it back (R100). -/
def Cmd.awaitsTeam (y : Cmd) : Bool :=
  match y.phase with
  | .accepted => y.replayed
  | .started => true
  | _ => false

/-- Whether the kernel of a started LAUNCH may begin in every team it names (R36, R105, R135, R447). -/
def State.mayBegin (s : State) (c : W32) (x : Ctx) (y : Cmd) : Bool :=
  let mask := Packet.field y.pkt 0x00 4
  x.running && !x.issueHeld && !x.faulted && !y.deferred && !s.journal.replaying.contains c.toNat &&
  ((bitsSet 24 mask).all fun t => (s.team t).kernel.isNone && !s.faults.auditing.contains t) &&
  (s.cmdsOf c).cmds.all fun z =>
    !(z.opcode == 0x0011 && decide (z.seq.toNat < y.seq.toNat) && z.awaitsTeam && (x.launch z.seq).isNone &&
      Nat.land (Packet.field z.pkt 0x00 4) mask != 0)

/-- The launches of a context before another begins on some teams: the store copies of an earlier one there stay with it
(R105, R322). -/
def State.keepRows (s : State) (ts : List Nat) (l : List Launch) : List Launch :=
  ts.foldl (fun l t =>
    match (l.filter fun y => bitOf y.teams t).getLast? with
    | some y =>
      modWhere (fun z => z.seq == y.seq && (mapGet z.acsRows t).isNone)
        (fun z => { z with acsRows := mapPut z.acsRows t (s.team t).acsRows }) l
    | none => l) l

/-- Begins the kernel of one LAUNCH, or ends it with a fault that was held for its teams. -/
def State.beginLaunch (s : State) (c : W32) (y : Cmd) : State :=
  match s.ctx c with
  | none => s
  | some x =>
    if !s.mayBegin c x y then s
    else
      let mask := Packet.field y.pkt 0x00 4
      let ts := bitsSet 24 mask
      let us := (s.postmark.toNat - y.startedAt.toNat) / 1000
      match s.heldFault ts with
      | some f =>
        (ts.foldl (fun s t => s.modTeam t fun k => { k with heldFaults := [] }) s).finishCmd c y.seq f.status us 0
      | none =>
        if !s.bankHolds y then s.finishCmd c y.seq 0x0102 us 0
        else
          let l : Launch :=
            { seq := y.seq, startedAt := y.startedAt, teams := mask, teamsLeft := ts, events := 0, fault := none
              pausedNs := 0, external := false, counters := x.counters
              startTeams := ts.map fun t => (t, s.team t)
              issued := match s.role (s.postcodeOf c) with | some r => r.issued | none => 0
              wrote := [], skip := y.skip, interrupted := false }
          let table := s.streamTable x
          ts.foldl (fun s t => s.startTeam c x y table t)
            ((s.endDoze.seesHost ts).modCtx c fun x => { x with launches := s.keepRows ts x.launches ++ [l] })

/-- Begins every LAUNCH of a context whose teams are ready (R105). -/
def State.beginLaunches (s : State) (c : W32) : State :=
  (s.waitingLaunches c).foldl (fun s y => s.beginLaunch c y) s

/-- KERNEL_END (R123): the stream has ended, or a fault stopped it, and every unit of every core has completed. -/
def execKernelEnd (team : Nat) (s : State) : Result :=
  .next (match (s.team team).kernel with
    | none => s
    | some k =>
      let drained := (s.team team).cores.all fun c => c.2.awaited.isEmpty && c.2.tileQueue.isEmpty
      if !(k.ended || k.stopped) || !drained then s
      else
        let s1 := s.modTeam team fun y => { y with kernel := none }
        let put (l : Launch) : Launch :=
          if l.seq = k.seq then { l with teamsLeft := l.teamsLeft.filter fun t => t != team } else l
        let s2 := s1.modCtx k.ctx fun x => { x with launches := x.launches.map put }
        let last := match s2.ctx k.ctx with
          | some x => (match x.launch k.seq with | some l => l.teamsLeft.isEmpty | none => false)
          | none => false
        let s3 :=
          if last then
            ((((s2.endIncomplete k.ctx k.seq).dropSkipped k.ctx fun u => u.seq == k.seq).offerHeld).tryFinishLaunch
              k.ctx k.seq).answerCopies
          else s2
        s3.beginLaunches k.ctx)

/-- TRANSLATION_COMPLETE (R91, R129, R135): the bank of each named team holds the image, or a refusal
leaves it as it was. -/
def execTranslationComplete (ctx : W32) (seq : W64) (s : State) : Result :=
  .next (match s.ctx ctx, s.cmd ctx seq with
    | some x, some y =>
      if y.opcode != 0x0010 || y.phase != .started || !x.running then s
      else
        let len := Packet.field y.pkt 0x08 4
        let bank := Packet.field y.pkt 0x0C 1
        let teams := Packet.field y.pkt 0x10 4
        let s := s.endDoze
        let b := memRead s.busView (Packet.field y.pkt 0x00 8) len
        match translate b len ctx x.regionBase with
        | .error r =>
          let s1 := (bitsSet 24 teams).foldl (fun s t => s.modTeam t fun k => k.refuse bank) s
          ((s1.finishCmd ctx seq 0x0102 r.2 r.1).settleDeferred ctx x).beginLaunches ctx
        | .ok i =>
          let s1 := (bitsSet 24 teams).foldl (fun s t => s.modTeam t fun k => k.load bank (.full i)) s
          let e : CacheEntry := ⟨fnOf ctx, b, imageOf b (parseContainer b)⟩
          (({ s1 with cache := cacheUse s1.cache e }.finishCmd ctx seq 0 len 0).settleDeferred ctx x).beginLaunches ctx
    | _, _ => s)

/-! ### Commands on contexts -/

/-- The context that held a command's TARGET when it was accepted, if it still exists (R89). -/
def State.targetOf (s : State) (y : Cmd) (off : Nat) : Option (W32 × Ctx) :=
  let t : W32 := BitVec.ofNat 32 (Packet.field y.pkt off 4)
  match s.ctx t with
  | some x => if y.target = some x.uid then some (t, x) else none
  | none => none

/-- CONTEXT_CREATE executes (R446, R447). -/
def State.createContext (s : State) (c : W32) (y : Cmd) : State :=
  let p := y.pkt
  let new : W32 := BitVec.ofNat 32 (Packet.field p 0x00 4)
  let mask := Packet.field p 0x08 4
  let ts := bitsSet 24 mask
  let f := fnOf c
  if (s.fn f).maxContexts ≤ s.contextsOf f ∨ 960 ≤ s.ctxs.length ∨ (s.ctx new).isSome ∨ !s.areasFit ts then
    s.finishCmd c y.seq 0x0102 0 0
  else
    let running := ts.all s.teamFree
    let x : Ctx :=
      { uid := s.uid, partition := Packet.field p 0x04 1, span := Packet.field p 0x05 1
        modules := Packet.field p 0x06 2, teamMask := mask
        regionBase := BitVec.ofNat 64 (Packet.field p 0x10 8), regionSize := BitVec.ofNat 64 (Packet.field p 0x18 8)
        running := running, faulted := false, counters := [0, 0, 0, 0, 0, 0, 0, 0], launches := [], graphs := []
        tables := [], saved := if running then [] else ts.map fun t => (t, Team.reset)
        savedWatches := [], savedHub := [], issueHeld := false, preempting := none, resuming := none, snapping := none
        pausedAt := s.postmark, restoreDue := false }
    let s1 := if running then s.freshTeams ts else s
    ({ s1 with
      ctxs := mapPut s1.ctxs new.toNat x, uid := s1.uid + 1
      cmds := if new = c then s1.cmds else mapDrop s1.cmds new.toNat }).finishCmd c y.seq 0 0 0

/-- CONTEXT_PREEMPT starts (R63, R89, R451). -/
def State.startPreempt (s : State) (c : W32) (y : Cmd) : State :=
  match s.targetOf y 0x00 with
  | none => s.finishCmd c y.seq 0x0204 0 0
  | some (t, x) =>
    if !x.running then s.finishCmd c y.seq 0 0 0
    else
      let at_ := Packet.field y.pkt 0x08 8
      let us := Packet.field y.pkt 0x04 4
      let s1 := s.modCtx t fun x =>
        { x with preempting := some ⟨⟨c, y.seq⟩, BitVec.ofNat 64 at_, if us = 0 then 2000 else us, none, 0⟩ }
      if at_ ≠ 0 ∧ at_ < s.postmark.toNat then s1.lateEvent else s1

/-- CONTEXT_RESUME starts (R89, R452). -/
def State.startResume (s : State) (c : W32) (y : Cmd) : State :=
  match s.targetOf y 0x00 with
  | none => s.finishCmd c y.seq 0x0204 0 0
  | some (t, x) =>
    if x.running then s.finishCmd c y.seq 0 0 0
    else s.modCtx t fun x => { x with resuming := some ⟨⟨c, y.seq⟩, BitVec.ofNat 64 (Packet.field y.pkt 0x08 8)⟩ }

/-- A context that is reset or destroyed waits for no replay. -/
def State.dropReplay (s : State) (c : W32) : State :=
  s.endReplay c

/-- CONTEXT_RESET executes (R89, R369). -/
def State.runReset (s : State) (c : W32) (y : Cmd) : State :=
  match s.targetOf y 0x00 with
  | none => s.finishCmd c y.seq 0x0102 0 0
  | some (t, _) =>
    let r := s.resetContext t
    ((r.1.dropReplay t).modCtx t fun x => { x with restoreDue := false }).finishCmd c y.seq 0 r.2.1 r.2.2

/-- CONTEXT_DESTROY executes (R89, R370). -/
def State.runDestroy (s : State) (c : W32) (y : Cmd) : State :=
  match s.targetOf y 0x00 with
  | none => s.finishCmd c y.seq 0x0102 0 0
  | some (t, _) => ((s.destroyContext t).dropReplay t).finishCmd c y.seq 0 0 0

/-! ### Commands on roles and services -/

/-- ROLE_ASSIGN executes (R379). -/
def State.runRoleAssign (s : State) (c : W32) (y : Cmd) : State :=
  let pc : W16 := BitVec.ofNat 16 (Packet.field y.pkt 0x00 2)
  let epoch := Packet.field y.pkt 0x02 2
  let known := match s.knownEpoch pc with | some e => decide (epoch ≤ e) | none => false
  match s.targetOf y 0x08 with
  | none => s.finishCmd c y.seq 0x0102 0 0
  | some (t, _) =>
    if known then s.finishCmd c y.seq 0x0201 0 0
    else if 64 ≤ (s.fabric.roles.filter fun r => r.2.ctx != t && r.1 != pc.toNat).length then
      s.finishCmd c y.seq 0x0102 0 0
    else
      ((s.bindRole pc (BitVec.ofNat 16 epoch) (BitVec.ofNat 32 (Packet.field y.pkt 0x04 4)) t).flushWaiting).finishCmd
        c y.seq 0 epoch 0

/-- SPARE_ARM starts (R422): arming waits for the audits; disarming acts at once. -/
def State.runSpareArm (s : State) (c : W32) (y : Cmd) : State :=
  let pc : W16 := BitVec.ofNat 16 (Packet.field y.pkt 0x00 2)
  if Packet.field y.pkt 0x02 1 = 0 then
    let left := s.faults.armed.filter fun a => a != pc
    let s1 := if left.isEmpty && s.faults.take == .armed then
        s.setTake fun f => { f with armed := left, take := .none }
      else s.modFaults fun f => { f with armed := left }
    s1.finishCmd c y.seq 0 0 0
  else
    match s.spareCtx with
    | none => s.finishCmd c y.seq 0x0102 0 0
    | some t =>
      if 16 ≤ s.faults.armed.length ∧ !s.covers pc then s.finishCmd c y.seq 0x0102 0 0
      else
        match s.ctx t with
        | some x => s.modFaults fun f => { f with arming := some (pc, ⟨c, y.seq⟩, x.teams) }
        | none => s

/-- TAKEOVER starts (R424). -/
def State.runTakeover (s : State) (c : W32) (y : Cmd) : State :=
  let pc : W16 := BitVec.ofNat 16 (Packet.field y.pkt 0x00 2)
  let epoch := Packet.field y.pkt 0x02 2
  let known := match s.knownEpoch pc with | some e => decide (epoch ≤ e) | none => false
  if known then s.finishCmd c y.seq 0x0201 0 0
  else
    match s.spareCtx with
    | none => s.finishCmd c y.seq 0x0102 0 0
    | some t => (s.yieldRole pc (BitVec.ofNat 16 epoch)).takeRole pc (BitVec.ofNat 16 epoch) 0 t (some ⟨c, y.seq⟩)

/-- The record of FRANK_READ (R456): the current counts, a closed period, or one that is not held. -/
def State.frankRecord (s : State) (f p : Nat) : Frank :=
  let cur := (s.fn f).frank
  if p = 0 then { cur with asOf := s.postmark.toNat }
  else
    match (s.fn f).periods[p - 1]? with
    | some r => r
    | none =>
      let k := cur.index - p
      { index := k, flags := 8, start := k * 3600000000000 }

/-- FRANK_READ executes (R456). -/
def State.runFrankRead (s : State) (c : W32) (y : Cmd) : State :=
  let f := Packet.field y.pkt 0x00 4
  let r := s.frankRecord f (Packet.field y.pkt 0x04 1)
  ({ s with hostMem := memWrite s.hostMem (Packet.field y.pkt 0x08 8) (r.bytes f) }).finishCmd c y.seq 0 (r.index % 2 ^ 32) 0

/-- SNAPSHOT starts (R418, R419): it waits for its postmark. -/
def State.startSnapshot (s : State) (c : W32) (y : Cmd) : State :=
  let n : Snapping :=
    ⟨⟨c, y.seq⟩, BitVec.ofNat 64 (Packet.field y.pkt 0x00 8), (s.snapDest c (Packet.field y.pkt 0x08 8)).getD 0,
     BitVec.ofNat 32 (Packet.field y.pkt 0x10 4), none, []⟩
  s.modCtx c fun x => { x with snapping := some n }

/-- TABLE_CREATE executes (R287): refused at once, or finished when its mirror writes are acknowledged. -/
def State.runTableCreate (s : State) (c : W32) (y : Cmd) : State :=
  let r := s.createTable c y.pkt
  if r.2.1 = 0 then
    (r.1.bumpFree.modCmd c y.seq fun z => { z with blocks := r.2.2 }).tryFinishTable c { y with phase := .started, blocks := r.2.2 }
  else r.1.bumpFree.finishCmd c y.seq r.2.1 0 0

/-! ### COMMAND_START (R82, R93) -/

/-- Commands that act as though SERIAL were set (R93). -/
def alwaysSerial (opcode : W16) : Bool := opcode == 0x0043 || opcode == 0x0044 || opcode == 0x0050 || opcode == 0x0051

/-- Whether a command needs time (R55). -/
def State.needsTime (s : State) (c : W32) (y : Cmd) : Bool :=
  let own := match s.ctx c with | some x => x.span == 1 | none => false
  let tgt := match s.ctx (BitVec.ofNat 32 (Packet.field y.pkt 0x00 4)) with | some x => x.span == 1 | none => false
  [0x0060, 0x0061, 0x0062, 0x0063].contains y.opcode.toNat ||
  (y.opcode == 0x0040 && decide (2 ≤ Packet.field y.pkt 0x06 2)) ||
  ((y.opcode == 0x0011 || y.opcode == 0x0050) && own) ||
  ((y.opcode == 0x0041 || y.opcode == 0x0042) && tgt)

/-- What a command waits for beyond the order of its context. -/
def State.ready (s : State) (c : W32) (y : Cmd) : Bool :=
  if y.opcode = 0x0021 then s.replaceReady c y
  else if y.opcode = 0x0041 then
    match s.targetOf y 0x00 with
    | some (_, x) => !x.restoreDue && (!x.running || x.preempting.isNone)
    | none => true
  else if y.opcode = 0x0042 then
    match s.targetOf y 0x00 with
    | some (_, x) => !x.restoreDue && (x.running || x.resuming.isNone)
    | none => true
  else if y.opcode = 0x0062 then s.faults.arming.isNone || Packet.field y.pkt 0x02 1 == 0
  else if y.opcode = 0x0063 then !s.taking
  else true

/-- Whether a command may start now (R56, R82, R93, R415, R418, R447, R490). -/
def State.mayStart (s : State) (c : W32) (y : Cmd) : Bool :=
  let earlier := (s.cmdsOf c).cmds.filter fun z => decide (z.seq.toNat < y.seq.toNat)
  let order := if y.pkt.flags.getLsbD 0 || alwaysSerial y.opcode then earlier.all Cmd.done else earlier.all Cmd.begun
  let snapping := earlier.any fun z => z.opcode == 0x0050 && z.phase == .started
  let lost := s.faults.retake.any fun r => r.2.ctx == c
  let own := isControl c || match s.ctx c with | some x => x.running && !x.issueHeld && !lost | none => false
  y.phase == .accepted && order && !snapping && own && s.power.boot == .running && s.power.state != .sleep &&
  !s.faults.selfFenced &&
  !s.journal.replaying.contains c.toNat && (!y.replayed || !s.needsTime c y || s.posted) && s.ready c y

/-- Commands that need a cluster end DOZE (R489). -/
def wakesClusters (opcode : W16) : Bool :=
  [0x0010, 0x0011, 0x0041, 0x0042, 0x0050, 0x0051, 0x0080].contains opcode.toNat

/-- The effect of a command at its start. -/
def State.runCmd (s : State) (c : W32) (y : Cmd) : State :=
  if y.opcode = 0x0001 then s.finishCmd c y.seq 0 0 0
  else if y.opcode = 0x0011 then s.beginLaunches c
  else if y.opcode = 0x0020 then s.runTableCreate c y
  else if y.opcode = 0x0021 then
    let r := s.beginReplace c y
    (match r.2 with
     | some st => r.1.finishCmd c y.seq st 0 0
     | none => r.1)
  else if y.opcode = 0x0030 then
    let r := s.loadGraph c y.pkt
    r.1.finishCmd c y.seq 0 r.2 0
  else if y.opcode = 0x0040 then s.createContext c y
  else if y.opcode = 0x0041 then s.startPreempt c y
  else if y.opcode = 0x0042 then s.startResume c y
  else if y.opcode = 0x0043 then s.runDestroy c y
  else if y.opcode = 0x0044 then s.runReset c y
  else if y.opcode = 0x0050 then s.startSnapshot c y
  else if y.opcode = 0x0060 then
    (match y.schedule with
     | some k => { s with time := { s.time with pending := some (k, ⟨c, y.seq⟩) } }
     | none => s)
  else if y.opcode = 0x0061 then s.runRoleAssign c y
  else if y.opcode = 0x0062 then s.runSpareArm c y
  else if y.opcode = 0x0063 then s.runTakeover c y
  else if y.opcode = 0x0070 then s.runFrankRead c y
  else if y.opcode = 0x0090 then
    let r := s.runRequest y.pkt.block
    r.1.finishCmd c y.seq 0 r.2 0
  else s

/-- COMMAND_START (R82, R93): an accepted command starts; LOAD_PROGRAM, RESTORE and SELFTEST end in events of
their own. -/
def execCommandStart (ctx : W32) (seq : W64) (s : State) : Result :=
  .next (match s.cmd ctx seq with
    | some y =>
      if !s.mayStart ctx y then s
      else
        let s1 := s.modCmd ctx seq fun z => { z with phase := .started, startedAt := s.postmark }
        let s2 : State :=
          if wakesClusters y.opcode && s1.power.state == .doze then
            { s1 with power := { s1.power with state := .active } } else s1
        s2.runCmd ctx { y with phase := .started, startedAt := s.postmark }
    | none => s)

/-! ### Pre-emption and resume (R450 to R452) -/

/-- PREEMPTION_POINT (R63, R64, R368, R450): issue stops in the target's teams. -/
def execPreemptionPoint (ctx : W32) (s : State) : Result :=
  .next (if s.inTurn 3 then s.takePoint ctx else s)


/-- QUIESCE_TIMEOUT (R368, R450): a fabric context that found no quiescent boundary runs on. -/
def execQuiesceTimeout (ctx : W32) (s : State) : Result :=
  .next (match s.ctx ctx with
    | none => s
    | some x =>
      match x.preempting with
      | none => s
      | some p =>
        if x.span != 1 || p.stoppedAt.isSome || s.postmark.toNat < s.actsAt p.cmd p.at_ + 1000 * p.timeoutUs then s
        else if s.quiescent ctx x then s.takePoint ctx
        else
          (s.modCtx ctx fun x => { x with preempting := none }).finishRef p.cmd 0x0105 (s.usSince p.cmd p.at_) 0)

/-- Whether the issued instructions of a team have completed (R450): what it still awaits comes from outside, or from
units whose requests stay queued. -/
def Team.quiet (k : Team) : Bool :=
  k.cores.all fun c =>
    c.2.tileQueue.isEmpty && c.2.awaited.all fun a => a.external || a.unit == .sa || a.unit == .re || a.unit == .ue

/-- Whether the quiesce of a pre-emption of a context has ended (R307, R450). -/
def State.quiesced (s : State) (x : Ctx) : Bool :=
  (match x.preempting with | some p => p.stoppedAt.isSome | none => false) &&
  (x.teams.all fun t => (s.team t).quiet) && !(x.tables.any fun t => t.2.inPause)

/-- The ends of quiesces as they stand now: those that went on until now end now (R450). -/
def State.quietNow (s : State) : SMap W64 :=
  (s.ctxs.filter fun x => s.quiesced x.2).map fun x => (x.1, mapGetD s.meter.quiet s.postmark x.1)

/-- PREEMPT_SAVE_COMPLETE (R307, R450, R451): the context is PREEMPTED and its teams are free; a fault meanwhile is
replayed first. -/
def execPreemptSaveComplete (ctx : W32) (s : State) : Result :=
  .next (match s.ctx ctx with
    | none => s
    | some x =>
      match x.preempting with
      | none => s
      | some p =>
        if !s.quiesced x || s.journal.replaying.contains ctx.toNat then s
        else
          let n := State.preemptCounts { s with meter := { s.meter with quiet := s.quietNow } } p
          let s1 := x.teams.foldl (fun s t => s.pauseBlocks t) s.bumpFree
          ((s1.saveTeams ctx).modCtx ctx fun x => { x with pausedAt := s.postmark }).finishRef p.cmd 0 n.1 n.2)

/-- RESUME_RESTORE (R451, R452): the saved state is restored once AT has passed and the teams are free. -/
def execResumeRestore (ctx : W32) (s : State) : Result :=
  .next (match s.ctx ctx with
    | none => s
    | some x =>
      match x.resuming with
      | none => s
      | some r =>
        if s.postmark.toNat < r.at_.toNat || !(x.teams.all s.teamFree) || !(x.teams.all s.teamServes) then s
        else
          let us := (s.resumeCounts r).1
          let put (l : Launch) : Launch := { l with pausedNs := l.pausedNs + (s.postmark.toNat - x.pausedAt.toNat) }
          let s1 := s.endDoze.bumpFree.modCtx ctx fun x => { x with launches := x.launches.map put }
          (((s1.restoreTeams ctx).chargeRestore ctx x us).finishRef r.cmd 0 us 0).beginLaunches ctx)

end Sys2Proof.Machine
end

