-- ==== Sys2Proof/Machine/Time.lean ====
section
/-! DEFINITION. The postmark unit and the events placed against it (spec/02 R44 to R64; spec/16 R453 to R457;
spec/20 R528; spec/18 R507). -/

namespace Sys2Proof.Machine

open Sys2Proof

/-- Changes the postmark unit beside its counter. -/
def State.modTime (s : State) (f : TimeUnit → TimeUnit) : State := { s with time := f s.time }

/-! ### The step of the first lock (R52) -/

/-- Postmarks of a launch, a context, a team, a barrier and a command move with the counter. -/
def Launch.shift (d : W64) (l : Launch) : Launch := { l with startedAt := l.startedAt + d }
def shiftAt (d at_ : W64) : W64 := if at_ = 0 then 0 else at_ + d
def RowSlot.shift (d : W64) (x : RowSlot) : RowSlot :=
  let at_ : W64 := BitVec.ofNat 64 (pDeadline x.record)
  { x with record := bytesAt x.record 0 0x20 ++ leBytes 8 (shiftAt d at_).toNat ++ x.record.drop 0x28 }
def Team.shift (d : W64) (k : Team) : Team :=
  { k with rows := { k.rows with slots := k.rows.slots.map fun x => (x.1, x.2.shift d) } }
def HubObj.shift (d : W64) (o : HubObj) : HubObj :=
  { o with placed := o.placed.map fun p => { p with at_ := p.at_ + d }, relay := o.relay.map fun a => a + d }
def Ctx.shift (d : W64) (x : Ctx) : Ctx :=
  { x with
    saved := x.saved.map fun t => (t.1, t.2.shift d)
    savedHub := x.savedHub.map fun o => (o.1, o.2.shift d)
    launches := x.launches.map (Launch.shift d), pausedAt := x.pausedAt + d
    preempting := x.preempting.map fun p =>
      { p with at_ := shiftAt d p.at_, stoppedAt := p.stoppedAt.map fun a => a + d }
    resuming := x.resuming.map fun r => { r with at_ := shiftAt d r.at_ }
    snapping := x.snapping.map fun n => { n with at_ := shiftAt d n.at_, startedAt := n.startedAt.map fun a => a + d }
    tables := x.tables.map fun t =>
      (t.1, { t.2 with replacing := t.2.replacing.map fun r => { r with startedAt := r.startedAt + d } }) }

/-- Where a command's packet holds its AT: CONTEXT_PREEMPT and CONTEXT_RESUME at 0x08, SNAPSHOT at 0x00 (R452, R419). -/
def atOffset (opcode : W16) : Option Nat :=
  if opcode = 0x0041 ∨ opcode = 0x0042 then some 0x08 else if opcode = 0x0050 then some 0x00 else none

/-- A packet with its AT moved. -/
def Packet.shift (d : W64) (p : Packet) (off : Nat) : Packet :=
  let at_ : W64 := BitVec.ofNat 64 (Packet.field p off 8)
  { p with params := bytesAt p.params 0 off ++ leBytes 8 (shiftAt d at_).toNat ++ p.params.drop (off + 8) }
def Cmd.shift (d : W64) (x : Cmd) : Cmd :=
  { x with
    acceptedAt := x.acceptedAt + d, startedAt := x.startedAt + d
    pkt := match atOffset x.opcode with | some off => Packet.shift d x.pkt off | none => x.pkt }

/-- The counter steps to a value, and every postmark placed for a local event shifts by the same step (R52). -/
def State.stepTo (s : State) (p : W64) : State :=
  let d := p - s.postmark
  { s with
    postmark := p
    ctxs := s.ctxs.map fun x => (x.1, x.2.shift d)
    teams := s.teams.map fun t => (t.1, t.2.shift d)
    hub := s.hub.map fun o => (o.1, o.2.shift d)
    cmds := s.cmds.map fun c => (c.1, { c.2 with cmds := c.2.cmds.map (Cmd.shift d) })
    fabric := { s.fabric with
      releases := s.fabric.releases.map fun r => { r with at_ := r.at_ + d }
      flows := s.fabric.flows.map fun x => (x.1, { x.2 with held := x.2.held.map fun h => { h with at_ := h.at_ + d } }) }
    irq := { s.irq with since := s.irq.since.map fun x => (x.1, x.2 + d) }
    meter := { s.meter with quiet := s.meter.quiet.map fun x => (x.1, x.2 + d) } }

/-! ### States (R52, R53) -/

/-- At the first lock the usage so far is charged to the franking period that holds the postmark of the lock (R64). -/
def State.frankFirst (s : State) : State :=
  if s.time.everLocked then s
  else
    let k := s.postmark.toNat / frankNs
    s.everyFn fun f => { f with frank := { f.frank with index := k, start := k * frankNs } }

/-- Entry to LOCKED (R53). -/
def State.lock (s : State) : State :=
  if s.time.state = .locked then s
  else
    (s.frankFirst.modTime fun u =>
      { u with state := .locked, lockAt := s.postmark, everLocked := true, badFrames := 0 }).pulse 193

/-- Loss of lock (R53, R57): HOLDOVER. -/
def State.holdover (s : State) : State :=
  match s.time.state with
  | .locked =>
    (s.modTime fun u => { u with state := .holdover, lossAt := s.postmark, losses := satTo 0xFFFF (u.losses + 1)
                                 badFrames := 0 }).pulse 194
  | .slewing => s.modTime fun u => { u with state := .holdover }
  | _ => s

/-- ±1.5 ns and ±25 ns in units of 2^-16 ns (R52, R57). -/
def within (ns2 : Nat) (z : Int) : Bool := decide (2 * z.natAbs ≤ ns2 * 65536)

/-! ### Masters and upstream ports (R50, R51) -/

/-- The ports that hear a master, with its postcode and their hops. -/
def State.heard (s : State) : List (Nat × W16 × Nat) :=
  s.upPorts.filterMap fun p => (s.port p).peerHops.map fun h => (p, (s.port p).peerMaster, h)

/-- The best of a list by a key: the first with the least. -/
def leastBy {α : Type} (key : α → Nat) (l : List α) : Option α := (sortOn key l).head?

/-- The upstream port (R51): of the master with the lowest postcode (R50), the fewest hops, then the lowest port. -/
def State.choice (s : State) : Option (Nat × W16 × Nat) :=
  match leastBy (fun x => x.2.1.toNat) s.heard with
  | some m => leastBy (fun x => x.2.2) (s.heard.filter fun x => x.2.1 == m.2.1)
  | none => none

/-- MASTER_CHANGES when the unit turns to a master: a change counts where it followed another before (R50). The first
master that it follows counts as no change: the model's choice (notes/assumptions/64.md). -/
def TimeUnit.changesAt (u : TimeUnit) (m : W16) : Nat :=
  if u.followed && u.master != m then satTo 0xFFFF (u.masterChanges + 1) else u.masterChanges

/-- Follows the best port; a change of master counts (R50). -/
def State.follow (s : State) : State :=
  match s.choice with
  | some x =>
    s.modTime fun u =>
      { u with upstream := x.1, hops := x.2.2 + 1, master := x.2.1, masterChanges := u.changesAt x.2.1, followed := true
               acting := false, underPrimary := (s.port x.1).peerPrimary }
  | none => s

/-- The postmark of a frame's sender as it stands now: its transmit postmark and the link delay, which is in quarters
of a ns (R48). -/
def arrivalTime (f : TimeFrame) (x : Port) : W64 := f.postmark + BitVec.ofNat 64 (x.delay.toNat / 4)

/-- The sub-tick phase at that instant, in 2^-16 ns: what the delay has beyond whole ns (R44, R48). -/
def arrivalPhase (x : Port) : W16 := BitVec.ofNat 16 (x.delay.toNat % 4 * 16384)

/-- The discipline loop at a frame of the upstream port (R51, R52, R57). -/
def State.discipline (s : State) (f : TimeFrame) (x : Port) : State :=
  let s1 := s.modTime fun u => { u with offset := f.offset }
  match s.time.state with
  | .unposted =>
    if within 3 f.offset then
      (((s1.stepTo (arrivalTime f x)).modTime fun u => { u with phase := arrivalPhase x })).lock
    else s1
  | .locked => s1.modTime fun u => { u with badFrames := if within 50 f.offset then 0 else u.badFrames + 1 }
  | .holdover => s1.modTime fun u => { u with state := .slewing }
  | .slewing => if within 3 f.offset then s1.lock else s1

/-- Whether a module takes no time from a frame (R50): its sender follows no master; or, at a backup master, it names this
module, or, while it has taken over, a backup of a higher postcode. -/
def State.ownTime (s : State) (f : TimeFrame) : Bool :=
  (f.masterPostcode == 0xFFFF && !f.primary) ||
  ((s.time.role == 2 || s.time.role == 3) && f.masterPostcode != 0xFFFF &&
   (f.masterPostcode == s.ownPostcode ||
    (s.time.acting && !f.primary && decide (s.ownPostcode.toNat < f.masterPostcode.toNat))))

/-- TIME_FRAME (R48, R50 to R52, R57). A primary master that hears of another primary master of a lower postcode, from it
or through a follower, becomes a backup in conflict. -/
def execTimeFrame (port : Nat) (frame : TimeFrame) (s : State) : Result :=
  .next (
    if !(s.upPorts.contains port) then s
    else
      let s1 := s.modPort port fun x =>
        { x with peerVersion := some frame.version, peerHops := if s.ownTime frame then none else some frame.hops
                 peerMaster := frame.masterPostcode, peerPrimary := frame.primary
                 peerPostcode := BitVec.ofNat 16 ((x.adverts.map fun a => a.toNat).foldl min 0xFFFF), adverts := [] }
      if s.ownTime frame then s1
      else if s.time.role = 1 then
        if frame.primary && decide (frame.masterPostcode.toNat < s.ownPostcode.toNat) then
          s1.modTime fun u => { u with role := 3 }
        else s1
      else
        let s2 := s1.follow
        if s2.time.upstream = port then s2.discipline frame (s2.port port) else s2)

/-- The master of which a module's time frames tell (R48): its postcode, the hops to it, and whether it is a primary
master. Of one that follows none the spec states nothing; the model's frames then name 0xFFFF, with hops 0, which gives
no time to a receiver (notes/assumptions/64.md). -/
def State.tellsOf (s : State) : W16 × Nat × Bool :=
  if s.time.role = 1 then (s.ownPostcode, 0, true)
  else if s.time.followed then (s.time.master, s.time.hops, s.time.underPrimary)
  else (0xFFFF, 0, false)

/-- TIME_FRAME_SEND (R48, R381, R422): a time frame and the advertisements on each port. -/
def execTimeFrameSend (s : State) : Result :=
  .next (
    if !s.linksTrained then s
    else
      let m := s.tellsOf
      let v : W16 := match s.time.active with | some c => c.version | none => 0
      let f : TimeFrame := ⟨s.postmark, m.1, m.2.1, v, 0, m.2.2⟩
      let s1 := s.upPorts.foldl (fun s p => s.emitOut (.time p f)) s
      let s2 := s1.fabric.roles.foldl (fun s r =>
        s.advertise ⟨BitVec.ofNat 16 r.1, r.2.epoch, 0, false, false⟩ r.2.mask 32) s1
      s2.faults.armed.foldl (fun s pc =>
        match s.route pc with
        | some r => s.advertise ⟨pc, r.epoch, 0, false, true⟩ 0 32
        | none => s.advertise ⟨pc, 0, 0, false, true⟩ 0 32) s2)

/-- LOCK_LOSS (R57): no valid frame for 10 µs, or an excess offset on three frames. A primary master follows no port. -/
def execLockLoss (cause : LossCause) (s : State) : Result :=
  .next (
    if s.time.role = 1 then s
    else
      match cause with
      | .noFrame => s.holdover
      | .offset => if 3 ≤ s.time.badFrames ∧ s.time.state = .locked then s.holdover else s)

/-- MASTER_TIMEOUT (R50): a backup hears no primary and takes over, from its own counter. It measures no offset then, so
its STATE stays what the loss of the primary left: the model's choice (notes/assumptions/64.md). -/
def execMasterTimeout (s : State) : Result :=
  .next (
    if s.time.role != 2 && s.time.role != 3 then s
    else
      let s1 := s.upPorts.foldl (fun s p => s.modPort p fun x => { x with peerHops := none }) s
      s1.modTime fun u =>
        { u with upstream := 0, hops := 0, master := s.ownPostcode, acting := true, followed := true
                 underPrimary := false
                 masterChanges := if u.acting then u.masterChanges else u.changesAt s.ownPostcode })

/-! ### The external reference (R49, R528) -/

/-- The offset of an EXTERNAL master at an edge, in 2^-16 ns: of its counter to S × 10^9 (R49). -/
def State.edgeOffset (s : State) : Int :=
  ((s.time.second.toNat * 1000000000 % 2 ^ 64 : Nat) : Int) * 65536 - (s.postmark.toNat * 65536 + s.time.phase.toNat : Nat)

/-- PPS_EDGE (R49, R466, R528): a module whose SOURCE is not EXTERNAL ignores it; at another it pulses PPS, and at a
primary master the edge is whole second S. At the second edge after link training the counter steps to S × 10^9 and the
unit locks; after the first lock the counter never steps (R45), the edge measures its offset, and SLEWING ends where that
is within ±1.5 ns (R52). The first edge after S was loaded is second S, and each later one the next: the model's reading
(notes/assumptions/64.md). The input is high for at least 1 µs (R528), so that PPS is always registered (R466). -/
def execPpsEdge (s : State) : Result :=
  .next (
    let s0 := s.pulse 209
    if s.time.source != 1 || s.power.boot == .noSupply then s
    else if s.time.role != 1 then s0
    else
      let n := if s.linksTrained then s.time.edges + 1 else 0
      let s1 := s0.modTime fun u =>
        { u with edges := n, second := u.second + 1, offset := if u.everLocked then s.edgeOffset else u.offset }
      match s.time.state with
      | .unposted =>
        if 2 ≤ n then ((s1.stepTo (s.time.second * 1000000000)).modTime fun u => { u with phase := 0 }).lock else s1
      | .slewing => if within 3 s.edgeOffset then s1.lock else s1
      | _ => s1)

/-- REFERENCE_ACQUIRE (R67, R528). -/
def execReferenceAcquire (s : State) : Result :=
  .next (if s.time.source != 1 || s.power.boot == .noSupply then s
    else s.modTime fun u =>
      { u with refPresent := true
               state := if s.external && decide (u.state = .holdover) then .slewing else u.state })

/-- REFERENCE_LOSS (R49, R57, R528): a primary master goes on in holdover, and REF_LOST asserts. -/
def execReferenceLoss (_cause : RefCause) (s : State) : Result :=
  .next (
    let s1 := s.modTime fun u => { u with refPresent := false }
    if s.time.source != 1 then s else if s.external then s1.holdover else s1)

/-! ### Rounds and schedules (R58 to R62) -/

/-- ROUND_BOUNDARY (R58 to R60, R394): the mode of scheduled traffic, the version mismatches and the cumulative
acknowledgements of the round. The spec gives no moment at which scheduled traffic returns to cut-through after the
module is LOCKED again; the model waits for the next round boundary (notes/assumptions/57.md). -/
def execRoundBoundary (s : State) : Result :=
  .next (match s.time.active with
    | none => s
    | some c =>
      let off := s.postmark.toNat - c.start.toNat
      let k := off / c.roundNs
      if s.postmark.toNat < c.start.toNat || off % c.roundNs != 0 || s.time.round == k + 1 then s
      else
        let bad := (s.upPorts.filter fun p =>
          match (s.port p).peerVersion with
          | some v => v != c.version
          | none => false).length
        (s.modTime fun u =>
          { u with round := k + 1, fallback := u.state != .locked, mismatch := satTo 0xFFFF (u.mismatch + bad) }).sendAcks)

/-- SCHEDULE_ACTIVATE (R62): at START the pending schedule becomes active; one that is ready only after START completes
with NO_TIME. -/
def execScheduleActivate (s : State) : Result :=
  .next (match s.time.pending with
    | none => s
    | some (c, r) =>
      let late := match s.cmd r.ctx r.seq with
        | some y => decide (c.start.toNat < y.startedAt.toNat)
        | none => false
      let s1 := s.modTime fun u => { u with pending := none }
      if late then s1.finishRef r 0x0106 c.version.toNat c.slots
      else if s.postmark.toNat < c.start.toNat then s
      else
        ((s1.modTime fun u => { u with active := some c, round := 0 }).modFabric fun f =>
          { f with slots := [] }).finishRef r 0 c.version.toNat c.slots)

/-! ### Franking and telemetry (R453 to R457, R507) -/

/-- The closed record of a period (R455, R456). -/
def closedPeriod (s : State) (k : Frank) : Frank :=
  { k with flags := 1 + (if bitOf k.flags 1 then 2 else 0) + (if s.time.state = .holdover then 4 else 0)
           asOf := s.postmark.toNat - 1 }

/-- FRANKING_BOUNDARY (R63, R64, R455): every function's period closes. -/
def execFrankingBoundary (s : State) : Result :=
  .next (
    let p := s.postmark.toNat
    if !s.frankDue then s
    else (List.range 64).foldl (fun s f =>
      let k := (s.fn f).frank
      (s.modFn f fun x =>
        { x with periods := (closedPeriod s k :: x.periods).take 48
                 frank := { index := p / frankNs, start := p } }).pulse (128 + f)) s)

/-- One amount shared among the functions in proportion to their core time, without the part of the interval in which
nothing was held (R454): truncated shares; what remains goes to function 0. -/
def State.shareEnergy (s : State) (amount unheld : Nat) (use : Fn → Nat) : State :=
  let total := ((List.range 64).map fun f => use (s.fn f)).foldl (· + ·) 0
  let all := max 1 s.meter.elapsed
  let share (f : Nat) : Nat :=
    if total = 0 then 0 else amount * (all - unheld) * use (s.fn f) / (all * total)
  let given := ((List.range 64).map share).foldl (· + ·) 0
  (List.range 64).foldl (fun s f =>
    let n := share f + (if f = 0 then amount - given else 0)
    if n = 0 then s else s.modFn f fun k => { k with frank := { k.frank with energy := k.frank.energy + n } }) s

/-- ENERGY_INTERVAL (R454): one millisecond's energy, in mJ, of each die with its stacks, and the rest. -/
def execEnergyInterval (dieMillijoules : List Nat) (restMillijoules : Nat) (s : State) : Result :=
  .next (
    if s.power.boot = .noSupply then s
    else
      let s1 := (List.range 4).foldl (fun a d =>
        a.shareEnergy (dieMillijoules.getD d 0) (s.meter.unheld.getD d 0) fun k => k.interval.getD d 0) s
      let s2 := s1.shareEnergy restMillijoules (s.meter.unheld.getD 4 0) fun k => k.interval.foldl (· + ·) 0
      let s3 := s2.everyFn fun f => { f with interval := [0, 0, 0, 0] }
      { s3 with meter := { quiet := s.meter.quiet } })


/-- TELEMETRY_REFRESH (R457, R506, R507, R520). -/
def execTelemetryRefresh (vin iin pin pinPeak : W16) (temps : List Nat) (hubTj : Nat) (s : State) : Result :=
  .next (
    if !s.powered then s
    else
      let s1 := s.everyFn fun k => { k with frankCur := { k.frank with asOf := s.postmark.toNat } }
      State.noteTemps { s1 with
        power := { s1.power with
          telem := packFields [(0, 16, vin.toNat), (16, 16, iin.toNat), (32, 16, pin.toNat), (48, 16, pinPeak.toNat)]
          hubTj := hubTj % 256 }
        regs := { s1.regs with temps := (List.range 12).map fun i =>
          if s.faults.stackOut.contains i then 0xFF else satTo 254 (temps.getD i 0) } })

end Sys2Proof.Machine
end

