-- ==== Sys2Proof/Machine/Reset.lean ====
section
/-! DEFINITION. Module reset and loss of supply (spec/18 R487, R492 to R494, R496, R498, R501, R509; spec/01 R38;
spec/02 R44; spec/03 R94, R95, R100; spec/17 R478). -/

namespace Sys2Proof.Machine

open Sys2Proof

/-! ### Retired units (R38) -/

/-- Applies one record of a retired unit: its spare is in service, or the unit is out. Core 16 is a spare that failed its
audit and never served. A unit with two records is marked as having used its spare, whether or not that had come into
service (R40): the model's choice (notes/assumptions/64.md). -/
def applyRetired (f : Faults) : Retired → Faults
  | .core t q =>
    if f.clusterOut.contains t then f
    else if q = 16 then { f with clusterOut := t :: f.clusterOut, spareUsed := f.spareUsed.filter fun a => a != t }
    else if f.spareUsed.contains t then { f with clusterOut := t :: f.clusterOut }
    else { f with spareUsed := t :: f.spareUsed }
  | .cluster t => if f.clusterOut.contains t then f else { f with clusterOut := t :: f.clusterOut }
  | .lane p _ =>
    if f.portOut.contains p then f
    else if f.laneUsed.contains p then { f with portOut := p :: f.portOut }
    else { f with laneUsed := p :: f.laneUsed }
  | .channel k =>
    if f.pchUsed.contains k then f else { f with pchUsed := k :: f.pchUsed, pchFailed := k :: f.pchFailed }
  | .stack k => if f.stackOut.contains k then f else { f with stackOut := k :: f.stackOut }

/-- A port after a module reset: its retired lanes stay retired, and it is OUT or DARK where it was. -/
def Port.afterReset (x : Port) : Port :=
  { state := if x.state = .out then .out else if x.state = .dark then .dark else .down, retired := x.retired }

/-- The lanes that the flash lists as retired, port by port. -/
def retiredPorts (l : List Retired) (out : List Nat) : SMap Port :=
  l.foldl (fun m r =>
    match r with
    | .lane p n =>
      let x := mapGetD m ({ } : Port) p
      mapPut m p { x with retired := n :: x.retired, state := if out.contains p then .out else .down }
    | _ => m) []

/-! ### Functions and the postmaster -/

/-- A function after a module reset (R12, R77, R94, R514): COMPLETE replies that the host may not have consumed are
held to be written again with REPOST. Its shadow is dropped, while the I3C port's is kept: the spec says nothing of the
shadows of R14 at a module reset, and this is the model's choice (notes/assumptions/57.md). -/
def Fn.moduleReset (k : Fn) : Fn :=
  let again := (k.written.filter fun r => r.kind == 2).map fun r => { r with repost := true }
  { ({ } : Fn) with
    held := again ++ k.held, isoA := k.isoA, isoB := k.isoB, snaps := k.snaps, frank := k.frank
    frankCur := k.frankCur, periods := k.periods, interval := k.interval }

/-- A function after a loss of supply (R95, R455): closed records stay; the current period starts from zero, PARTIAL. -/
def Fn.supplyLost (k : Fn) : Fn :=
  { ({ } : Fn) with isoA := k.isoA, isoB := k.isoB, periods := k.periods, frank := { flags := 2 } }

/-- The postmaster's counters at a module reset (R458); its values are in flash. -/
def Postmaster.counted (m : Postmaster) : Postmaster := { m with ignored := 0, reqOk := 0, reqRefused := 0 }

/-- ROLE and SOURCE as loaded from the postmaster's values (R461). -/
def State.loadTime (s : State) : State :=
  s.modTime fun u =>
    { u with role := s.pm.role, source := s.pm.source, refPresent := u.refPresent && u.source == 1 && s.pm.source == 1
             acting := u.acting && s.pm.role == 2 }

/-- The firmware bank with the higher version among those that verify (R501). -/
def Power.bootFirmware (p : Power) : Power :=
  let b := p.bankB.valid && (!p.bankA.valid || decide (p.bankA.version < p.bankB.version))
  { p with
    bank := if b then 1 else 0
    fwVersion := if b then p.bankB.version else p.bankA.version, staged := false }

/-! ### What a reset saves -/

/-- Commands that keep what they had when a reset comes: a pending schedule (R65), a created table, a flipped
TABLE_REPLACE, a LAUNCH whose record the context keeps. -/
def keepsStart (x : Option Ctx) (c : W32) (y : Cmd) : Bool :=
  y.opcode == 0x0060 || y.opcode == 0x0020 ||
  match x with
  | some x =>
    (x.launch y.seq).isSome ||
    x.tables.any fun t => match t.2.replacing with
      | some r => r.flipped.isSome && r.cmd == ⟨c, y.seq⟩
      | none => false
  | none => false

/-- The commands of a context as the journal gives them back (R56, R100): the replay goes through all that have not
completed. -/
def CmdState.reset (k : CmdState) (x : Option Ctx) (c : W32) : CmdState :=
  let back (y : Cmd) : Cmd :=
    if y.phase == .accepted || (y.phase == .started && !keepsStart x c y) then
      { y with phase := .accepted, replayed := true } else y
  { k with cmds := k.cmds.map back }

/-- A context without what a reset ends: a move under way, a snapshot under way, a replacement that has not flipped. -/
def Ctx.still (x : Ctx) : Ctx :=
  let keep (r : Replacing) : Option Replacing := if r.flipped.isSome then some r else none
  { x with
    issueHeld := false, preempting := none, resuming := none, snapping := none
    tables := x.tables.map fun t => (t.1, { t.2 with replacing := t.2.replacing.bind keep }) }

/-- The RUNNING single-module contexts (R493). -/
def State.toBeSaved (s : State) : List W32 :=
  (s.ctxs.filter fun x => x.2.running && x.2.span != 1).map fun x => BitVec.ofNat 32 x.1

/-- Steps 2 and 3 of R494 for one context: its launches are interrupted, and its teams are saved. -/
def State.saveForReset (s : State) (c : W32) : State :=
  match s.ctx c with
  | none => s
  | some x =>
    let s1 := (x.launches.filter fun l => !l.interrupted).foldl (fun s l => s.interrupt c l false) s
    (s1.saveTeams c).modCtx c fun y => { y with restoreDue := true, pausedAt := s.postmark }

/-- A fabric context loses its teams' state (R494). One without a role has no holder that recovers it: its commands are
abandoned. -/
def State.loseFabric (s : State) (c : W32) : State :=
  match s.ctx c with
  | none => s
  | some x =>
    let s1 := if x.running then s.stopCtx c x.teams true else s
    if s.postcodeOf c = 0xFFFF then (s1.abandonAll c fun _ => false).1 else s1

/-- The contexts with commands to replay, or a state to restore (R100). -/
def State.toReplay (s : State) : List Nat :=
  (s.cmds.filter fun k => k.2.cmds.any fun y => !y.over).map Prod.fst ++
  (s.ctxs.filter fun x => x.2.restoreDue).map Prod.fst

/-- The hub objects of a single-module context, which its saved state holds over a reset (R367, R494). -/
def State.hubOf (s : State) (c : Nat) (x : Ctx) : SMap HubObj :=
  if x.span = 1 then [] else s.hub.filter fun o => o.2.owner.toNat == c

/-- After READY the saved contexts have their hub objects again (R351, R367, R494). -/
def State.restoreHub (s : State) : State :=
  { s with
    hub := s.ctxs.foldl (fun m x => x.2.savedHub.foldl (fun m o => mapPut m o.1 o.2) m) s.hub
    ctxs := s.ctxs.map fun x => (x.1, { x.2 with savedHub := [] }) }

/-! ### The reset (R494) -/

/-- The parts of the module that a reset of type 2, 3 or 4 puts back to their reset values (R12), with the flash record
of retired units applied (R38): a spare whose audit, filling or swap the reset cut short is in service. -/
def State.resetUnits (s : State) : State :=
  let f := s.faults
  let teams := s.teams.filter fun t => t.2.testing
  { s with
    teams := teams.map fun t => (t.1, { Team.reset with testing := true })
    unfenced := [], hubWatches := [], hubWaiting := [], cache := [], irq := { }
    fns := s.fns.map fun k => (k.1, k.2.moduleReset)
    fabric :=
      { ports := s.fabric.ports.map fun x => (x.1, x.2.afterReset), cart0 := s.fabric.cart0, cart1 := s.fabric.cart1
        out := s.fabric.out }
    faults :=
      { spareUsed := (f.auditing ++ f.spareUsed).eraseDups, clusterOut := f.clusterOut
        laneUsed := ((s.fabric.ports.filter fun x => !x.2.retired.isEmpty && x.2.state != .out).map Prod.fst ++
          f.laneUsed).eraseDups
        portOut := f.portOut, pchUsed := (f.filling ++ f.pchUsed).eraseDups, pchFailed := f.pchFailed
        stackOut := f.stackOut, cores := (List.range 8).filter fun m => m < 6 || f.cores.contains m
        faultIn := f.faultIn, armed := f.armed, retake := f.retake }
    pm := s.pm.counted
    regs := { i3cAddress := s.regs.i3cAddress, i3cShadow := s.regs.i3cShadow }
    meter := { s.meter with quiet := [] } }

/-- The power fields after a reset: the contacts, the supply and the firmware banks stay (R504, R509), PWRGD is low until
step 3 has ended (R495), and the clocks that a trip stopped run again. Start-up goes on
at step 3, so the model counts step 2 as done (notes/assumptions/57.md); BOOT_STEP reads 0 (`Power.lastStep`). -/
def Power.moduleReset (p : Power) (cool : Bool) : Power :=
  { bankA := p.bankA, bankB := p.bankB, bank := p.bank, fwVersion := p.fwVersion, staged := p.staged
    lastType := p.lastType, journalKept := p.journalKept, resets := p.resets, thermTrips := p.thermTrips
    boot := p.boot, bootStep := 2, pwrEn := p.pwrEn, modResetN := p.modResetN
    supplyBad := p.supplyBad, vin := p.vin, tripped := p.tripped && !cool }

/-- Whether every junction reads 100 °C or below (R487). -/
def State.cool (s : State) : Bool :=
  decide (s.power.hubTj ≤ 100) && (List.range 4).all fun d => decide ((s.die d).tj ≤ 100)

/-- Steps 1 to 5 of R494. While fenced, the contexts stay FAULTED and their roles are not taken again (R493 type 4). -/
def State.downReset (s : State) (fenced : Bool) : State :=
  let s1 := if fenced then s else s.toBeSaved.foldl State.saveForReset s
  let fabric := (s1.ctxs.filter fun x => x.2.span == 1).map fun x => (BitVec.ofNat 32 x.1 : W32)
  let s2 := fabric.foldl State.loseFabric s1
  let lost := if fenced then [] else s2.fabric.roles.foldl (fun m r => mapPut m r.1 r.2) s2.faults.retake
  let s3 : State := { s2 with
    cmds := s2.cmds.map fun k =>
      (k.1, k.2.reset (s2.ctx (BitVec.ofNat 32 k.1)) (BitVec.ofNat 32 k.1))
    ctxs := s2.ctxs.map fun x =>
      (x.1, { x.2.still with launches := if fenced then [] else x.2.launches
                             savedHub := if fenced then [] else
                               (s2.hubOf x.1 x.2).foldl (fun m o => mapPut m o.1 o.2) x.2.savedHub })
    hub := []
    faults := { s2.faults with retake := lost } }
  let s4 := (s3.resetUnits.holdover.loadTime).modTime fun u => { u with edges := 0, badFrames := 0 }
  { s4 with
    power := s4.power.moduleReset s.cool
    irq := { }
    journal := { s4.journal with replaying := s4.toReplay.eraseDups }.prune }

/-- Counts a reset and starts the image that waits (R501, R509). -/
def State.countReset (s : State) (type : Nat) : State :=
  { s with power :=
    { s.power.bootFirmware with
      lastType := type, journalKept := !s.journal.copies.isEmpty, resets := satTo 0xFFFF (s.power.resets + 1)
      stRetired := 0, failedStep := 0 } }

/-- A module reset of type 3 or 4 (R493, R494), which then stands where `boot` says. -/
def State.moduleReset (s : State) (type : Nat) (boot : BootPhase) : State :=
  let s1 := (s.downReset (type == 4)).countReset type
  { s1 with power := { s1.power with boot := boot } }

/-- Whether a module reset can act: the module is past step 2 and powered. -/
def State.resettable (s : State) : Bool :=
  match s.power.boot with
  | .running => true
  | .starting => decide (2 ≤ s.power.bootStep)
  | _ => false

/-- Loss of supply (R95, R481): only what the flash and the fuses hold is left, with the contacts. -/
def State.loseSupply (s : State) : State :=
  let z := State.reset
  let f := s.retired.foldl applyRetired z.faults
  let copies := z.journal.copies.filter fun k => !f.stackOut.contains k
  State.darkPorts { z with
    part9620 := s.part9620, metal := s.metal, pool := s.pool, retired := s.retired, uid := s.uid
    fns := (List.range 64).map fun f => (f, (s.fn f).supplyLost)
    fabric := { ports := retiredPorts s.retired f.portOut, cart0 := s.fabric.cart0, cart1 := s.fabric.cart1
                out := s.fabric.out }
    faults := { f with faultIn := s.faults.faultIn, armed := s.faults.armed }
    journal := { copies := copies, rebuilding := decide (copies.length < 2) }
    pm := s.pm.counted
    power := { bankA := s.power.bankA, bankB := s.power.bankB, boot := .noSupply, supplyBad := false, vin := s.power.vin
               pwrEn := s.power.pwrEn, modResetN := s.power.modResetN }
    hostMem := s.hostMem, resp := s.resp, free := s.free, pending := s.pending }

/-! ### Start-up (R496, R498) -/

/-- Whether the grade exposes a unit (R30, R40, R41). -/
def State.exposes (s : State) : Retired → Bool
  | .core t _ => !s.part9620 || t % 6 != 5
  | .cluster t => !s.part9620 || t % 6 != 5
  | .lane p _ => !s.part9620 || decide (p < 16)
  | .channel _ => true
  | .stack _ => true

/-- A unit that start-up's test retires (R39, R498): a change that is counted. The first core, lane or pseudo-channel has
its spare in service at once; a second core takes its cluster, a second lane its port and a second pseudo-channel its
stack (R37, R41, R413). A cluster or a stack fails as it does in operation, with the contexts that the journal keeps. -/
def State.retireAtStart (s : State) (r : Retired) : State :=
  if s.retired.contains r || !s.exposes r then s
  else
    let s1 : State := { s with power := { s.power with stRetired := satTo 0xFF (s.power.stRetired + 1) } }
    let spare (s : State) : State := ((s.retire r).modFaults fun f => applyRetired f r).spareChange
    match r with
    | .core t _ =>
      if s.faults.clusterOut.contains t then s1.retire r
      else if s.faults.spareUsed.contains t then (s1.retire r).clusterFails t
      else spare s1
    | .cluster t => if s.faults.clusterOut.contains t then s else (s1.retire r).clusterFails t
    | .lane p l =>
      if s.faults.portOut.contains p then s
      else
        let s2 := (spare s1).modPort p fun x => { x with retired := l :: x.retired }
        (if s2.faults.portOut.contains p then s2.modPort p fun x => { x with state := .out } else s2).pulse 197
    | .channel k =>
      if s.faults.stackOut.contains k then s
      else if s.faults.pchFailed.contains k then s1.stackFails k
      else spare s1
    | .stack k => if s.faults.stackOut.contains k then s else s1.stackFails k

/-- The end of link training at a primary master (R44, R49, R52): a FREE one that has never locked locks; one in
HOLDOVER goes to SLEWING, where SOURCE is EXTERNAL once the reference is there. -/
def State.lockMaster (s : State) : State :=
  let source := s.time.role == 1 && s.time.source == 0
  if source && s.time.state == .unposted then s.lock
  else if (source || (s.external && s.time.refPresent)) && s.time.state == .holdover then
    s.modTime fun u => { u with state := .slewing }
  else s

/-- The end of step 7 (R44, R52, R496): a FREE master, which has no offset to its own time, leaves SLEWING for LOCKED. -/
def State.settleMaster (s : State) : State :=
  if s.time.role == 1 && s.time.source == 0 && s.time.state == .slewing then s.lock else s

/-- Step 2 of a type 1 start-up: the values in flash take effect; a FREE master's epoch postmark and an EXTERNAL
master's S are loaded (R49, R461). -/
def State.loadFlash (s : State) : State :=
  let s1 : State := { s.loadTime with power := s.power.bootFirmware }
  let s2 := match s1.pm.secondNext with
    | some v => (s1.modTime fun u => { u with second := v }).modPm fun m => { m with secondNext := none }
    | none => s1
  match s2.pm.epochNext with
  | some v =>
    if s2.time.role = 1 ∧ s2.time.source = 0 then
      (s2.stepTo (s2.postmark + v)).modPm fun m => { m with epochNext := none }
    else s2
  | none => s2

/-- The end of step 3 (R496, R508): PWRGD goes high, and each die's supply has its setpoint, any within the range of R485. -/
def State.raiseRails (s : State) : State :=
  let mv (d : Nat) : Nat := 650 + (Config.freeWord (s.free + d)).toNat % 251
  { s with
    free := s.free + 4
    power := { s.power with
      pwrGood := true
      dies := (List.range 4).foldl (fun m d => mapPut m d { s.die d with mv := mv d }) s.power.dies } }

/-- What the end of a start-up step does. -/
def State.startupEffect (s : State) (n : Nat) : State :=
  if n = 2 then if s.power.lastType = 1 then s.loadFlash else s
  else if n = 3 then s.raiseRails
  else if n = 6 then (s.modTime fun u => { u with edges := 0 }).lockMaster
  else if n = 7 then s.settleMaster
  else if n = 10 then
    { s.restoreHub with
      power := { s.power with boot := .running, ready := true }
      faults := { s.faults with
        take := if s.faults.take = .none ∧ !s.faults.armed.isEmpty then .armed else s.faults.take } }
  else s

/-- Whether the step after the last completed one may end: no step has failed; step 2 needs a valid image; step 3 needs
PWR_EN high and MOD_RESET_N high (R495, R496, R498). -/
def State.stepMayEnd (s : State) : Bool :=
  let p := s.power
  p.boot == .starting && p.failedStep == 0 && decide (p.bootStep < 10) &&
  (p.bootStep != 1 || p.bankA.valid || p.bankB.valid) && (p.bootStep != 2 || (p.pwrEn && p.modResetN))

end Sys2Proof.Machine
end

