-- ==== Sys2Proof/Machine/Access.lean ====
section
/-! DEFINITION. Accesses from outside: BAR0, BAR2, PCIe configuration and function level reset, and the I3C port
(spec/00 R10 to R14, spec/03 R77, R95, spec/17 R474 to R478, spec/19 R510 to R522, spec/20 R529, R530). -/

namespace Sys2Proof.Machine

open Sys2Proof

/-! ### Register writes -/

/-- A write of PWR_CTRL (R490, R505): bits [31:0] hold SLEEP, AUTO_DOZE, IDLE_US and F_CEIL, bits [63:32] RESET and
KEY. A reset that it starts goes on at step 3 of start-up at once (R494); one under way takes it in. -/
def State.writePwrCtrl (s : State) (v : Nat) (low high : Bool) : State :=
  let s1 := if low then (s.writePwrFields v).writeSleep (bitOf v 0) else s
  if high && bitOf v 32 && bits v 40 8 == 0xD1 && s1.resettable then s1.moduleReset 3 .starting else s1

/-- A write to the module status region by the physical function or the I3C port (R201, R309, R410, R505). -/
def State.writeStatusReg (s : State) (who off v : Nat) (low high : Bool) : State :=
  if off = 0x200 then if low then s.writeScSelect who (v % 2 ^ 32) else s
  else if off = 0x300 then if low then s.writeRowPlace v else s
  else if off = 0x608 then if low then s.popDlq v else s
  else if off = 0x800 then s.writePwrCtrl v low high
  else s

/-- What a requester reads at a register, zero where it sees none. -/
def State.readsAs (s : State) (who off : Nat) : W64 := (s.readReg who off).getD 0

/-- A write to a postmaster register: ignored and, in a register with PW fields, counted (R10, R458). The model counts
one that reaches only the RO half of such a register, and none to PM_FUSES, PM_REQ or PM_MODULE_ID, which have no PW
field: the spec does not say (notes/assumptions/57.md). -/
def State.writePmReg (s : State) (off : Nat) : State :=
  if off = 0x00 ∨ off = 0x20 ∨ off = 0x28 then s else s.ignoreWrite

/-- A write of `width` bytes at `off`, which its requester's view holds (R10, R14, R512). -/
def State.writeReg (s : State) (who off width v : Nat) : State :=
  let reg := off / 8 * 8
  let low := writesLow off width
  let m := mergeWrite (s.readsAs who reg) off width v
  if 0x1000 ≤ reg ∧ reg < 0x41000 then s.writeLetterbox who (reg % 0x1000) m low
  else if 0x100000 ≤ reg ∧ reg < 0x100218 then s.writeBank who (reg - 0x100000) m low
  else if 0x110000 ≤ reg ∧ reg < 0x112000 then s.writeSrcCfg ((reg - 0x110000) / 8) m
  else if 0x180000 ≤ reg ∧ reg < 0x180010 then s.writeMsix who reg m
  else if 0x300900 ≤ reg ∧ reg < 0x300B00 then
    if low then s.modFn who fun k => { k with bar2Base := min 15359 (m % 2 ^ 14) } else s
  else if 0x300000 ≤ reg ∧ reg < 0x300900 then
    s.writeStatusReg who (reg - 0x300000) m low (width == 8 || off % 8 == 4)
  else if 0x800000 ≤ reg ∧ reg < 0x8006C0 then s.writePmReg (reg - 0x800000)
  else s

/-- Whether a requester's view holds the register at an offset (R513). -/
def State.holds (s : State) (who off : Nat) : Bool := (s.readReg who (off / 8 * 8)).isSome

/-- Whether an access of one register has a length and an alignment that R511 serves. -/
def accessOk (off width : Nat) : Bool := (width == 4 && off % 4 == 0) || (width == 8 && off % 8 == 0)

/-- A register write by a requester: dropped where R511 says so. The I3C port's is refused by its transport (R513). -/
def State.access (s : State) (who off width v : Nat) : State :=
  if !s.requesterUp who then s
  else if accessOk off width && s.holds who off then s.writeReg who off width v
  else if who = i3c then s
  else s.drop who false off

/-- REGISTER_WRITE (R10, R14, R511). -/
def execRegisterWrite (who offset width : Nat) (value : W64) (s : State) : Result :=
  .next (s.access who offset width value.toNat)

/-- SQ_CFG_ENABLE (R77). -/
def execSqCfgEnable (fn : Nat) (value : W64) (s : State) : Result :=
  .next (if s.reaches fn then s.writeSqCfg fn value.toNat else s)

/-- SQ_DOORBELL (R78). -/
def execSqDoorbell (fn : Nat) (value : W64) (s : State) : Result :=
  .next (if s.reaches fn then s.writeDoorbell fn value.toNat else s)

/-- RQ_CFG_ENABLE (R77). -/
def execRqCfgEnable (fn : Nat) (value : W64) (s : State) : Result :=
  .next (if s.reaches fn then s.writeRqCfg fn value.toNat else s)

/-- RQ_CONSUMED (R78). -/
def execRqConsumed (fn : Nat) (value : W64) (s : State) : Result :=
  .next (if s.reaches fn then s.writeRqConsumed fn value.toNat else s)

/-- Whether a requester is the physical function or the I3C port, and reaches registers now. -/
def State.pfOrI3c (s : State) (who : Nat) : Bool := (who == 0 || who == i3c) && s.requesterUp who

/-- SC_SELECT (R201). -/
def execScSelect (who : Nat) (value : W64) (s : State) : Result :=
  .next (if s.pfOrI3c who then s.writeScSelect who (value.toNat % 2 ^ 32) else s)

/-- PEND_WRITE (R471). -/
def execPendWrite (fn g : Nat) (value : W32) (s : State) : Result :=
  .next (if s.reaches fn && decide (g < 32) then s.writePend fn g value else s)

/-- MASK_WRITE (R469). -/
def execMaskWrite (fn g : Nat) (value : W32) (s : State) : Result :=
  .next (if s.reaches fn && decide (g < 32) then s.writeMask fn g value else s)

/-- REARM (R470). -/
def execRearm (fn : Nat) (value : W64) (s : State) : Result :=
  .next (if s.reaches fn then s.writeRearm fn value.toNat else s)

/-- DLQ_POP (R410). -/
def execDlqPop (who : Nat) (value : W64) (s : State) : Result :=
  .next (if s.pfOrI3c who then s.popDlq value.toNat else s)

/-- SLEEP_REQUEST (R490, R505): a write of bits [31:0] of PWR_CTRL, which requests SLEEP or wake. -/
def execSleepRequest (who : Nat) (value : W64) (s : State) : Result :=
  .next (if s.pfOrI3c who then s.access who 0x300800 4 value.toNat else s)

/-- RESET (R505): a write of PWR_CTRL with RESET 1 and KEY 0xD1. -/
def execReset (who : Nat) (value : W64) (s : State) : Result :=
  .next (if s.pfOrI3c who && bitOf value.toNat 32 then s.access who 0x300800 8 value.toNat else s)

/-! ### Register reads -/

/-- Answers a 64-bit read of a register that the requester's view holds, and clears what it returns (R10, R11, R14). -/
def State.readAnswer (s : State) (who off : Nat) : State :=
  match s.readReg who off with
  | some v => (s.read64Reg who off v).answer who 0 (leBytes 8 v.toNat)
  | none => s

/-- LB_STATUS_READ (R77). -/
def execLbStatusRead (fn : Nat) (s : State) : Result :=
  .next (if s.reaches fn then s.readAnswer fn (0x1000 * (fn + 1) + 0x040) else s)

/-- SRC_STATE_READ (R474). -/
def execSrcStateRead (who g : Nat) (s : State) : Result :=
  .next (if s.pfOrI3c who && decide (g < 32) then s.readAnswer who (0x112000 + 16 * g) else s)

/-- PWR_STATUS_READ (R506). -/
def execPwrStatusRead (who : Nat) (s : State) : Result :=
  .next (if s.pfOrI3c who then s.readAnswer who 0x300808 else s)

/-- A read that R511 or R513 does not serve: zeros, counted for a function; status 1 for the I3C port. -/
def State.badRead (s : State) (who off n : Nat) : State :=
  if who = i3c then s.answer i3c 1 (leBytes n 0) else (s.drop who false off).answer who 0 (leBytes n 0)

/-- LOW_HALF_READ (R14): `offset` names the register. -/
def execLowHalfRead (who offset : Nat) (s : State) : Result :=
  .next (
    if !s.requesterUp who || offset % 8 != 0 then s
    else
      match s.readReg who offset with
      | some v => (s.readLow who offset v).answer who 0 (leBytes 4 (loHalf v).toNat)
      | none => s.badRead who offset 4)

/-- HIGH_HALF_READ (R14): `offset` names the register. -/
def execHighHalfRead (who offset : Nat) (s : State) : Result :=
  .next (
    if !s.requesterUp who || offset % 8 != 0 then s
    else
      match s.readReg who offset with
      | some v =>
        let r := s.readHigh who offset v
        r.2.answer who 0 (leBytes 4 r.1.toNat)
      | none => s.badRead who (offset + 4) 4)

/-- The 64-bit parts of an access (R511). -/
def partsOf (off len : Nat) : List Nat := (List.range (len / 8)).map fun i => off + 8 * i

/-- A 64-bit part of a read (R11, R14, R511): the bytes that it adds; a part outside the view reads zero and is counted. -/
def State.readPart (who : Nat) (x : State × List Byte) (off : Nat) : State × List Byte :=
  match x.1.readReg who off with
  | some v => (x.1.read64Reg who off v, x.2 ++ leBytes 8 v.toNat)
  | none => (x.1.drop who false off, x.2 ++ leBytes 8 0)

/-- A read of whole 64-bit parts, in ascending offset (R511). -/
def State.readParts (s : State) (who off len : Nat) : State :=
  let r := (partsOf off len).foldl (State.readPart who) (s, [])
  r.1.answer who 0 r.2

/-- A read of one half of a register that the view holds (R14). -/
def State.readHalf (s : State) (who off : Nat) : State :=
  let v := s.readsAs who (off / 8 * 8)
  if off % 8 = 0 then (s.readLow who off v).answer who 0 (leBytes 4 (loHalf v).toNat)
  else
    let r := s.readHigh who (off / 8 * 8) v
    r.2.answer who 0 (leBytes 4 r.1.toNat)

/-- BAR0_INVALID_ACCESS (R511): an AtomicOp, a bad length or alignment, or an offset outside the view. An access longer than
8 bytes acts as its 64-bit parts: of a read each in turn; of a write those outside the view are counted here, and those
in it are REGISTER_WRITE commands. A read of a register that the view holds is served (R14). -/
def execBar0InvalidAccess (who offset len : Nat) (kind : AccessKind) (s : State) : Result :=
  .next (
    if !s.reaches who then s
    else
      let whole := 8 ≤ len ∧ len % 8 = 0 ∧ offset % 8 = 0
      match kind with
      | .atomic => (s.drop who false offset).answer who 1 []
      | .read =>
        if whole then s.readParts who offset len
        else if accessOk offset len && s.holds who offset then s.readHalf who offset
        else (s.drop who false offset).answer who 0 ((List.range len).map fun _ => 0)
      | .write =>
        if whole then
          ((partsOf offset len).filter fun o => !s.holds who o).foldl (fun s o => s.drop who false o) s
        else if accessOk offset len && s.holds who offset then s
        else s.drop who false offset)

/-! ### BAR2 (R515, R516) -/

/-- The STACK address of a BAR2 offset, where it is reached. -/
def State.aperture (s : State) (f off : Nat) : Option Nat :=
  let k := s.fn f
  let at_ := k.bar2Base * 0x4000000 + off
  let a := k.winBase * 0x4000000 + at_
  if off < 2 ^ 36 ∧ at_ < k.winSize * 0x4000000 ∧ !s.reserved a then some a else none

/-- Counts a request with a byte that is not reached (R516). -/
def State.apertureDrop (s : State) (f off len : Nat) : State :=
  if (List.range len).all fun i => (s.aperture f (off + i)).isSome then s else s.drop f true off

/-- Whether the stacks are in self-refresh, so that BAR2 is as R490 says of SLEEP: in SLEEP, and after a thermal trip
(R487, notes/assumptions/57.md). -/
def State.stacksRest (s : State) : Bool := s.power.state == .sleep || s.power.clocksStopped

/-- STACK as a BAR2 read sees it (R517): bytes that running work has written, an engine's among them, are old or new in
each 64-byte unit, but for those that a fence has made visible (R364). -/
def State.hostView (s : State) : Memory :=
  s.viewOver ⟨24, none, .tm, none⟩ .stack
    (s.unfenced.filter fun e => e.place == .stack && (!e.moduleDone || (e.core == 16 && e.team != 24)))

/-- A BAR2 write (R517): a core of running work may read each 64-byte unit of it old or new until it makes a FENCE.LOCAL
or its launch ends; every other reader sees it whole. -/
def State.hostWrite (s : State) (cells : List (Nat × Byte)) : State :=
  if s.teams.any fun t => t.2.kernel.isSome then s.store ⟨24, none, .tm, none⟩ .stack cells else s.busWrite cells

/-- BAR2_READ (R490, R515 to R517). -/
def execBar2Read (fn offset len : Nat) (s : State) : Result :=
  .next (
    if !s.reaches fn then s
    else if s.stacksRest then s.answer fn 0 ((List.range len).map fun _ => 0xFF)
    else
      let m := s.hostView
      let byte (i : Nat) : Byte := match s.aperture fn (offset + i) with
        | some a => memGet m a
        | none => 0
      (s.bumpFree.apertureDrop fn offset len).answer fn 0 ((List.range len).map byte))

/-- BAR2_WRITE (R490, R515 to R517). -/
def execBar2Write (fn offset : Nat) (data : List Byte) (s : State) : Result :=
  .next (
    if !s.reaches fn || s.stacksRest then s
    else
      let cells := (List.range data.length).filterMap fun i =>
        (s.aperture fn (offset + i)).map fun a => (a, data.getD i 0)
      (s.bumpFree.apertureDrop fn offset data.length).hostWrite cells)

/-! ### Configuration and function level reset (R95, R478, R510, R514) -/

/-- The registers of a function after a function level reset: rings and letterbox, bank, MSI-X, aperture; PCIe clears
MSI-X Enable and, in the physical function, NumVFs. Held replies wait in the journal (R76, R77). -/
def Fn.levelReset (k : Fn) : Fn :=
  { ({ } : Fn) with
    held := k.held, written := [], shadow := k.shadow, isoA := k.isoA, isoB := k.isoB, snaps := k.snaps
    frank := k.frank, frankCur := k.frankCur, periods := k.periods, interval := k.interval }

/-- A function level reset (R80, R95, R369): the rings are off, CONTEXT_RESET acts on every context of the function, its
control context's commands are abandoned, and that context's H is 0 with an empty ledger. -/
def State.levelReset (s : State) (f : Nat) : State :=
  let mine := (s.ctxs.filter fun x => x.1 / 2 ^ 26 == f).map fun x => (BitVec.ofNat 32 x.1 : W32)
  let s1 := mine.foldl (fun s c =>
    (((s.resetContext c).1.dropReplay c).modCtx c fun x => { x with restoreDue := false })) (s.modFn f Fn.levelReset)
  let ctl : W32 := BitVec.ofNat 32 (f * 2 ^ 26)
  let s2 := (s1.abandonControl ctl).modCmds ctl fun k => { k with h := 0, ledger := [] }
  let s3 := s2.modFn f fun k => { k with bank := { } }
  if f = 0 then { s3 with regs := { s3.regs with numVFs := 0 } } else s3

/-- FUNCTION_LEVEL_RESET (R95, R478). -/
def execFunctionLevelReset (fn : Nat) (s : State) : Result :=
  .next (if s.reaches fn then s.levelReset fn else s)

/-- A base address register (R510): its size, and whether it is prefetchable; each is 64 bits wide. -/
structure Bar where
  size : Nat
  prefetchable : Bool
  deriving DecidableEq, Repr

/-- The configuration items that a function presents (R510, R514). -/
structure CfgSpace where
  vendorId : W16
  deviceId : W16
  bar0 : Bar
  bar2 : Bar
  msixTableSize : Nat
  msixTable : Nat × Nat
  msixPba : Nat × Nat
  levelReset : Bool
  totalVFs : Option Nat
  numVFs : Option Nat
  vfStride : Option Nat
  readinessMs : Option Nat
  atomicCompleter : Bool
  deriving DecidableEq, Repr

/-- The configuration items of a function that exists (R31, R497, R510, R514). MSI-X's table and PBA are each a BAR and an
offset; what only the physical function presents is `none` in a virtual one. -/
def State.cfgSpace (s : State) (f : Nat) : CfgSpace where
  vendorId := 0xF1A5
  deviceId := s.deviceId f
  bar0 := ⟨0x4000000, false⟩
  bar2 := ⟨0x1000000000, true⟩
  msixTableSize := 0
  msixTable := (0, 0x180000)
  msixPba := (0, 0x181000)
  levelReset := true
  totalVFs := if f = 0 then some 63 else none
  numVFs := if f = 0 then some s.regs.numVFs else none
  vfStride := if f = 0 then some 1 else none
  readinessMs := if f = 0 then some 3200 else none
  atomicCompleter := false

/-- A configuration write that the endpoint serves (R469, R510): messages that waited are sent where nothing masks them any
more. -/
def State.configure (s : State) (fn : Nat) (what : CfgWrite) : State :=
  match what with
  | .msixEnable on => (s.modFn fn fun k => { k with msixOn := on }).sendPending fn
  | .msixMask on => (s.modFn fn fun k => { k with msixFnMask := on }).sendPending fn
  | .numVFs n => if fn = 0 ∧ n ≤ 63 then { s with regs := { s.regs with numVFs := n } } else s

/-- CONFIGURATION_WRITE (R497, R510): the completion is 0 successful, or 2 Request Retry Status until step 8 of start-up has
ended. -/
def execConfigurationWrite (fn : Nat) (what : CfgWrite) (s : State) : Result :=
  .next (
    if s.retries then s.answer fn 2 []
    else if !s.reaches fn then s
    else (s.configure fn what).answer fn 0 [])

/-! ### The I3C port (R513, R529, R530) -/

/-- READ64 (R530). -/
def execRead64 (offset : Nat) (s : State) : Result :=
  .next (
    if !s.i3cUp then s
    else if offset % 8 = 0 ∧ s.holds i3c offset then s.readAnswer i3c offset
    else s.badRead i3c offset 8)

/-- WRITE64 (R530). -/
def execWrite64 (offset : Nat) (value : W64) (s : State) : Result :=
  .next (
    if !s.i3cUp then s
    else if offset % 8 = 0 ∧ s.holds i3c offset then (s.writeReg i3c offset 8 value.toNat).answer i3c 0 []
    else s.answer i3c 1 [])

/-- READ32 (R14, R530). -/
def execRead32 (offset : Nat) (s : State) : Result :=
  .next (
    if !s.i3cUp then s
    else if offset % 4 ≠ 0 then s.badRead i3c offset 4
    else
      match s.readReg i3c (offset / 8 * 8) with
      | none => s.badRead i3c offset 4
      | some v =>
        if offset % 8 = 0 then (s.readLow i3c offset v).answer i3c 0 (leBytes 4 (loHalf v).toNat)
        else
          let r := s.readHigh i3c (offset / 8 * 8) v
          r.2.answer i3c 0 (leBytes 4 r.1.toNat))

/-- Bytes that the spec does not give, as many as a free number below `n` says. -/
def freeBytes (key n : Nat) : List Byte :=
  (List.range ((Config.freeWord (1024 * key)).toNat % n)).map fun i => (Config.freeWord (1024 * key + i + 1)).setWidth 8

/-- MCTP_CONTROL (R529): discovery and identification; the response body is the MCTP standard's, which the spec does not
restate. -/
def execMctpControl (request : List Byte) (s : State) : Result :=
  .next (if s.i3cUp then s.bumpFree.answer i3c 0 (freeBytes (s.free + request.length) 256) else s)

/-- The reading of a numeric sensor: the junctions of the dies 0 to 3 and of the hub, the stacks, then VIN, IIN and PIN
of PWR_TELEM. The numbering is the model's. -/
def State.sensor (s : State) (n : Nat) : Option Nat :=
  if n < 4 then some (s.die n).tj
  else if n = 4 then some s.power.hubTj
  else if n < 17 then some (s.regs.temps.getD (n - 5) 0)
  else if n < 20 then some (bits s.power.telem.toNat (16 * (n - 17)) 16)
  else none

/-- PLDM (R529): type 0 discovery and type 2 monitoring; nothing else is accepted. -/
def execPldm (kind : Byte) (sensor : Nat) (s : State) : Result :=
  .next (
    if !s.i3cUp then s
    else if kind = 0 then s.bumpFree.answer i3c 0 (freeBytes (s.free + 7 * sensor) 256)
    else if kind = 2 then
      match s.sensor sensor with
      | some v => s.answer i3c 0 (leBytes 2 v)
      | none => s.answer i3c 1 []
    else s)

/-- The 48-bit provisioned identifier of the I3C target (R529): Fjarsin's manufacturer ID, a fixed value, PART, and
the low half word of PM_MODULE_ID. -/
def State.provisionedId (s : State) : Nat :=
  0x71A5 * 2 ^ 33 + (if s.part9620 then 0x9620 else 0x9640) * 2 ^ 16 + s.pm.moduleId.toNat % 2 ^ 16

/-- DYNAMIC_ADDRESS_ASSIGN (R529): by SETDASA, or by ENTDAA, in which the target sends its provisioned identifier, the
most significant byte first. Which of the two it is, is free. -/
def execDynamicAddressAssign (address : BitVec 7) (s : State) : Result :=
  .next (
    if !s.i3cUp then s
    else
      let s1 : State := { s with free := s.free + 1, regs := { s.regs with i3cAddress := some address } }
      if Config.choice s.free 0 then s1.answer i3c 0 (leBytes 6 s.provisionedId).reverse else s1)

/-! ### Storms and stuck sources (R474) -/

/-- STORM_WINDOW_END (R474): at a local postmark that is a whole millisecond, the sources whose count in the window that
ended exceeds STORM_LIMIT, as it stands then, have their STORM set, if the edge that exceeded it has not set it yet
(`State.countEdges`). STORM counting stops in SLEEP (R476). -/
def execStormWindowEnd (s : State) : Result :=
  .next (
    if s.postmark.toNat % 1000000 != 0 || s.power.state == .sleep then s
    else
      let stormed := (s.irq.ended.filter s.stormy).map Prod.fst
      { s with irq := { s.irq with storm := (s.irq.storm ++ stormed).eraseDups, ended := [] } })

/-- STUCK_TIMEOUT (R474): a condition has asserted for longer than STUCK_US. -/
def execStuckTimeout (source : Nat) (s : State) : Result :=
  .next (
    let us := (s.srcCfg source).stuckUs.toNat
    match mapGet s.irq.since source with
    | some a =>
      if 0 < us ∧ s.irq.live.contains source ∧ s.asserted.contains source ∧ !s.irq.pulses.contains source ∧
          1000 * us < s.postmark.toNat - a.toNat ∧ s.power.state ≠ .sleep then
        { s with irq := { s.irq with stuck := (source :: s.irq.stuck).eraseDups } }
      else s
    | none => s)

end Sys2Proof.Machine
end

