-- ==== Sys2Proof/Machine/Power.lean ====
section
/-! DEFINITION. Supply, clocks, idle states, contacts and start-up (spec/18 R480 to R498; spec/17 R463, R476, R477). -/

namespace Sys2Proof.Machine

open Sys2Proof

/-- Changes the power part of the state. -/
def State.modPower (s : State) (f : Power → Power) : State := { s with power := f s.power }

/-- Changes a die's clock record. -/
def State.modDie (s : State) (d : Nat) (f : Die → Die) : State :=
  s.modPower fun p => { p with dies := mapPut p.dies d (f (s.die d)) }

/-! ### Supply (R481) -/

/-- SUPPLY_OUT_OF_RANGE (R481): SUPPLY asserts; operation goes on. `vin` is in 10 mV. -/
def execSupplyOutOfRange (vin : W16) (s : State) : Result :=
  .next (
    if s.power.boot = .noSupply then s
    else
      let s1 := s.modPower fun p => { p with vin := vin.toNat }
      s1.modPower fun p => { p with supplyBad := s1.outOfRange })

/-- SUPPLY_IN_RANGE (R481): SUPPLY stops asserting. -/
def execSupplyInRange (vin : W16) (s : State) : Result :=
  .next (
    let s1 := s.modPower fun p => { p with vin := vin.toNat }
    if s.power.boot = .noSupply || s1.outOfRange then s
    else s1.modPower fun p => { p with supplyBad := false })

/-- SUPPLY_UNDERVOLTAGE (R481, R495): below 20.0 V for 10 µs, every rail is off. -/
def execSupplyUndervoltage (s : State) : Result :=
  .next (if s.power.boot = .noSupply then s else s.loseSupply)

/-- SUPPLY_OVERVOLTAGE (R481): above 28.0 V for 1 µs, the input stage opens. -/
def execSupplyOvervoltage (s : State) : Result :=
  .next (if s.power.boot = .noSupply then s else s.loseSupply)

/-- POWER_ON (R493, R496): a reset of type 1, at step 1. -/
def execPowerOn (s : State) : Result :=
  .next (if s.power.boot != .noSupply then s
    else s.lightPorts.modPower fun p =>
      { p with boot := .starting, bootStep := 0, lastType := 1, journalKept := false, resets := 0, thermTrips := 0 })

/-! ### Contacts (R492 to R495) -/

/-- The level of ALERT_N (R495): low while THERMAL or SUPPLY asserts, or while the module is fenced; without the standby
rail the output is high-impedance, so that the board's pull-up holds it high (R527). -/
def State.alertN (s : State) : Bool :=
  s.power.boot == .noSupply ||
  !(s.asserted.contains 205 || s.asserted.contains 206 || s.faults.selfFenced)

/-- The level of THERM_TRIP_N (R487, R495): low from a trip until the junctions are cool and a module reset follows. -/
def State.thermTripN (s : State) : Bool := !s.power.tripped

/-! A change of PWR_EN or MOD_RESET_N is the command once the new level is registered (R495). -/

/-- PWR_EN_FALL (R492, R495): steps 1 to 5 of the orderly reset, then OFF. -/
def execPwrEnFall (s : State) : Result :=
  .next (
    let s1 := s.modPower fun p => { p with pwrEn := false }
    if s.resettable then
      ((s1.downReset s1.faults.selfFenced).darkPorts).modPower fun p => { p with boot := .off, pwrGood := false }
    else if s.power.boot = .resetHeld then s1.darkPorts.modPower fun p => { p with boot := .off, pwrGood := false }
    else s1)

/-- PWR_EN_RISE (R461, R492, R493, R496): a reset of type 2, from step 3 on. -/
def execPwrEnRise (s : State) : Result :=
  .next (
    let s1 := s.modPower fun p => { p with pwrEn := true }
    if s.power.boot = .off then
      ((s1.countReset 2).loadTime.lightPorts).modPower fun p => { p with boot := .starting }
    else s1)

/-- MOD_RESET_ASSERT (R491, R493, R494): type 3, or type 4 while fenced; a trigger during a reset merges into it. -/
def execModResetAssert (s : State) : Result :=
  .next (
    let s1 := s.modPower fun p => { p with modResetN := false }
    if s.resettable then s1.moduleReset (if s.faults.selfFenced then 4 else 3) .resetHeld else s1)

/-- MOD_RESET_RELEASE (R461, R494): start-up goes on at step 3. -/
def execModResetRelease (s : State) : Result :=
  .next (
    let s1 := if s.power.boot = .resetHeld then s.loadTime else s
    s1.modPower fun p =>
      { p with modResetN := true, boot := if p.boot = .resetHeld then .starting else p.boot })

/-- PERST (R494): a function level reset of all 64 functions, and nothing else. -/
def execPerst (s : State) : Result :=
  .next (if s.powered then (List.range 64).foldl State.levelReset s else s)

/-- STARTUP_STEP_COMPLETE (R496, R498): the units that the step found failing are retired; a failing rail or hub-die unit
fences the module, which stops. -/
def execStartupStepComplete (retired : List Retired) (failed : Bool) (s : State) : Result :=
  .next (
    if !s.stepMayEnd then s
    else
      let n := s.power.bootStep + 1
      if failed then s.fence.modPower fun p => { p with failedStep := n }
      else
        let s1 := retired.foldl State.retireAtStart s
        (s1.modPower fun p => { p with bootStep := n }).startupEffect n)

/-! ### Clocks, voltages, temperature (R484 to R487) -/

/-- Whether a die's loops may set a frequency and a supply (R484, R485): f in steps of 25 MHz up to the ceiling, 1,200 MHz
while the junction is above TJ_LIMIT; the supply within its range, not lower where f rises and not higher where f falls. -/
def State.loopMaySet (s : State) (die mhz millivolts tj : Nat) : Bool :=
  let d := s.die die
  decide (1200 ≤ mhz) && decide (mhz ≤ 1200 + 25 * s.power.fCeil) && mhz % 25 == 0 &&
  (decide (tj ≤ s.pm.tjLimit) || mhz == 1200) &&
  decide (650 ≤ millivolts) && decide (millivolts ≤ 900) &&
  (decide (mhz ≤ d.mhz) || decide (d.mv ≤ millivolts)) && (decide (d.mhz ≤ mhz) || decide (millivolts ≤ d.mv))

/-- FREQUENCY_ADJUST (R484, R485, R487). Which f the margin monitors allow is the event's. -/
def execFrequencyAdjust (die mhz millivolts tj : Nat) (s : State) : Result :=
  .next (
    if !s.powered || s.power.clocksStopped || 4 ≤ die || 256 ≤ tj || !s.loopMaySet die mhz millivolts tj then s
    else (s.modDie die fun d => { d with mhz := mhz, mv := millivolts, tj := tj }).noteTemps)

/-- Takes a reading of a junction; 4 is the hub die's (R487). -/
def State.readJunction (s : State) (d tj : Nat) : State :=
  (if d = 4 then s.modPower fun p => { p with hubTj := tj } else s.modDie d fun x => { x with tj := tj }).noteTemps

/-- TJ_LIMIT_CROSSING (R463, R487): THERMAL asserts while a junction, the hub die's (4) among them, is above TJ_LIMIT. -/
def execTjLimitCrossing (die tj : Nat) (s : State) : Result :=
  .next (if !s.powered || 5 ≤ die || 256 ≤ tj then s else s.readJunction die tj)

/-- THERMAL_TRIP (R415, R487): the junction has reached 110 °C; 4 is the hub die's. A module that a trip has stopped is
not tripped again. -/
def execThermalTrip (die : Nat) (s : State) : Result :=
  .next (
    if !s.powered || s.power.clocksStopped || 5 ≤ die then s
    else
      (((s.readJunction die (max 110 (s.junction die))).fence).modPower fun p =>
        { p with tripped := true, clocksStopped := true, thermTrips := satTo 0xFF (p.thermTrips + 1) }))

/-- DROOP_DETECT (R486): a stretch begins and is counted. -/
def execDroopDetect (die : Nat) (s : State) : Result :=
  .next (
    if !s.powered || s.power.clocksStopped || 4 ≤ die || (s.die die).stretched then s
    else s.modDie die fun d => { d with stretched := true, stretches := d.stretches + 1 })

/-- STRETCH_END (R486). -/
def execStretchEnd (die : Nat) (s : State) : Result :=
  .next (if (s.die die).stretched then s.modDie die fun d => { d with stretched := false } else s)

/-! ### Idle states (R489, R490) -/

/-- Whether a team is idle: no uncompleted instruction, no request, no migration. -/
def Team.idle (k : Team) : Bool :=
  k.kernel.isNone && k.sampler.queue.isEmpty && (k.sampler.slots.all fun p => p.2.complete) && k.upd.queue.isEmpty &&
  k.rows.migration.isNone && (k.rows.slots.all fun x => x.2.phase == .staged) &&
  k.cores.all fun c => c.2.awaited.isEmpty && c.2.tileQueue.isEmpty

/-- DOZE_ENTRY (R489): idle for IDLE_US. -/
def execDozeEntry (s : State) : Result :=
  .next (
    if s.power.boot != .running || s.power.state != .active || !s.power.autoDoze ||
        !(s.teams.all fun t => t.2.idle) || !s.fabric.colls.isEmpty then s
    else s.modPower fun p => { p with state := .doze, dozeEntries := satTo 0xFFFF (p.dozeEntries + 1) })

/-- Whether a command is executing (R490): started and neither a pending schedule (R491) nor of a PREEMPTED context. -/
def State.executing (s : State) : Bool :=
  s.cmds.any fun k => k.2.cmds.any fun y =>
    y.phase == .started && y.opcode != 0x0060 &&
    match s.ctx (BitVec.ofNat 32 k.1) with
    | some x => x.running
    | none => true

/-- Whether the module can enter SLEEP: no context RUNNING, no command executing. -/
def State.mayRest (s : State) : Bool :=
  s.power.boot == .running && s.power.state != .sleep && s.power.sleepReq &&
  (s.ctxs.all fun x => !x.2.running) && !s.executing

/-- What SLEEP does not keep in a bank: L (R476). -/
def IrqBank.rest (b : IrqBank) : IrqBank := { b with latched := [] }

/-- SLEEP_ENTRY (R476, R490): after the last tick the interrupt state is kept, without L, the counts, timers and flags. -/
def execSleepEntry (s : State) : Result :=
  .next (
    if !s.mayRest then s
    else
      let s1 := s.evalIrq
      let s2 : State := { s1 with
        irq := { s1.irq with mc := s1.irq.mc.map fun b => (b.1, b.2.rest), edges := [], ended := [], stormed := [], since := []
                             storm := [], stuck := [] }
        fns := s1.fns.map fun k => (k.1, { k.2 with bank := k.2.bank.rest }) }
      s2.modPower fun p =>
        { p with state := .sleep, waking := false, sleepEntries := satTo 0xFFFF (p.sleepEntries + 1) })

/-- SLEEP_REFUSAL (R490): the request lapses after 100 ms. -/
def execSleepRefusal (s : State) : Result :=
  .next (
    if !s.power.sleepReq || s.power.state == .sleep || s.mayRest then s
    else s.modPower fun p => { p with sleepReq := false, sleepRefused := true })

/-- A bank at wake (R477): the caught bits in PEND, L clear, S 0. -/
def IrqBank.wake (b : IrqBank) (caught : List Nat) : IrqBank :=
  { b.latch caught with latched := [], s := false }

/-- The message of a management core whose S is 1 after wake. -/
def State.refreshMc (s : State) (i : Nat) : State :=
  let b := mapGetD s.irq.mc { } i
  if b.summary && !b.s then
    let s1 : State := { s with irq := { s.irq with mc := mapPut s.irq.mc i { b with s := true, msgs := b.msgs + 1 } } }
    s1.emitOut (.notify i)
  else s

/-- Steps 1 to 5 of R477. -/
def State.wakeIrq (s : State) : State :=
  let s1 := s.evalIrq
  let caught := s1.irq.caught
  let s2 : State := { s1 with
    irq := { s1.irq with
      caught := [], live := s1.asserted.eraseDups
      mc := (List.range 8).foldl (fun m i =>
        mapPut m i ((mapGetD m { } i).wake (caught.filter fun src => (mcRoutes src).contains i))) s1.irq.mc }
    fns := (List.range 64).foldl (fun m f =>
      let k := mapGetD m { } f
      mapPut m f { k with bank := k.bank.wake (if s1.fnExists f then s1.routedTo f caught else []) }) s1.fns }
  let s3 := s2.modPower fun p => { p with state := .active, waking := false, sleepReq := false }
  let s4 := s3.evalIrq
  (List.range 8).foldl State.refreshMc ((List.range 64).foldl State.refresh s4)

/-- WAKE (R477, R490). -/
def execWake (s : State) : Result :=
  .next (if s.power.state = .sleep ∧ s.power.waking then s.wakeIrq.wakeFrames else s)

end Sys2Proof.Machine
end

