-- ==== Sys2Proof/Machine/Dispatch.lean ====
section
/-! DEFINITION. The meaning of each command: one arm per constructor of `Instr`. -/

namespace Sys2Proof.Machine

open Sys2Proof

def exec (i : Instr) (s : State) : Host.Outcome State Fault Refusal :=
  match i with
  | .nop p => Sys2Proof.Machine.execNop p s
  | .loadProgram p => Sys2Proof.Machine.execLoadProgram p s
  | .launch p => Sys2Proof.Machine.execLaunch p s
  | .tableCreate p => Sys2Proof.Machine.execTableCreate p s
  | .tableReplace p => Sys2Proof.Machine.execTableReplace p s
  | .graphLoad p => Sys2Proof.Machine.execGraphLoad p s
  | .contextCreate p => Sys2Proof.Machine.execContextCreate p s
  | .contextPreempt p => Sys2Proof.Machine.execContextPreempt p s
  | .contextResume p => Sys2Proof.Machine.execContextResume p s
  | .contextDestroy p => Sys2Proof.Machine.execContextDestroy p s
  | .contextReset p => Sys2Proof.Machine.execContextReset p s
  | .snapshot p => Sys2Proof.Machine.execSnapshot p s
  | .restore p => Sys2Proof.Machine.execRestore p s
  | .scheduleLoad p => Sys2Proof.Machine.execScheduleLoad p s
  | .roleAssign p => Sys2Proof.Machine.execRoleAssign p s
  | .spareArm p => Sys2Proof.Machine.execSpareArm p s
  | .takeover p => Sys2Proof.Machine.execTakeover p s
  | .frankRead p => Sys2Proof.Machine.execFrankRead p s
  | .selftest p => Sys2Proof.Machine.execSelftest p s
  | .unlistedOpcodePacket opcode p => Sys2Proof.Machine.execUnlistedOpcodePacket opcode p s
  | .setLayout path p verified => Sys2Proof.Machine.execSetLayout path p verified s
  | .setIso path p verified => Sys2Proof.Machine.execSetIso path p verified s
  | .setPool path p verified => Sys2Proof.Machine.execSetPool path p verified s
  | .setLimits path p verified => Sys2Proof.Machine.execSetLimits path p verified s
  | .setTime path p verified => Sys2Proof.Machine.execSetTime path p verified s
  | .setKey path p verified => Sys2Proof.Machine.execSetKey path p verified s
  | .revokeKey path p verified => Sys2Proof.Machine.execRevokeKey path p verified s
  | .stageFirmware path p verified => Sys2Proof.Machine.execStageFirmware path p verified s
  | .unknownPostmasterOp path p verified => Sys2Proof.Machine.execUnknownPostmasterOp path p verified s
  | .commandStart ctx seq => Sys2Proof.Machine.execCommandStart ctx seq s
  | .commandComplete ctx seq => Sys2Proof.Machine.execCommandComplete ctx seq s
  | .translationComplete ctx seq => Sys2Proof.Machine.execTranslationComplete ctx seq s
  | .kernelEnd team => Sys2Proof.Machine.execKernelEnd team s
  | .sqCfgEnable fn value => Sys2Proof.Machine.execSqCfgEnable fn value s
  | .sqDoorbell fn value => Sys2Proof.Machine.execSqDoorbell fn value s
  | .rqCfgEnable fn value => Sys2Proof.Machine.execRqCfgEnable fn value s
  | .rqConsumed fn value => Sys2Proof.Machine.execRqConsumed fn value s
  | .lbStatusRead fn => Sys2Proof.Machine.execLbStatusRead fn s
  | .scSelect who value => Sys2Proof.Machine.execScSelect who value s
  | .pendWrite fn g value => Sys2Proof.Machine.execPendWrite fn g value s
  | .maskWrite fn g value => Sys2Proof.Machine.execMaskWrite fn g value s
  | .rearm fn value => Sys2Proof.Machine.execRearm fn value s
  | .srcStateRead who g => Sys2Proof.Machine.execSrcStateRead who g s
  | .dlqPop who value => Sys2Proof.Machine.execDlqPop who value s
  | .pwrStatusRead who => Sys2Proof.Machine.execPwrStatusRead who s
  | .sleepRequest who value => Sys2Proof.Machine.execSleepRequest who value s
  | .reset who value => Sys2Proof.Machine.execReset who value s
  | .registerWrite who offset width value => Sys2Proof.Machine.execRegisterWrite who offset width value s
  | .lowHalfRead who offset => Sys2Proof.Machine.execLowHalfRead who offset s
  | .highHalfRead who offset => Sys2Proof.Machine.execHighHalfRead who offset s
  | .bar0InvalidAccess who offset len kind => Sys2Proof.Machine.execBar0InvalidAccess who offset len kind s
  | .bar2Read fn offset len => Sys2Proof.Machine.execBar2Read fn offset len s
  | .bar2Write fn offset data => Sys2Proof.Machine.execBar2Write fn offset data s
  | .functionLevelReset fn => Sys2Proof.Machine.execFunctionLevelReset fn s
  | .read64 offset => Sys2Proof.Machine.execRead64 offset s
  | .write64 offset value => Sys2Proof.Machine.execWrite64 offset value s
  | .read32 offset => Sys2Proof.Machine.execRead32 offset s
  | .mctpControl request => Sys2Proof.Machine.execMctpControl request s
  | .pldm kind sensor => Sys2Proof.Machine.execPldm kind sensor s
  | .dynamicAddressAssign address => Sys2Proof.Machine.execDynamicAddressAssign address s
  | .nopInstruction team x => Sys2Proof.Machine.execNopInstruction team x s
  | .endI team x => Sys2Proof.Machine.execEndI team x s
  | .br team x => Sys2Proof.Machine.execBr team x s
  | .brAny team x => Sys2Proof.Machine.execBrAny team x s
  | .brAll team x => Sys2Proof.Machine.execBrAll team x s
  | .loop team x => Sys2Proof.Machine.execLoop team x s
  | .endloop team x => Sys2Proof.Machine.execEndloop team x s
  | .statptr team x => Sys2Proof.Machine.execStatptr team x s
  | .pmread team x => Sys2Proof.Machine.execPmread team x s
  | .mov team x => Sys2Proof.Machine.execMov team x s
  | .movhi team x => Sys2Proof.Machine.execMovhi team x s
  | .ldc team x => Sys2Proof.Machine.execLdc team x s
  | .ld team x => Sys2Proof.Machine.execLd team x s
  | .st team x => Sys2Proof.Machine.execSt team x s
  | .add team x => Sys2Proof.Machine.execAdd team x s
  | .sub team x => Sys2Proof.Machine.execSub team x s
  | .mul team x => Sys2Proof.Machine.execMul team x s
  | .mulhiS team x => Sys2Proof.Machine.execMulhiS team x s
  | .mulhiU team x => Sys2Proof.Machine.execMulhiU team x s
  | .divU team x => Sys2Proof.Machine.execDivU team x s
  | .remU team x => Sys2Proof.Machine.execRemU team x s
  | .andI team x => Sys2Proof.Machine.execAndI team x s
  | .orI team x => Sys2Proof.Machine.execOrI team x s
  | .xorI team x => Sys2Proof.Machine.execXorI team x s
  | .shl team x => Sys2Proof.Machine.execShl team x s
  | .shr team x => Sys2Proof.Machine.execShr team x s
  | .sar team x => Sys2Proof.Machine.execSar team x s
  | .minS team x => Sys2Proof.Machine.execMinS team x s
  | .minU team x => Sys2Proof.Machine.execMinU team x s
  | .maxS team x => Sys2Proof.Machine.execMaxS team x s
  | .maxU team x => Sys2Proof.Machine.execMaxU team x s
  | .cmpEq team x => Sys2Proof.Machine.execCmpEq team x s
  | .cmpNe team x => Sys2Proof.Machine.execCmpNe team x s
  | .cmpLt team x => Sys2Proof.Machine.execCmpLt team x s
  | .cmpLe team x => Sys2Proof.Machine.execCmpLe team x s
  | .cmpLtu team x => Sys2Proof.Machine.execCmpLtu team x s
  | .cmpLeu team x => Sys2Proof.Machine.execCmpLeu team x s
  | .fadd team x => Sys2Proof.Machine.execFadd team x s
  | .fsub team x => Sys2Proof.Machine.execFsub team x s
  | .fmul team x => Sys2Proof.Machine.execFmul team x s
  | .fma team x => Sys2Proof.Machine.execFma team x s
  | .fmin team x => Sys2Proof.Machine.execFmin team x s
  | .fmax team x => Sys2Proof.Machine.execFmax team x s
  | .itof team x => Sys2Proof.Machine.execItof team x s
  | .ftoi team x => Sys2Proof.Machine.execFtoi team x s
  | .fcmpEq team x => Sys2Proof.Machine.execFcmpEq team x s
  | .fcmpLt team x => Sys2Proof.Machine.execFcmpLt team x s
  | .fcmpLe team x => Sys2Proof.Machine.execFcmpLe team x s
  | .pand team x => Sys2Proof.Machine.execPand team x s
  | .por team x => Sys2Proof.Machine.execPor team x s
  | .pxor team x => Sys2Proof.Machine.execPxor team x s
  | .pnot team x => Sys2Proof.Machine.execPnot team x s
  | .pset team x => Sys2Proof.Machine.execPset team x s
  | .pget team x => Sys2Proof.Machine.execPget team x s
  | .cset team x => Sys2Proof.Machine.execCset team x s
  | .cget team x => Sys2Proof.Machine.execCget team x s
  | .desc team x => Sys2Proof.Machine.execDesc team x s
  | .tsetbase team x => Sys2Proof.Machine.execTsetbase team x s
  | .taddbase team x => Sys2Proof.Machine.execTaddbase team x s
  | .tsetdim team x => Sys2Proof.Machine.execTsetdim team x s
  | .tsetstride team x => Sys2Proof.Machine.execTsetstride team x s
  | .tsettype team x => Sys2Proof.Machine.execTsettype team x s
  | .tgetbase team x => Sys2Proof.Machine.execTgetbase team x s
  | .tflip team x => Sys2Proof.Machine.execTflip team x s
  | .tcopy team x => Sys2Proof.Machine.execTcopy team x s
  | .tfill team x => Sys2Proof.Machine.execTfill team x s
  | .mma team x => Sys2Proof.Machine.execMma team x s
  | .mmaDrv team x => Sys2Proof.Machine.execMmaDrv team x s
  | .mmaAcs team x => Sys2Proof.Machine.execMmaAcs team x s
  | .acsRead team x => Sys2Proof.Machine.execAcsRead team x s
  | .acsZero team x => Sys2Proof.Machine.execAcsZero team x s
  | .tileQueueDrain team core => Sys2Proof.Machine.execTileQueueDrain team core s
  | .vadd team x => Sys2Proof.Machine.execVadd team x s
  | .vsub team x => Sys2Proof.Machine.execVsub team x s
  | .vmul team x => Sys2Proof.Machine.execVmul team x s
  | .vdiv team x => Sys2Proof.Machine.execVdiv team x s
  | .vmax team x => Sys2Proof.Machine.execVmax team x s
  | .vmin team x => Sys2Proof.Machine.execVmin team x s
  | .vfma team x => Sys2Proof.Machine.execVfma team x s
  | .vand team x => Sys2Proof.Machine.execVand team x s
  | .vor team x => Sys2Proof.Machine.execVor team x s
  | .vxor team x => Sys2Proof.Machine.execVxor team x s
  | .vshl team x => Sys2Proof.Machine.execVshl team x s
  | .vshr team x => Sys2Proof.Machine.execVshr team x s
  | .vneg team x => Sys2Proof.Machine.execVneg team x s
  | .vabs team x => Sys2Proof.Machine.execVabs team x s
  | .vsqrt team x => Sys2Proof.Machine.execVsqrt team x s
  | .vrsqrt team x => Sys2Proof.Machine.execVrsqrt team x s
  | .vrcp team x => Sys2Proof.Machine.execVrcp team x s
  | .vexp team x => Sys2Proof.Machine.execVexp team x s
  | .vlog team x => Sys2Proof.Machine.execVlog team x s
  | .vtanh team x => Sys2Proof.Machine.execVtanh team x s
  | .vsigmoid team x => Sys2Proof.Machine.execVsigmoid team x s
  | .vgelu team x => Sys2Proof.Machine.execVgelu team x s
  | .vsilu team x => Sys2Proof.Machine.execVsilu team x s
  | .vrelu team x => Sys2Proof.Machine.execVrelu team x s
  | .vlrelu team x => Sys2Proof.Machine.execVlrelu team x s
  | .vcvt team x => Sys2Proof.Machine.execVcvt team x s
  | .vcmpEq team x => Sys2Proof.Machine.execVcmpEq team x s
  | .vcmpLt team x => Sys2Proof.Machine.execVcmpLt team x s
  | .vcmpLe team x => Sys2Proof.Machine.execVcmpLe team x s
  | .vsel team x => Sys2Proof.Machine.execVsel team x s
  | .vrand team x => Sys2Proof.Machine.execVrand team x s
  | .vdropout team x => Sys2Proof.Machine.execVdropout team x s
  | .vredAdd team x => Sys2Proof.Machine.execVredAdd team x s
  | .vredMax team x => Sys2Proof.Machine.execVredMax team x s
  | .vredMin team x => Sys2Proof.Machine.execVredMin team x s
  | .scan op team x => Sys2Proof.Machine.execScan op team x s
  | .segscan op team x => Sys2Proof.Machine.execSegscan op team x s
  | .segred op team x => Sys2Proof.Machine.execSegred op team x s
  | .gatherRows team x => Sys2Proof.Machine.execGatherRows team x s
  | .gatherStaged team x => Sys2Proof.Machine.execGatherStaged team x s
  | .gatherEdge team x => Sys2Proof.Machine.execGatherEdge team x s
  | .gatherRoute team x => Sys2Proof.Machine.execGatherRoute team x s
  | .mergeBsr team x => Sys2Proof.Machine.execMergeBsr team x s
  | .maskBind team x => Sys2Proof.Machine.execMaskBind team x s
  | .sampleUniform team x => Sys2Proof.Machine.execSampleUniform team x s
  | .sampleWeighted team x => Sys2Proof.Machine.execSampleWeighted team x s
  | .sampleRecent team x => Sys2Proof.Machine.execSampleRecent team x s
  | .sampleWalk team x => Sys2Proof.Machine.execSampleWalk team x s
  | .parcelInfo team x => Sys2Proof.Machine.execParcelInfo team x s
  | .parcelFree team x => Sys2Proof.Machine.execParcelFree team x s
  | .tblPrefetch team x => Sys2Proof.Machine.execTblPrefetch team x s
  | .tblRelease team x => Sys2Proof.Machine.execTblRelease team x s
  | .tblVersion team x => Sys2Proof.Machine.execTblVersion team x s
  | .updTensor team x => Sys2Proof.Machine.execUpdTensor team x s
  | .updRows team x => Sys2Proof.Machine.execUpdRows team x s
  | .updNorm team x => Sys2Proof.Machine.execUpdNorm team x s
  | .signalAdd team x => Sys2Proof.Machine.execSignalAdd team x s
  | .signalSub team x => Sys2Proof.Machine.execSignalSub team x s
  | .syncInit team x => Sys2Proof.Machine.execSyncInit team x s
  | .watchGe team x => Sys2Proof.Machine.execWatchGe team x s
  | .watchEq team x => Sys2Proof.Machine.execWatchEq team x s
  | .watchClaim team x => Sys2Proof.Machine.execWatchClaim team x s
  | .fenceLocal team x => Sys2Proof.Machine.execFenceLocal team x s
  | .fenceModule team x => Sys2Proof.Machine.execFenceModule team x s
  | .fenceFabric team x => Sys2Proof.Machine.execFenceFabric team x s
  | .commitArrive team x => Sys2Proof.Machine.execCommitArrive team x s
  | .collRedscat team x => Sys2Proof.Machine.execCollRedscat team x s
  | .collAllgather team x => Sys2Proof.Machine.execCollAllgather team x s
  | .collAllreduce team x => Sys2Proof.Machine.execCollAllreduce team x s
  | .collBcast team x => Sys2Proof.Machine.execCollBcast team x s
  | .collHalo team x => Sys2Proof.Machine.execCollHalo team x s
  | .collectiveComplete role number => Sys2Proof.Machine.execCollectiveComplete role number s
  | .samplerTakeRequest team => Sys2Proof.Machine.execSamplerTakeRequest team s
  | .parcelComplete team => Sys2Proof.Machine.execParcelComplete team s
  | .stagingStart team => Sys2Proof.Machine.execStagingStart team s
  | .stagingComplete team slot => Sys2Proof.Machine.execStagingComplete team slot s
  | .updateRequestBegin team => Sys2Proof.Machine.execUpdateRequestBegin team s
  | .updateRequestComplete team => Sys2Proof.Machine.execUpdateRequestComplete team s
  | .placementWindowEnd team choice => Sys2Proof.Machine.execPlacementWindowEnd team choice s
  | .migrationDrained team => Sys2Proof.Machine.execMigrationDrained team s
  | .migrationSwapped team => Sys2Proof.Machine.execMigrationSwapped team s
  | .tableReplaceFlip ctx table => Sys2Proof.Machine.execTableReplaceFlip ctx table s
  | .timeFrame port frame => Sys2Proof.Machine.execTimeFrame port frame s
  | .timeFrameSend => Sys2Proof.Machine.execTimeFrameSend s
  | .lockLoss cause => Sys2Proof.Machine.execLockLoss cause s
  | .masterTimeout => Sys2Proof.Machine.execMasterTimeout s
  | .ppsEdge => Sys2Proof.Machine.execPpsEdge s
  | .referenceLoss cause => Sys2Proof.Machine.execReferenceLoss cause s
  | .roundBoundary => Sys2Proof.Machine.execRoundBoundary s
  | .scheduleActivate => Sys2Proof.Machine.execScheduleActivate s
  | .slotSend entry => Sys2Proof.Machine.execSlotSend entry s
  | .barrierRelease index => Sys2Proof.Machine.execBarrierRelease index s
  | .prefetchDeadline team slot => Sys2Proof.Machine.execPrefetchDeadline team slot s
  | .snapshotStart ctx => Sys2Proof.Machine.execSnapshotStart ctx s
  | .snapshotComplete ctx => Sys2Proof.Machine.execSnapshotComplete ctx s
  | .frankingBoundary => Sys2Proof.Machine.execFrankingBoundary s
  | .preemptionPoint ctx => Sys2Proof.Machine.execPreemptionPoint ctx s
  | .quiesceTimeout ctx => Sys2Proof.Machine.execQuiesceTimeout ctx s
  | .preemptSaveComplete ctx => Sys2Proof.Machine.execPreemptSaveComplete ctx s
  | .resumeRestore ctx => Sys2Proof.Machine.execResumeRestore ctx s
  | .frameForward port frame => Sys2Proof.Machine.execFrameForward port frame s
  | .syncOperationFrame port frame => Sys2Proof.Machine.execSyncOperationFrame port frame s
  | .syncReplyFrame port frame => Sys2Proof.Machine.execSyncReplyFrame port frame s
  | .barrierArrival index => Sys2Proof.Machine.execBarrierArrival index s
  | .fabricWriteFrame port frame => Sys2Proof.Machine.execFabricWriteFrame port frame s
  | .fabricReadRequest port frame => Sys2Proof.Machine.execFabricReadRequest port frame s
  | .fabricReadData port frame => Sys2Proof.Machine.execFabricReadData port frame s
  | .mirrorWrite port frame => Sys2Proof.Machine.execMirrorWrite port frame s
  | .mirrorWriteAck port frame => Sys2Proof.Machine.execMirrorWriteAck port frame s
  | .divertedMailbagPart port frame => Sys2Proof.Machine.execDivertedMailbagPart port frame s
  | .mailbagAcknowledgement port frame => Sys2Proof.Machine.execMailbagAcknowledgement port frame s
  | .collectiveControl port frame => Sys2Proof.Machine.execCollectiveControl port frame s
  | .returnedFrame port frame => Sys2Proof.Machine.execReturnedFrame port frame s
  | .flowBreak src dest => Sys2Proof.Machine.execFlowBreak src dest s
  | .mailbagArrive port bag corrected damaged => Sys2Proof.Machine.execMailbagArrive port bag corrected damaged s
  | .mailbagResendTimeout channel chanSeq => Sys2Proof.Machine.execMailbagResendTimeout channel chanSeq s
  | .roleAdvertisement port advert => Sys2Proof.Machine.execRoleAdvertisement port advert s
  | .roleLossTimeout postcode => Sys2Proof.Machine.execRoleLossTimeout postcode s
  | .autoTakeover postcode => Sys2Proof.Machine.execAutoTakeover postcode s
  | .joinReleaseReceived postcode release => Sys2Proof.Machine.execJoinReleaseReceived postcode release s
  | .takeoverCopyComplete copies failed => Sys2Proof.Machine.execTakeoverCopyComplete copies failed s
  | .homeRelayWindowEnd index => Sys2Proof.Machine.execHomeRelayWindowEnd index s
  | .snapshotRecordReceived postcode header streams => Sys2Proof.Machine.execSnapshotRecordReceived postcode header streams s
  | .portPartnerDetect port => Sys2Proof.Machine.execPortPartnerDetect port s
  | .trainingComplete port result => Sys2Proof.Machine.execTrainingComplete port result s
  | .portPartnerLoss port => Sys2Proof.Machine.execPortPartnerLoss port s
  | .routeChange postcode port => Sys2Proof.Machine.execRouteChange postcode port s
  | .laneRetire port lane => Sys2Proof.Machine.execLaneRetire port lane s
  | .swapComplete port => Sys2Proof.Machine.execSwapComplete port s
  | .cartridgeFail cartridge => Sys2Proof.Machine.execCartridgeFail cartridge s
  | .cartridgeInsert cartridge => Sys2Proof.Machine.execCartridgeInsert cartridge s
  | .cartridgeReady cartridge => Sys2Proof.Machine.execCartridgeReady cartridge s
  | .coreFault team core => Sys2Proof.Machine.execCoreFault team core s
  | .clusterFault team => Sys2Proof.Machine.execClusterFault team s
  | .recoveryAuditComplete team passed => Sys2Proof.Machine.execRecoveryAuditComplete team passed s
  | .pseudoChannelFault stack => Sys2Proof.Machine.execPseudoChannelFault stack s
  | .spareFillComplete stack => Sys2Proof.Machine.execSpareFillComplete stack s
  | .stackFault stack cause => Sys2Proof.Machine.execStackFault stack cause s
  | .journalRebuildComplete => Sys2Proof.Machine.execJournalRebuildComplete s
  | .mcHeartbeatMiss core => Sys2Proof.Machine.execMcHeartbeatMiss core s
  | .journalReplay ctx => Sys2Proof.Machine.execJournalReplay ctx s
  | .faultInAssert heldNs => Sys2Proof.Machine.execFaultInAssert heldNs s
  | .stormWindowEnd => Sys2Proof.Machine.execStormWindowEnd s
  | .stuckTimeout source => Sys2Proof.Machine.execStuckTimeout source s
  | .powerOn => Sys2Proof.Machine.execPowerOn s
  | .pwrEnRise => Sys2Proof.Machine.execPwrEnRise s
  | .pwrEnFall => Sys2Proof.Machine.execPwrEnFall s
  | .modResetAssert => Sys2Proof.Machine.execModResetAssert s
  | .modResetRelease => Sys2Proof.Machine.execModResetRelease s
  | .perst => Sys2Proof.Machine.execPerst s
  | .startupStepComplete retired failed => Sys2Proof.Machine.execStartupStepComplete retired failed s
  | .supplyOutOfRange vin => Sys2Proof.Machine.execSupplyOutOfRange vin s
  | .supplyUndervoltage => Sys2Proof.Machine.execSupplyUndervoltage s
  | .supplyOvervoltage => Sys2Proof.Machine.execSupplyOvervoltage s
  | .thermalTrip die => Sys2Proof.Machine.execThermalTrip die s
  | .frequencyAdjust die mhz millivolts tj => Sys2Proof.Machine.execFrequencyAdjust die mhz millivolts tj s
  | .droopDetect die => Sys2Proof.Machine.execDroopDetect die s
  | .stretchEnd die => Sys2Proof.Machine.execStretchEnd die s
  | .dozeEntry => Sys2Proof.Machine.execDozeEntry s
  | .sleepEntry => Sys2Proof.Machine.execSleepEntry s
  | .sleepRefusal => Sys2Proof.Machine.execSleepRefusal s
  | .wake => Sys2Proof.Machine.execWake s
  | .energyInterval dieMillijoules restMillijoules => Sys2Proof.Machine.execEnergyInterval dieMillijoules restMillijoules s
  | .telemetryRefresh vin iin pin pinPeak temps hubTj => Sys2Proof.Machine.execTelemetryRefresh vin iin pin pinPeak temps hubTj s
  | .referenceAcquire => Sys2Proof.Machine.execReferenceAcquire s
  | .updNormComplete team => Sys2Proof.Machine.execUpdNormComplete team s
  | .fabricWriteAck port frame => Sys2Proof.Machine.execFabricWriteAck port frame s
  | .collectiveDataFrame port frame => Sys2Proof.Machine.execCollectiveDataFrame port frame s
  | .releaseRelay index release => Sys2Proof.Machine.execReleaseRelay index release s
  | .linkLevelResend port failed => Sys2Proof.Machine.execLinkLevelResend port failed s
  | .dieLinkFault die => Sys2Proof.Machine.execDieLinkFault die s
  | .railFault => Sys2Proof.Machine.execRailFault s
  | .supplyInRange vin => Sys2Proof.Machine.execSupplyInRange vin s
  | .tjLimitCrossing die tj => Sys2Proof.Machine.execTjLimitCrossing die tj s
  | .faultInRelease => Sys2Proof.Machine.execFaultInRelease s
  | .configurationWrite fn what => Sys2Proof.Machine.execConfigurationWrite fn what s

end Sys2Proof.Machine
end

