-- ==== Sys2Proof/Machine/Tick.lean ====
section
/-! DEFINITION. One nanosecond of the module's clock: the postmark counter, the usage that franking charges, and the
interrupt controller's 10 ns tick (spec/02 R44, spec/16 R454, spec/17 R464; notes/assumptions/3.md). -/

namespace Sys2Proof.Machine

open Sys2Proof

/-- Core time of one nanosecond on a die (R454): 16 cores for each team that the context holds. -/
def Ctx.coresOn (x : Ctx) (die : Nat) : Nat := if x.running then x.coresHeld die else 0

/-- The stack bytes of a context (R454): its region and the save areas of its teams. -/
def Ctx.stackBytes (x : Ctx) : Nat := x.regionSize.toNat + x.teams.length * 0x4800000

/-- Charges one nanosecond of a context to its function. -/
def State.chargeNs (s : State) (c : Nat) (x : Ctx) : State :=
  let cores := (List.range 4).map x.coresOn
  s.modFn (c / 2 ^ 26) fun k =>
    { k with
      frank := { k.frank with
        coreNs := k.frank.coreNs + cores.foldl (· + ·) 0, stackNs := k.frank.stackNs + x.stackBytes }
      interval := (List.range 4).map fun d => k.interval.getD d 0 + cores.getD d 0 }

/-- The usage of one nanosecond. -/
def State.chargeAll (s : State) : State := s.ctxs.foldl (fun s x => s.chargeNs x.1 x.2) s

/-- What one nanosecond adds to what the module times (R450, R454). -/
def State.timed (s : State) : Meter :=
  let held (d : Nat) : Bool := s.ctxs.any fun x => decide (0 < x.2.coresOn d)
  let hub := (List.range 4).any held
  let add (d : Nat) : Nat := s.meter.unheld.getD d 0 + natOf !(if d = 4 then hub else held d)
  { elapsed := s.meter.elapsed + 1, unheld := (List.range 5).map add, quiet := s.quietNow }

/-- Reads of the stacks that ECC has corrected in one nanosecond: a free number of them counts (R437,
notes/assumptions/34.md). -/
def State.eccReads (s : State) : State :=
  s.modFaults fun f =>
    { f with stackCorrected :=
        satTo 0xFFFF (f.stackCorrected + (Config.freeWord (2 ^ 72 + s.meter.elapsed)).toNat % 65536) }

/-- One nanosecond. Without supply nothing moves; the interrupt controller ticks every 10 ns while the hub die runs. -/
def State.tick (s : State) : State :=
  if s.power.boot = .noSupply then s
  else
    let s1 := { s with postmark := s.postmark + 1, meter := s.timed }.chargeAll
    let s2 := if s1.powered then s1.eccReads else s1
    if s2.postmark.toNat % 10 = 0 && s2.powered then s2.evalIrq else s2

end Sys2Proof.Machine
end

