-- ==== Sys2Proof/WellFormed.lean ====
section
/-! DEFINITION. Which commands are well formed: the ranges of the operands that the rows of the table
name (spec/00 R7 to R9, spec/05 R137 to R143, spec/03 R72, spec/14 R382, R389). The meanings do not rest on it:
a command outside it is read as the meaning says. -/

namespace Sys2Proof

open Sys2Proof.Machine

/-- The team and the instruction word of a Lumfy row (spec/05 R149 to R165); none for the other rows. -/
def Instr.lumfy : Instr → Option (Nat × LumfyWord)
  | .nopInstruction t x => some (t, ⟨0x000, x⟩)
  | .endI t x => some (t, ⟨0x001, x⟩)
  | .br t x => some (t, ⟨0x002, x⟩)
  | .brAny t x => some (t, ⟨0x003, x⟩)
  | .brAll t x => some (t, ⟨0x004, x⟩)
  | .loop t x => some (t, ⟨0x005, x⟩)
  | .endloop t x => some (t, ⟨0x006, x⟩)
  | .statptr t x => some (t, ⟨0x007, x⟩)
  | .pmread t x => some (t, ⟨0x008, x⟩)
  | .mov t x => some (t, ⟨0x010, x⟩)
  | .movhi t x => some (t, ⟨0x011, x⟩)
  | .ldc t x => some (t, ⟨0x012, x⟩)
  | .ld t x => some (t, ⟨0x013, x⟩)
  | .st t x => some (t, ⟨0x014, x⟩)
  | .add t x => some (t, ⟨0x018, x⟩)
  | .sub t x => some (t, ⟨0x019, x⟩)
  | .mul t x => some (t, ⟨0x01A, x⟩)
  | .mulhiS t x => some (t, ⟨0x01B, x⟩)
  | .mulhiU t x => some (t, ⟨0x01C, x⟩)
  | .divU t x => some (t, ⟨0x01D, x⟩)
  | .remU t x => some (t, ⟨0x01E, x⟩)
  | .andI t x => some (t, ⟨0x020, x⟩)
  | .orI t x => some (t, ⟨0x021, x⟩)
  | .xorI t x => some (t, ⟨0x022, x⟩)
  | .shl t x => some (t, ⟨0x023, x⟩)
  | .shr t x => some (t, ⟨0x024, x⟩)
  | .sar t x => some (t, ⟨0x025, x⟩)
  | .minS t x => some (t, ⟨0x026, x⟩)
  | .minU t x => some (t, ⟨0x027, x⟩)
  | .maxS t x => some (t, ⟨0x028, x⟩)
  | .maxU t x => some (t, ⟨0x029, x⟩)
  | .cmpEq t x => some (t, ⟨0x030, x⟩)
  | .cmpNe t x => some (t, ⟨0x031, x⟩)
  | .cmpLt t x => some (t, ⟨0x032, x⟩)
  | .cmpLe t x => some (t, ⟨0x033, x⟩)
  | .cmpLtu t x => some (t, ⟨0x034, x⟩)
  | .cmpLeu t x => some (t, ⟨0x035, x⟩)
  | .fadd t x => some (t, ⟨0x038, x⟩)
  | .fsub t x => some (t, ⟨0x039, x⟩)
  | .fmul t x => some (t, ⟨0x03A, x⟩)
  | .fma t x => some (t, ⟨0x03B, x⟩)
  | .fmin t x => some (t, ⟨0x03C, x⟩)
  | .fmax t x => some (t, ⟨0x03D, x⟩)
  | .itof t x => some (t, ⟨0x03E, x⟩)
  | .ftoi t x => some (t, ⟨0x03F, x⟩)
  | .fcmpEq t x => some (t, ⟨0x040, x⟩)
  | .fcmpLt t x => some (t, ⟨0x041, x⟩)
  | .fcmpLe t x => some (t, ⟨0x042, x⟩)
  | .pand t x => some (t, ⟨0x048, x⟩)
  | .por t x => some (t, ⟨0x049, x⟩)
  | .pxor t x => some (t, ⟨0x04A, x⟩)
  | .pnot t x => some (t, ⟨0x04B, x⟩)
  | .pset t x => some (t, ⟨0x04C, x⟩)
  | .pget t x => some (t, ⟨0x04D, x⟩)
  | .cset t x => some (t, ⟨0x050, x⟩)
  | .cget t x => some (t, ⟨0x051, x⟩)
  | .desc t x => some (t, ⟨0x080, x⟩)
  | .tsetbase t x => some (t, ⟨0x081, x⟩)
  | .taddbase t x => some (t, ⟨0x082, x⟩)
  | .tsetdim t x => some (t, ⟨0x083, x⟩)
  | .tsetstride t x => some (t, ⟨0x084, x⟩)
  | .tsettype t x => some (t, ⟨0x085, x⟩)
  | .tgetbase t x => some (t, ⟨0x086, x⟩)
  | .tflip t x => some (t, ⟨0x087, x⟩)
  | .tcopy t x => some (t, ⟨0x088, x⟩)
  | .tfill t x => some (t, ⟨0x089, x⟩)
  | .mma t x => some (t, ⟨0x100, x⟩)
  | .mmaDrv t x => some (t, ⟨0x101, x⟩)
  | .mmaAcs t x => some (t, ⟨0x102, x⟩)
  | .acsRead t x => some (t, ⟨0x103, x⟩)
  | .acsZero t x => some (t, ⟨0x104, x⟩)
  | .vadd t x => some (t, ⟨0x180, x⟩)
  | .vsub t x => some (t, ⟨0x181, x⟩)
  | .vmul t x => some (t, ⟨0x182, x⟩)
  | .vdiv t x => some (t, ⟨0x183, x⟩)
  | .vmax t x => some (t, ⟨0x184, x⟩)
  | .vmin t x => some (t, ⟨0x185, x⟩)
  | .vfma t x => some (t, ⟨0x186, x⟩)
  | .vand t x => some (t, ⟨0x187, x⟩)
  | .vor t x => some (t, ⟨0x188, x⟩)
  | .vxor t x => some (t, ⟨0x189, x⟩)
  | .vshl t x => some (t, ⟨0x18A, x⟩)
  | .vshr t x => some (t, ⟨0x18B, x⟩)
  | .vneg t x => some (t, ⟨0x190, x⟩)
  | .vabs t x => some (t, ⟨0x191, x⟩)
  | .vsqrt t x => some (t, ⟨0x192, x⟩)
  | .vrsqrt t x => some (t, ⟨0x193, x⟩)
  | .vrcp t x => some (t, ⟨0x194, x⟩)
  | .vexp t x => some (t, ⟨0x195, x⟩)
  | .vlog t x => some (t, ⟨0x196, x⟩)
  | .vtanh t x => some (t, ⟨0x197, x⟩)
  | .vsigmoid t x => some (t, ⟨0x198, x⟩)
  | .vgelu t x => some (t, ⟨0x199, x⟩)
  | .vsilu t x => some (t, ⟨0x19A, x⟩)
  | .vrelu t x => some (t, ⟨0x19B, x⟩)
  | .vlrelu t x => some (t, ⟨0x19C, x⟩)
  | .vcvt t x => some (t, ⟨0x1A0, x⟩)
  | .vcmpEq t x => some (t, ⟨0x1A8, x⟩)
  | .vcmpLt t x => some (t, ⟨0x1A9, x⟩)
  | .vcmpLe t x => some (t, ⟨0x1AA, x⟩)
  | .vsel t x => some (t, ⟨0x1AB, x⟩)
  | .vrand t x => some (t, ⟨0x1B0, x⟩)
  | .vdropout t x => some (t, ⟨0x1B1, x⟩)
  | .vredAdd t x => some (t, ⟨0x1C0, x⟩)
  | .vredMax t x => some (t, ⟨0x1C1, x⟩)
  | .vredMin t x => some (t, ⟨0x1C2, x⟩)
  | .scan op t x => some (t, ⟨0x1C8 + scanIndex op, x⟩)
  | .segscan op t x => some (t, ⟨0x1D0 + scanIndex op, x⟩)
  | .segred op t x => some (t, ⟨0x1E0 + redIndex op, x⟩)
  | .gatherRows t x => some (t, ⟨0x280, x⟩)
  | .gatherStaged t x => some (t, ⟨0x281, x⟩)
  | .gatherEdge t x => some (t, ⟨0x282, x⟩)
  | .gatherRoute t x => some (t, ⟨0x283, x⟩)
  | .mergeBsr t x => some (t, ⟨0x288, x⟩)
  | .maskBind t x => some (t, ⟨0x289, x⟩)
  | .sampleUniform t x => some (t, ⟨0x300, x⟩)
  | .sampleWeighted t x => some (t, ⟨0x301, x⟩)
  | .sampleRecent t x => some (t, ⟨0x302, x⟩)
  | .sampleWalk t x => some (t, ⟨0x303, x⟩)
  | .parcelInfo t x => some (t, ⟨0x308, x⟩)
  | .parcelFree t x => some (t, ⟨0x309, x⟩)
  | .tblPrefetch t x => some (t, ⟨0x340, x⟩)
  | .tblRelease t x => some (t, ⟨0x341, x⟩)
  | .tblVersion t x => some (t, ⟨0x342, x⟩)
  | .updTensor t x => some (t, ⟨0x380, x⟩)
  | .updRows t x => some (t, ⟨0x381, x⟩)
  | .updNorm t x => some (t, ⟨0x382, x⟩)
  | .signalAdd t x => some (t, ⟨0x3C0, x⟩)
  | .signalSub t x => some (t, ⟨0x3C1, x⟩)
  | .syncInit t x => some (t, ⟨0x3C2, x⟩)
  | .watchGe t x => some (t, ⟨0x3C8, x⟩)
  | .watchEq t x => some (t, ⟨0x3C9, x⟩)
  | .watchClaim t x => some (t, ⟨0x3CA, x⟩)
  | .fenceLocal t x => some (t, ⟨0x3D0, x⟩)
  | .fenceModule t x => some (t, ⟨0x3D1, x⟩)
  | .fenceFabric t x => some (t, ⟨0x3D2, x⟩)
  | .commitArrive t x => some (t, ⟨0x3D8, x⟩)
  | .collRedscat t x => some (t, ⟨0x3E0, x⟩)
  | .collAllgather t x => some (t, ⟨0x3E1, x⟩)
  | .collAllreduce t x => some (t, ⟨0x3E2, x⟩)
  | .collBcast t x => some (t, ⟨0x3E3, x⟩)
  | .collHalo t x => some (t, ⟨0x3E4, x⟩)
  | _ => none

/-- The opcodes that the opcode table assigns (spec/03 R88). -/
def listedOpcodes : List Nat :=
  [0x0001, 0x0010, 0x0011, 0x0020, 0x0021, 0x0030, 0x0040, 0x0041, 0x0042, 0x0043, 0x0044, 0x0050, 0x0051, 0x0060,
   0x0061, 0x0062, 0x0063, 0x0070, 0x0080, 0x0090]

/-- A packet in a ring: function 0 to 63, 48 bytes of parameters, and a block of 16 × PARAM_LEN bytes where PARAM_LEN
is 4 or more (R72, R73, R82). -/
def pkt (p : Packet) : Bool :=
  decide (p.fn < 64) && p.params.length == 48 &&
  p.block.length == (if p.paramLen.toNat ≤ 3 then 0 else 16 * p.paramLen.toNat)

/-- The packet of a signed request comes in the same ring, or through I3C, whose packet carries the request
as its block (R459, R530). -/
def request (p : Packet) : Bool := decide (p.fn < 64) && p.params.length == 48

/-- The requesters with the whole register space: the physical function and I3C (R11). -/
def pfOrI3c (who : Nat) : Bool := who == 0 || who == 64

/-- An unscheduled frame: a payload of at most 4,096 bytes (R382). -/
def frameOk (f : Frame) : Bool := decide (f.payload.length ≤ 4096)

/-- A table number (R285), or that of a mirror table (R304). -/
def tableNo (n : Nat) : Bool := decide (n < 64) || (decide (0x80000000 ≤ n) && decide (n < 0x80000040))

/-- A unit that self-test can retire (R498). -/
def retiredOk : Retired → Bool
  | .core t q => decide (t < 24) && decide (q < 16)
  | .cluster t => decide (t < 24)
  | .lane p l => decide (p < 32) && decide (l < 9)
  | .channel s => decide (s < 12)
  | .stack s => decide (s < 12)

/-- A frequency that the loop can set (R484). -/
def freqOk (mhz : Nat) : Bool := decide (1200 ≤ mhz) && decide (mhz ≤ 1900) && mhz % 25 == 0

/-- Whether one operand is of a kind that the row allows and names a register that exists (R138). -/
def operandOk (kinds : List Nat) (o : Operand) : Bool := kinds.contains (kindCode o) && operandInRange o

/-- Whether an instruction word meets its row (R137 to R143, R168): TYPE, PRED, MOD, the operand kinds, D other
than p0, at most one operand of kind 0x5, no IMM bit that is not used. -/
def wordOk (w : LumfyWord) : Bool :=
  match opRow w.code with
  | none => false
  | some r =>
    r.types.contains w.args.ty && decide (w.args.pred < 16) && (!r.unpred || w.args.pred == 0) &&
    Nat.land w.args.mod.toNat (r.modMask w.args.ty) == w.args.mod.toNat &&
    operandOk r.d w.args.d && operandOk r.a w.args.a && operandOk r.b w.args.b && w.args.d != .preg 0 &&
    decide (([w.args.d, w.args.a, w.args.b].filter fun o => o == .imm).length ≤ 1) &&
    Nat.land w.args.imm.toNat
      (r.immMask w.args.ty ([w.args.d, w.args.a, w.args.b].contains .imm)) == w.args.imm.toNat

/-- Whether the operands of a row other than Lumfy's are in range. -/
def Instr.operandsOk : Instr → Bool
  | .nop p => pkt p
  | .loadProgram p => pkt p
  | .launch p => pkt p
  | .tableCreate p => pkt p
  | .tableReplace p => pkt p
  | .graphLoad p => pkt p
  | .contextCreate p => pkt p
  | .contextPreempt p => pkt p
  | .contextResume p => pkt p
  | .contextDestroy p => pkt p
  | .contextReset p => pkt p
  | .snapshot p => pkt p
  | .restore p => pkt p
  | .scheduleLoad p => pkt p
  | .roleAssign p => pkt p
  | .spareArm p => pkt p
  | .takeover p => pkt p
  | .frankRead p => pkt p
  | .selftest p => pkt p
  | .unlistedOpcodePacket opcode p => pkt p && !listedOpcodes.contains opcode.toNat
  | .setLayout _ p _ => request p
  | .setIso _ p _ => request p
  | .setPool _ p _ => request p
  | .setLimits _ p _ => request p
  | .setTime _ p _ => request p
  | .setKey _ p _ => request p
  | .revokeKey _ p _ => request p
  | .stageFirmware _ p _ => request p
  | .unknownPostmasterOp _ p _ => request p
  | .commandStart _ _ => true
  | .commandComplete _ _ => true
  | .translationComplete _ _ => true
  | .kernelEnd team => decide (team < 24)
  | .sqCfgEnable fn _ => decide (fn < 64)
  | .sqDoorbell fn _ => decide (fn < 64)
  | .rqCfgEnable fn _ => decide (fn < 64)
  | .rqConsumed fn _ => decide (fn < 64)
  | .lbStatusRead fn => decide (fn < 64)
  | .scSelect who _ => pfOrI3c who
  | .pendWrite fn g _ => decide (fn < 64) && decide (g < 32)
  | .maskWrite fn g _ => decide (fn < 64) && decide (g < 32)
  | .rearm fn _ => decide (fn < 64)
  | .srcStateRead who g => pfOrI3c who && decide (g < 32)
  | .dlqPop who _ => pfOrI3c who
  | .pwrStatusRead who => pfOrI3c who
  | .sleepRequest who _ => pfOrI3c who
  | .reset who _ => pfOrI3c who
  | .registerWrite who offset width _ => decide (who ≤ 64) && decide (offset < 0x4000000) && ((width == 4 && offset % 4 == 0) || (width == 8 && offset % 8 == 0))
  | .lowHalfRead who offset => decide (who ≤ 64) && decide (offset < 0x4000000) && offset % 8 == 0
  | .highHalfRead who offset => decide (who ≤ 64) && decide (offset < 0x4000000) && offset % 8 == 0
  | .bar0InvalidAccess who offset len _ => decide (who < 64) && decide (offset < 0x4000000) && decide (0 < len)
  | .bar2Read fn _ len => decide (fn < 64) && decide (0 < len)
  | .bar2Write fn _ data => decide (fn < 64) && !data.isEmpty
  | .functionLevelReset fn => decide (fn < 64)
  | .read64 offset => decide (offset < 0x4000000) && offset % 8 == 0
  | .write64 offset _ => decide (offset < 0x4000000) && offset % 8 == 0
  | .read32 offset => decide (offset < 0x4000000) && offset % 4 == 0
  | .mctpControl request => !request.isEmpty
  | .pldm _ _ => true
  | .dynamicAddressAssign _ => true
  | .tileQueueDrain team core => decide (team < 24) && decide (core < 16)
  | .collectiveComplete _ _ => true
  | .samplerTakeRequest team => decide (team < 24)
  | .parcelComplete team => decide (team < 24)
  | .stagingStart team => decide (team < 24)
  | .stagingComplete team slot => decide (team < 24) && decide (slot < 32)
  | .updateRequestBegin team => decide (team < 24)
  | .updateRequestComplete team => decide (team < 24)
  | .placementWindowEnd team choice => decide (team < 24) && choice.promote.all (fun r => tableNo r.1) && choice.demote.all (fun r => tableNo r.1)
  | .migrationDrained team => decide (team < 24)
  | .migrationSwapped team => decide (team < 24)
  | .tableReplaceFlip _ table => tableNo table
  | .timeFrame port frame => decide (port < 32) && frame.hops < 16
  | .timeFrameSend => true
  | .lockLoss _ => true
  | .masterTimeout => true
  | .ppsEdge => true
  | .referenceLoss _ => true
  | .roundBoundary => true
  | .scheduleActivate => true
  | .slotSend entry => decide (entry < 4096)
  | .barrierRelease index => decide (index < 65536)
  | .prefetchDeadline team slot => decide (team < 24) && decide (slot < 32)
  | .snapshotStart _ => true
  | .snapshotComplete _ => true
  | .frankingBoundary => true
  | .preemptionPoint _ => true
  | .quiesceTimeout _ => true
  | .preemptSaveComplete _ => true
  | .resumeRestore _ => true
  | .frameForward port frame => decide (port < 32) && frameOk frame
  | .syncOperationFrame port frame => decide (port < 32) && frameOk frame
  | .syncReplyFrame port frame => decide (port < 32) && frameOk frame
  | .barrierArrival index => decide (index < 65536)
  | .fabricWriteFrame port frame => decide (port < 32) && frameOk frame
  | .fabricReadRequest port frame => decide (port < 32) && frameOk frame
  | .fabricReadData port frame => decide (port < 32) && frameOk frame
  | .mirrorWrite port frame => decide (port < 32) && frameOk frame
  | .mirrorWriteAck port frame => decide (port < 32) && frameOk frame
  | .divertedMailbagPart port frame => decide (port < 32) && frameOk frame
  | .mailbagAcknowledgement port frame => decide (port < 32) && frameOk frame
  | .collectiveControl port frame => decide (port < 32) && frameOk frame
  | .returnedFrame port frame => decide (port < 32) && frameOk frame
  | .flowBreak _ _ => true
  | .mailbagArrive port bag corrected damaged => decide (port < 32) && bag.payload.length == 12800 && !(corrected && damaged)
  | .mailbagResendTimeout _ _ => true
  | .roleAdvertisement port advert => decide (port < 32) && decide (advert.hops < 256)
  | .roleLossTimeout _ => true
  | .autoTakeover _ => true
  | .joinReleaseReceived _ _ => true
  | .homeRelayWindowEnd index => decide (index < 65536)
  | .snapshotRecordReceived _ header streams => decide (header.length = 4096) && streams.length % 16 == 0
  | .portPartnerDetect port => decide (port < 32)
  | .trainingComplete port _ => decide (port < 32)
  | .portPartnerLoss port => decide (port < 32)
  | .routeChange _ port => decide (port < 32)
  | .laneRetire port lane => decide (port < 32) && decide (lane < 9)
  | .swapComplete port => decide (port < 32)
  | .cartridgeFail cartridge => decide (cartridge < 2)
  | .cartridgeInsert cartridge => decide (cartridge < 2)
  | .cartridgeReady cartridge => decide (cartridge < 2)
  | .coreFault team core => decide (team < 24) && decide (core < 16)
  | .clusterFault team => decide (team < 24)
  | .recoveryAuditComplete team _ => decide (team < 24)
  | .pseudoChannelFault stack => decide (stack < 12)
  | .spareFillComplete stack => decide (stack < 12)
  | .stackFault stack _ => decide (stack < 12)
  | .journalRebuildComplete => true
  | .mcHeartbeatMiss core => decide (core < 8)
  | .journalReplay _ => true
  | .faultInAssert _ => true
  | .stormWindowEnd => true
  | .stuckTimeout source => decide (source < 1024)
  | .powerOn => true
  | .pwrEnRise => true
  | .pwrEnFall => true
  | .modResetAssert => true
  | .modResetRelease => true
  | .perst => true
  | .startupStepComplete retired _ => retired.all retiredOk
  | .supplyOutOfRange _ => true
  | .supplyUndervoltage => true
  | .supplyOvervoltage => true
  | .thermalTrip die => decide (die < 5)
  | .frequencyAdjust die mhz _ tj => decide (die < 4) && freqOk mhz && decide (tj < 256)
  | .droopDetect die => decide (die < 4)
  | .stretchEnd die => decide (die < 4)
  | .dozeEntry => true
  | .sleepEntry => true
  | .sleepRefusal => true
  | .wake => true
  | .energyInterval dieMillijoules _ => dieMillijoules.length == 4
  | .telemetryRefresh _ _ _ _ temps hubTj => temps.length == 12 && decide (hubTj < 256)
  | .referenceAcquire => true
  | .updNormComplete team => decide (team < 24)
  | .fabricWriteAck port frame => decide (port < 32) && frameOk frame
  | .collectiveDataFrame port frame => decide (port < 32) && frameOk frame
  | .releaseRelay index _ => decide (index < 65536)
  | .linkLevelResend port _ => decide (port < 32)
  | .dieLinkFault die => decide (die < 5)
  | .railFault => true
  | .supplyInRange _ => true
  | .tjLimitCrossing die tj => decide (die < 5) && decide (tj < 256)
  | .faultInRelease => true
  | .configurationWrite fn what => decide (fn < 64) && (match what with | .numVFs n => fn == 0 && decide (n < 64) | _ => true)
  | .takeoverCopyComplete _ _ => true
  | _ => true

/-- Well-formed commands. -/
def Instr.wf (i : Instr) : Bool :=
  match i.lumfy with
  | some (t, w) => decide (t < 24) && wordOk w
  | none => i.operandsOk

end Sys2Proof
end

