-- ==== Sys2Proof/Safety.lean ====
section
/-! DEFINITION. What counts as a sound state of the module and a safe run, in the terms the statements use: every byte
memory is in its canonical form (notes/assumptions/6.md), so that equal memories are equal data. -/

namespace Sys2Proof.Machine

open Sys2Proof

/-- A core's CORE memory is in canonical form. -/
abbrev Core.memOk (k : Core) : Prop := Memory.wf k.mem = true

/-- The memories of a table of cores. -/
abbrev coresOk (m : SMap Core) : Prop := ∀ c ∈ m, Core.memOk c.2

/-- A team's CLUSTER memory and those of its cores. -/
abbrev Team.memOk (k : Team) : Prop := Memory.wf k.cluster = true ∧ coresOk k.cores

/-- The memories of a table of teams. -/
abbrev teamsOk (m : SMap Team) : Prop := ∀ t ∈ m, Team.memOk t.2

/-- The memories that a launch keeps for a rerun (R100). -/
abbrev launchesOk (l : List Launch) : Prop := ∀ x ∈ l, teamsOk x.startTeams

/-- The memories that a context holds: those of its saved teams and of its launches (R100, R449). -/
abbrev Ctx.memOk (x : Ctx) : Prop := teamsOk x.saved ∧ launchesOk x.launches

/-- The memories of a table of contexts. -/
abbrev ctxsOk (m : SMap Ctx) : Prop := ∀ x ∈ m, Ctx.memOk x.2

/-- The memories that the on-chip parts of snapshot images hold (R418). -/
abbrev snapsOk (l : List Snapped) : Prop := ∀ x ∈ l, teamsOk x.chip.teams

/-- Every memory of the module is in canonical form: STACK, host memory, and those of teams, contexts and images. -/
structure State.MemOk (s : State) : Prop where
  stack : Memory.wf s.stack = true
  host : Memory.wf s.hostMem = true
  teams : teamsOk s.teams
  ctxs : ctxsOk s.ctxs
  snaps : snapsOk s.snapped

/-- A run of `n` steps that stops on no fault and no refusal, through sound states. -/
def SafeFor : Nat → State → Prop
  | 0, s => s.MemOk
  | n + 1, s => s.MemOk ∧ ∃ t, step s = .next t ∧ SafeFor n t

end Sys2Proof.Machine

/-! ### Words of the statements -/

namespace Sys2Proof.Stated

open Sys2Proof Sys2Proof.Machine

/-- Registers and the values that their Reset columns give after a power-on reset, as the physical function reads them:
the postmark unit, the fault and takeover registers, ROW_PLACE and the counters beside it, the dead-letter queue,
PWR_CTRL, PM_LIMITS, PM_KEY and the MSI-X entry. -/
def resetTable : List (Nat × Nat) :=
  [(0x200000, 0), (0x200010, 0), (0x200018, 0), (0x200020, 0), (0x200028, 0), (0x200030, 0), (0x200038, 0),
   (0x300700, 0xFF00), (0x300708, 0), (0x300710, 0xFFFF0000), (0x300718, 0), (0x300720, 0),
   (0x300200, 0), (0x300300, 0x10404001), (0x300308, 0), (0x300600, 0), (0x300640, 0),
   (0x300800, 0x1C03E802), (0x300900, 0), (0x180000, 0), (0x180008, 0x100000000), (0x181000, 0),
   (0x800008, 0x1080D86E69), (0x800020, 0)]

/-- What a function's letterbox and interrupt bank read after reset: rings off, PHASE 1, no free reply entry, every
source masked. -/
def letterboxTable : List (Nat × Nat) :=
  [(0x000, 0), (0x008, 0), (0x010, 0), (0x018, 0), (0x020, 0), (0x028, 0), (0x030, 0), (0x038, 0x10000), (0x040, 0x4),
   (0x048, 0)]

/-- The 128-bit word of an instruction (R137): OPCODE [9:0], TYPE [15:10], PRED [19:16], MOD [27:20], D [43:28],
A [59:44], B [75:60], IMM [123:76], zero above; a specifier holds its kind in [15:12] and its value below (R138). -/
def encodeWord (w : LumfyWord) : Nat :=
  let spec (o : Operand) : Nat := kindCode o * 4096 + operandVal o
  w.code + w.args.ty * 2 ^ 10 + w.args.pred * 2 ^ 16 + w.args.mod.toNat * 2 ^ 20 + spec w.args.d * 2 ^ 28 +
  spec w.args.a * 2 ^ 44 + spec w.args.b * 2 ^ 60 + w.args.imm.toNat * 2 ^ 76

/-- What a packet row takes from the ring of its function: the opcode, the packet, and what the checks that differ
between commands find. A signed request comes by this path, with its own OP and BODY_LEN. -/
def intakeOf (s : State) : Instr → Option (Nat × Packet × Checks)
  | .nop p => some (0x0001, p, nopChecks p)
  | .loadProgram p => some (0x0010, p, s.ownChecks p (s.loadChecks p))
  | .launch p => some (0x0011, p, s.ownChecks p (s.launchChecks p))
  | .tableCreate p => some (0x0020, p, s.ownChecks p (s.tableChecks p))
  | .tableReplace p => some (0x0021, p, replaceChecks p)
  | .graphLoad p => some (0x0030, p, s.ownChecks p (s.graphChecks p))
  | .contextCreate p => some (0x0040, p, s.createChecks p)
  | .contextPreempt p => some (0x0041, p, s.preemptChecks p)
  | .contextResume p => some (0x0042, p, s.resumeChecks p)
  | .contextDestroy p => some (0x0043, p, s.targetChecks p [] false)
  | .contextReset p => some (0x0044, p, s.targetChecks p [] false)
  | .snapshot p => some (0x0050, p, s.ownChecks p (s.snapshotChecks p))
  | .restore p => some (0x0051, p, s.ownChecks p (s.restoreChecks p))
  | .scheduleLoad p => some (0x0060, p, s.scheduleChecks p)
  | .roleAssign p => some (0x0061, p, s.roleChecks p)
  | .spareArm p => some (0x0062, p, armChecks p)
  | .takeover p => some (0x0063, p, takeChecks p)
  | .frankRead p => some (0x0070, p, frankChecks p)
  | .selftest p => some (0x0080, p, s.selftestChecks p)
  | .setLayout .packet p v => if isOp p.block 1 then some (0x0090, p, s.requestChecks p v) else none
  | .setIso .packet p v => if isOp p.block 2 then some (0x0090, p, s.requestChecks p v) else none
  | .setPool .packet p v => if isOp p.block 3 then some (0x0090, p, s.requestChecks p v) else none
  | .setLimits .packet p v => if isOp p.block 4 then some (0x0090, p, s.requestChecks p v) else none
  | .setTime .packet p v => if isOp p.block 5 then some (0x0090, p, s.requestChecks p v) else none
  | .setKey .packet p v => if isOp p.block 6 then some (0x0090, p, s.requestChecks p v) else none
  | .revokeKey .packet p v => if isOp p.block 7 then some (0x0090, p, s.requestChecks p v) else none
  | .stageFirmware .packet p v => if isOp p.block 8 then some (0x0090, p, s.requestChecks p v) else none
  | .unknownPostmasterOp .packet p v =>
    if opLength (qOp p.block) != some (qLen p.block) then some (0x0090, p, s.requestChecks p v) else none
  | _ => none

/-- A new reply of a function stands after all its earlier ones, whether already written to the ring or held. -/
def replies (k : Fn) : List Reply := k.written ++ k.held

/-- The checks of R86 in its order, each with what decides the packet where it is the first to fail; none where it
passes. -/
def packetSteps (s : State) (r : CmdRow) (p : Packet) (c : Checks) : List (Option Verdict) :=
  let fail (bad : Bool) (st a : Nat) : Option Verdict := if bad then some (.rejected st a) else none
  [fail (fnOf p.context != p.fn || !s.ctxExists p.context) 0x0301 0x04,
   fail (r.pfOnly && (p.fn != 0 || !isControl p.context)) 0x0301 0x00,
   c.perm.map fun a => .rejected 0x0301 a,
   (s.cmdsOf p.context).classify p.seq,
   fail (s.isFaulted p.context && !([0x0001, 0x0051, 0x0044, 0x0043].contains r.opcode)) 0x0204 0xFFFFFFFF,
   fail (match r.sent with | .either => false | .own => isControl p.context | .control => !isControl p.context) 0x0102 0x04,
   fail (decide (p.paramLen.toNat < r.lenMin) || decide (r.lenMax < p.paramLen.toNat)) 0x0102 0x03,
   fail (decide (8 ≤ p.flags.toNat) || (!r.marked && p.flags.getLsbD 1)) 0x0102 0x02,
   c.param.map fun a => .rejected 0x0102 a,
   c.sign.map fun a => .rejected 0x0302 a,
   c.absent.map fun x => .rejected x.1 x.2,
   c.busy.map fun a => .rejected 0x0104 a,
   fail (c.timed && s.time.state != .locked) 0x0106 0xFFFFFFFF]

/-- The block, and the verdict on its signature, of a signed request that came over I3C. -/
def i3cRequest : Instr → Option (List Byte × Bool)
  | .setLayout .i3c p v => if isOp p.block 1 then some (p.block, v) else none
  | .setIso .i3c p v => if isOp p.block 2 then some (p.block, v) else none
  | .setPool .i3c p v => if isOp p.block 3 then some (p.block, v) else none
  | .setLimits .i3c p v => if isOp p.block 4 then some (p.block, v) else none
  | .setTime .i3c p v => if isOp p.block 5 then some (p.block, v) else none
  | .setKey .i3c p v => if isOp p.block 6 then some (p.block, v) else none
  | .revokeKey .i3c p v => if isOp p.block 7 then some (p.block, v) else none
  | .stageFirmware .i3c p v => if isOp p.block 8 then some (p.block, v) else none
  | .unknownPostmasterOp .i3c p v => if opLength (qOp p.block) != some (qLen p.block) then some (p.block, v) else none
  | _ => none

/-- What the postmaster checks of a request (R460): the slot is VALID, MODULE_ID matches, COUNTER exceeds the stored
one, NOT_AFTER is 0 or not yet past on a posted module, the slot holds the right of the OP, the signature verifies. -/
def requestPasses (s : State) (b : List Byte) (verified : Bool) : Prop :=
  (s.pm.rights.getD (qSlot b) 0).getLsbD 0 = true ∧ fieldAt b 0x08 8 = s.pm.moduleId.toNat ∧
  (s.pm.ctrs.getD (qSlot b) 0).toNat < qCounter b ∧
  (fieldAt b 0x18 8 = 0 ∨ (s.time.state = .locked ∧ s.postmark.toNat ≤ fieldAt b 0x18 8)) ∧
  (s.pm.rights.getD (qSlot b) 0).getLsbD (rightOf (qOp b)) = true ∧ verified = true

/-- The state in which a command has started: its phase and its start postmark; a command that needs the clusters ends
DOZE. -/
def startedState (s : State) (c : W32) (q : W64) (y : Cmd) : State :=
  let s1 := s.modCmd c q fun z => { z with phase := .started, startedAt := s.postmark }
  if [0x0010, 0x0011, 0x0041, 0x0042, 0x0050, 0x0051, 0x0080].contains y.opcode.toNat ∧ s.power.state = .doze then
    { s1 with power := { s.power with state := .active } }
  else s1

/-- Whether one message goes to a function, and what it leaves (R469): entry 0 of the MSI-X table, or the pending bit
where the entry or the function is masked; nothing while MSI-X is off, nor a second message in one tick of the
controller. A message that was pending stays so where `stays`. Beside it only functions change. -/
def messageTo (s t : State) (f : Nat) (stays sent : Bool) : Prop :=
  let k := s.fn f
  let may := sent && k.msixOn && !k.messaged
  let goes := may && !k.msixMask && !k.msixFnMask
  (t.fn f).bank.msgs = k.bank.msgs + (if goes then 1 else 0) ∧
  (t.fn f).msixPending = ((k.msixPending && stays) || (may && (k.msixMask || k.msixFnMask))) ∧
  (t.fn f).messaged = (k.messaged || goes) ∧
  (∀ g, g ≠ f → t.fn g = s.fn g) ∧
  t = { s with
    fns := t.fns
    fabric := { s.fabric with out := s.fabric.out ++ if goes then [.msix f k.msixAddr k.msixData] else [] } }

/-- What a read clears (R10, R11, R14, R471): of LB_STATUS, PWR_STATUS and SRC_STATE g exactly the RC bits that it
returned as 1, of PEND g the set L. Registers have bits [31:0] `lo` and [63:32] `hi`; nothing else changes. -/
def clearedBy (s : State) (who off : Nat) (lo hi : W32) (low : Bool) : State :=
  if who ≠ i3c ∧ off = 0x1000 * (who + 1) + 0x040 then
    s.modFn who fun k => { k with sqError := k.sqError && !lo.getLsbD 0, rqError := k.rqError && !lo.getLsbD 1 }
  else if off = 0x300808 then
    { s with power := { s.power with sleepRefused := s.power.sleepRefused && !lo.getLsbD 2 } }
  else if 0x112000 ≤ off ∧ off < 0x112200 ∧ off % 16 = 0 then
    let g := (off - 0x112000) / 16
    { s with irq := { s.irq with
        storm := s.irq.storm.filter fun i => !(i / 32 == g && lo.getLsbD (i % 32))
        stuck := s.irq.stuck.filter fun i => !(i / 32 == g && hi.getLsbD (i % 32)) } }
  else if low ∧ who ≠ i3c ∧ 0x100000 ≤ off ∧ off < 0x100200 ∧ off % 16 = 0 then
    s.modFn who fun k => { k with bank := { k.bank with latched := mapPut k.bank.latched ((off - 0x100000) / 16) 0 } }
  else s

/-- A team's part of an instruction: the other teams are as they were, and in its own only the pc moved on and cores
changed; of the module's own counters the number of free values moved on (notes/assumptions/7.md). -/
def teamMovedOn (s u : State) (t : Nat) : Prop :=
  (∀ k, k ≠ t → u.team k = s.team k) ∧
  u.team t = { s.team t with
    kernel := (s.team t).kernel.map fun k => { k with pc := k.pc + 1 }, cores := (u.team t).cores }

/-- After an instruction that changes registers only: every core whose mask is true is as `f` says, the others and the
rest of the module as before. -/
def registersMovedOn (s u : State) (t : Nat) (w : LumfyWord) (f : Core → Core) : Prop :=
  u = { s with free := s.free + 1, teams := u.teams } ∧ teamMovedOn s u t ∧
  ∀ q, u.core t q = if q ∈ (s.team t).masked w.args.pred then f (s.core t q) else s.core t q

/-- Rows whose whole effect is one register of each core (R150, R151): the row, its OPCODE, what a core is afterwards. -/
def registerRows (s : State) (t : Nat) (x : Args) : List ((Nat → Args → Instr) × Nat × (Core → Core)) :=
  let s1 (f : Core → W64) (k : Core) : Core := k.putD x (f k)
  let b1 (f : Core → Bool) (k : Core) : Core := k.putPD x (f k)
  let a (k : Core) : W64 := k.value x false x.a
  let b (k : Core) : W64 := k.value x false x.b
  let au (k : Core) : W64 := k.value x true x.a
  let bu (k : Core) : W64 := k.value x true x.b
  let fa (k : Core) : FVal := sfVal x.ty (a k)
  let fb (k : Core) : FVal := sfVal x.ty (b k)
  let code (v : FVal) : W64 := sfCode x.ty v
  let p (k : Core) : Bool := k.pred x.a
  let r (k : Core) : Bool := k.pred x.b
  [(.nopInstruction, 0x000, fun k => k),
   (.pmread, 0x008, s1 fun _ => s.postmark),
   (.mov, 0x010, s1 a),
   (.movhi, 0x011, s1 fun k => (k.value x false x.d).setWidth 48 |>.zeroExtend 64 |> (· ||| (x.imm.setWidth 16).zeroExtend 64 <<< 48)),
   (.ldc, 0x012, s1 fun _ => match (s.team t).image with
     | some i => BitVec.ofNat 64 (fieldAt i.constants (x.imm.toNat % 65536) 8)
     | none => 0),
   (.add, 0x018, s1 fun k => a k + b k), (.sub, 0x019, s1 fun k => a k - b k), (.mul, 0x01A, s1 fun k => a k * b k),
   (.mulhiS, 0x01B, s1 fun k => BitVec.ofInt 64 ((a k).toInt * (b k).toInt / 2 ^ 64)),
   (.mulhiU, 0x01C, s1 fun k => BitVec.ofNat 64 ((au k).toNat * (bu k).toNat / 2 ^ 64)),
   (.divU, 0x01D, s1 fun k => if bu k = 0 then BitVec.allOnes 64 else BitVec.ofNat 64 ((au k).toNat / (bu k).toNat)),
   (.remU, 0x01E, s1 fun k => if bu k = 0 then au k else BitVec.ofNat 64 ((au k).toNat % (bu k).toNat)),
   (.andI, 0x020, s1 fun k => au k &&& bu k), (.orI, 0x021, s1 fun k => au k ||| bu k),
   (.xorI, 0x022, s1 fun k => au k ^^^ bu k),
   (.shl, 0x023, s1 fun k => a k <<< ((b k).toNat % 64)), (.shr, 0x024, s1 fun k => a k >>> ((b k).toNat % 64)),
   (.sar, 0x025, s1 fun k => BitVec.ofInt 64 ((a k).toInt / 2 ^ ((b k).toNat % 64))),
   (.minS, 0x026, s1 fun k => BitVec.ofInt 64 (min (a k).toInt (b k).toInt)),
   (.minU, 0x027, s1 fun k => BitVec.ofNat 64 (min (au k).toNat (bu k).toNat)),
   (.maxS, 0x028, s1 fun k => BitVec.ofInt 64 (max (a k).toInt (b k).toInt)),
   (.maxU, 0x029, s1 fun k => BitVec.ofNat 64 (max (au k).toNat (bu k).toNat)),
   (.cmpEq, 0x030, b1 fun k => a k == b k), (.cmpNe, 0x031, b1 fun k => a k != b k),
   (.cmpLt, 0x032, b1 fun k => (a k).slt (b k)), (.cmpLe, 0x033, b1 fun k => (a k).sle (b k)),
   (.cmpLtu, 0x034, b1 fun k => (au k).ult (bu k)), (.cmpLeu, 0x035, b1 fun k => (au k).ule (bu k)),
   (.fadd, 0x038, s1 fun k => code ((fa k).add (fb k))), (.fsub, 0x039, s1 fun k => code ((fa k).sub (fb k))),
   (.fmul, 0x03A, s1 fun k => code ((fa k).mul (fb k))),
   (.fma, 0x03B, s1 fun k => code ((sfVal x.ty (k.value x false x.d)).add ((fa k).mul (fb k)))),
   (.fmin, 0x03C, s1 fun k => code (fMinOf (fa k) (fb k))), (.fmax, 0x03D, s1 fun k => code (fMaxOf (fa k) (fb k))),
   (.itof, 0x03E, s1 fun k => code (FVal.ofInt (a k).toInt)),
   (.ftoi, 0x03F, s1 fun k => BitVec.ofNat 64 ((ITy.mk 64 true).ofFloat FVal.toIntZero (fa k)).1),
   (.fcmpEq, 0x040, b1 fun k => FVal.eqv (fa k) (fb k)), (.fcmpLt, 0x041, b1 fun k => FVal.lt (fa k) (fb k)),
   (.fcmpLe, 0x042, b1 fun k => FVal.lt (fa k) (fb k) || FVal.eqv (fa k) (fb k)),
   (.pand, 0x048, b1 fun k => p k && r k), (.por, 0x049, b1 fun k => p k || r k),
   (.pxor, 0x04A, b1 fun k => xor (p k) (r k)), (.pnot, 0x04B, b1 fun k => !p k),
   (.pset, 0x04C, b1 fun k => a k != 0), (.pget, 0x04D, s1 fun k => if p k then 1 else 0),
   (.cset, 0x050, fun k => match x.d with
     | .creg n => k.setC n (BitVec.ofNat 32 (min (a k).toNat (2 ^ 32 - 1)))
     | _ => k),
   (.cget, 0x051, s1 fun k => (k.count x.a).zeroExtend 64)]

/-- The bytes of a CORE tile, as an instruction of the core finds them once its earlier writes are ordered. -/
def tileOf (s : State) (t q : Nat) (d : TileDesc) : TileData := loadTile (memGet (s.core t q).mem) d

/-- Whether no write to the memory of a core is still unordered (R121). -/
def settled (s : State) (t q : Nat) : Prop := ∀ e ∈ s.unfenced, e.place ≠ .core t q

/-- The bytes of the status record that an instruction writes in a core (R144, R198), if it writes one. -/
def recordRange (s : State) (t q : Nat) (x : Args) : Option Nat :=
  if x.mod.getLsbD 0 then (s.core t q).statusPtr else none

/-- Whether an address lies in a core's status record. -/
def inRecord (s : State) (t q : Nat) (x : Args) (a : Nat) : Prop :=
  ∃ p, recordRange s t q x = some p ∧ p ≤ a ∧ a < p + 32

/-- What an instruction that touches CORE memory leaves of the module: counters and launches of contexts, the kernel's pc,
the masked cores and the list of unordered writes apart, everything. -/
def coreLocal (s u : State) (t : Nat) (x : Args) : Prop :=
  u = { s with free := s.free + 1, teams := u.teams, ctxs := u.ctxs, unfenced := u.unfenced } ∧
  teamMovedOn s u t ∧ ∀ q, q ∉ (s.team t).masked x.pred → u.core t q = s.core t q

/-- Whether D can be written and read back element by element: its lines do not overlap (R117), it lies within CORE_BYTES,
its elements and scales do not meet, and the instruction's status record does not meet it. -/
def writable (s : State) (t q : Nat) (x : Args) (d : TileDesc) : Prop :=
  d.lineBytes ≤ d.stride.toNat ∧ s.coreOutside t d = false ∧
  d.extents.Pairwise (fun a b => rangesMeet a b = false) ∧
  ∀ p, recordRange s t q x = some p → ∀ e ∈ d.extents, rangesMeet e (p, 32) = false

/-- Descriptor rows (R118, R152, R153): the row, its OPCODE, the descriptor it changes, and the change; BASE, STRIDE and
SCALE_BASE are then rounded down to a multiple of 64. -/
def descriptorRows (x : Args) : List ((Nat → Args → Instr) × Nat × (Core → TileDesc) × (Core → TileDesc → TileDesc)) :=
  let a (k : Core) : W64 := k.value x false x.a
  [(.tsetbase, 0x081, fun k => k.tile x.d, fun k d => { d with base := a k }),
   (.taddbase, 0x082, fun k => k.tile x.d, fun k d => { d with base := d.base + a k }),
   (.tsetstride, 0x084, fun k => k.tile x.d, fun k d => { d with stride := (a k).setWidth 32 }),
   (.tsettype, 0x085, fun k => k.tile x.d, fun _ d => { d with ty := BitVec.ofNat 8 x.ty }),
   (.tflip, 0x087, fun k => k.tile x.a, fun _ d =>
     { d with rowsM1 := d.colsM1, colsM1 := d.rowsM1, layout := d.layout ^^^ 1 })]

/-- An element code of A, or of a tile B that is broadcast or a scalar B (R160, R233). -/
def bOf (s : State) (t q : Nat) (x : Args) (i j : Nat) : Nat :=
  match x.b with
  | .treg n =>
    let d := (s.core t q).getT n
    (tileOf s t q d).code (if d.rows = 1 then 0 else i) (if d.cols = 1 then 0 else j)
  | o => ((s.core t q).value x false o).toNat % 2 ^ elemBits x.ty

/-- The element-wise rows (R229 to R240): the row, its OPCODE, the type of D, and the code of element (i, j) from the codes
of A, B and D. `m i j` is the rounding that SROUND selects (R185, R186). -/
def elementRows (s : State) (t q : Nat) (x : Args) :
    List ((Nat → Args → Instr) × Nat × Nat × (Nat → Nat → Nat → Nat → Nat → Nat)) :=
  let m (i j : Nat) : Rounding := s.modeAt t q x x.ty i j
  let si := x.mod.getLsbD 3
  let ov := x.mod.getLsbD 2
  let v (c : Nat) : FVal := vfVal x.ty c
  let keep (f : Nat → Nat → Nat) (_ _ a b _ : Nat) : Nat := f a b
  let one (f : Rounding → FVal → Nat × Flags) (i j a _ _ : Nat) : Nat := (f (m i j) (v a)).1
  let arith (ff : FVal → FVal → FVal) (fi : Int → Int → Int) (i j a b _ : Nat) : Nat :=
    match itypeOf x.ty with
    | some it => (it.encode ov (fi (it.decode a) (it.decode b))).1
    | none => ((drainFmt x.ty).encode (m i j) si (ff (v a) (v b))).1
  let ints (f : ITy → Int → Nat → Nat) (a b : Nat) : Nat :=
    match itypeOf x.ty with
    | some it => f it (it.decode a) b
    | none => a
  let sign (fi : Int → Int) (ff : FVal → FVal) (_ _ a _ _ : Nat) : Nat :=
    match itypeOf x.ty with
    | some it => (it.encode ov (fi (it.decode a))).1
    | none => ((drainFmt x.ty).encode .nearest true (ff (v a))).1
  [(.vadd, 0x180, x.ty, arith FVal.add (· + ·)), (.vsub, 0x181, x.ty, arith FVal.sub (· - ·)),
   (.vmul, 0x182, x.ty, arith FVal.mul (· * ·)),
   (.vdiv, 0x183, x.ty, fun i j a b _ => (viaF32 x.ty .nearest (m i j) si ((v a).div (v b))).1),
   (.vmax, 0x184, x.ty, keep (pick2 x.ty true)), (.vmin, 0x185, x.ty, keep (pick2 x.ty false)),
   (.vfma, 0x186, x.ty, fun i j a b d => ((drainFmt x.ty).encode (m i j) si ((v d).add ((v a).mul (v b)))).1),
   (.vand, 0x187, x.ty, keep Nat.land), (.vor, 0x188, x.ty, keep Nat.lor), (.vxor, 0x189, x.ty, keep Nat.xor),
   (.vshl, 0x18A, x.ty, keep (ints fun it a b => (it.encode ov (a * (2 ^ (b % it.width) : Nat))).1)),
   (.vshr, 0x18B, x.ty, keep (ints fun it a b => unsignedOf it.width (a / (2 ^ (b % it.width) : Nat)))),
   (.vneg, 0x190, x.ty, sign (fun a => -a) FVal.neg), (.vabs, 0x191, x.ty, sign (fun a => a.natAbs) FVal.abs),
   (.vsqrt, 0x192, x.ty, one fun r a => viaF32 x.ty .nearest r false a.sqrt),
   (.vrsqrt, 0x193, x.ty, one fun r a => vrsqrtElem x.ty r si a),
   (.vrcp, 0x194, x.ty, one fun r a => vrcpElem x.ty r si a), (.vexp, 0x195, x.ty, one fun r a => vexpElem x.ty r si a),
   (.vlog, 0x196, x.ty, one fun r a => vlogElem x.ty r a),
   (.vtanh, 0x197, x.ty, one fun r a => vfunElem .tanh (.fin true 1 0) (.fin false 1 0) x.ty r a),
   (.vsigmoid, 0x198, x.ty, one fun r a => vfunElem .sigmoid FVal.zero (.fin false 1 0) x.ty r a),
   (.vgelu, 0x199, x.ty, one fun r a => vfunElem .gelu (.fin true 0 0) (.inf false) x.ty r a),
   (.vsilu, 0x19A, x.ty, one fun r a => vfunElem .silu (.fin true 0 0) (.inf false) x.ty r a),
   (.vrelu, 0x19B, x.ty, keep fun a _ =>
     if (v a).isNan then (drainFmt x.ty).nanCode else if FVal.lt FVal.zero (v a) then a else 0),
   (.vlrelu, 0x19C, x.ty, fun i j a _ _ =>
     if (v a).isNan then (drainFmt x.ty).nanCode
     else if FVal.lt (v a) FVal.zero then
       (viaF32 x.ty .nearest (m i j) si ((f32 (((s.core t q).value x false x.b).toNat % 2 ^ 32)).mul (v a))).1
     else a),
   (.vcmpEq, 0x1A8, 0x1A, keep fun a b => natOf (compare2 x.ty 0 a b)),
   (.vcmpLt, 0x1A9, 0x1A, keep fun a b => natOf (compare2 x.ty 1 a b)),
   (.vcmpLe, 0x1AA, 0x1A, keep fun a b => natOf (compare2 x.ty 2 a b))]

/-- The tiles that a core-local tile row writes (R155, R159): D, and the mask tile of VDROPOUT or the carry tile of a
scan. -/
def tilesWritten (k : Core) (w : LumfyWord) : List TileDesc :=
  k.tile w.args.d ::
    (if w.code = 0x1B1 then [k.getT (w.args.imm.toNat / 2 ^ 32 % 32)]
     else if 0x1C8 ≤ w.code ∧ w.code ≤ 0x1D6 then [k.getT (w.args.imm.toNat % 32)] else [])

/-- Whether the matrix engine can take an instruction in every core whose mask is true (R207): none of the tile registers
that it reads is still draining, and the tile queue has room. -/
def drainReady (s : State) (t : Nat) (x : Args) (regs : List Operand) : Prop :=
  ∀ q ∈ (s.team t).masked x.pred,
    (∀ n, Operand.treg n ∈ regs → n ∉ (s.core t q).tileQueue) ∧ (s.core t q).tileQueue.length < 8

/-- The payload of something sent out, where it is a frame. -/
def payloadOf : Out → List Byte
  | .frame _ f => f.payload
  | _ => []

/-- No write of the places that a gather of a core reads is still unordered (R121). -/
def settledGather (s : State) (t q : Nat) : Prop :=
  ∀ e ∈ s.unfenced, e.place ≠ .core t q ∧ e.place ≠ .cluster t ∧ e.place ≠ .stack

/-- Every core whose mask is true, and no other, receives `v` in D: written at once, or kept behind the instructions of the
same unit that the core issued earlier and that have not completed (R119). -/
def gives (s u : State) (t : Nat) (w : LumfyWord) (v : W64) : Prop :=
  (∀ q, q ∉ (s.team t).masked w.args.pred → u.core t q = s.core t q) ∧
  ∀ q ∈ (s.team t).masked w.args.pred,
    ((∀ y ∈ (s.core t q).awaited, y.unit ≠ unitOf w.code) →
      (u.core t q).awaited = (s.core t q).awaited ∧ ∀ n, w.args.d = .sreg n → (u.core t q).getS n = v) ∧
    ((∃ y ∈ (s.core t q).awaited, y.unit = unitOf w.code) →
      ∃ y, (u.core t q).awaited = (s.core t q).awaited ++ [y] ∧ y.dest = w.args.d ∧ y.unit = unitOf w.code ∧ y.answer = some v)

/-- Every core whose mask is true awaits D of a team request, under the request's tag. -/
def awaits (s u : State) (t : Nat) (w : LumfyWord) : Prop :=
  ∀ q ∈ (s.team t).masked w.args.pred,
    ∃ y, (u.core t q).awaited = (s.core t q).awaited ++ [y] ∧ y.dest = w.args.d ∧ y.unit = unitOf w.code ∧
      y.tag = s.free + 1 ∧ y.answer = none

/-- A team request that does not act (R164): D is zero in every core whose mask is true, and nothing of the module but
cores, counters and the pc changes. -/
def refused (s u : State) (t : Nat) (w : LumfyWord) : Prop :=
  gives s u t w 0 ∧
  u = { s with free := s.free + 1, teams := u.teams, ctxs := u.ctxs, unfenced := u.unfenced } ∧ teamMovedOn s u t

/-- What a team request changes whose mask is false in every core: the pc alone moves on. -/
def passedOver (s u : State) (t : Nat) : Prop :=
  u = { s with free := s.free + 1, teams := u.teams } ∧ teamMovedOn s u t ∧ ∀ q, u.core t q = s.core t q

/-- A SAMPLE that acts joins the sampler's queue with the operand values of the lowest core `q` whose mask is true, and
every such core awaits D. -/
def joinsSampler (s u : State) (t q : Nat) (w : LumfyWord) : Prop :=
  let k := s.core t q
  (u.team t).sampler = { (s.team t).sampler with
    queue := (s.team t).sampler.queue ++
      [⟨w, q, k.value w.args false w.args.a, k.value w.args false w.args.b, s.free + 1⟩] } ∧
  awaits s u t w ∧ u = { s with free := s.free + 1, teams := u.teams } ∧ ∀ j, j ≠ t → u.team j = s.team j

/-- The answer `v` to the request `tag` reaches D of the instruction that awaits it, where no instruction of its unit that
the core issued earlier is uncompleted (R119), and no other uncompleted instruction of the core has that D (R120). -/
def answered (s u : State) (t q tag : Nat) (v : W64) : Prop :=
  ∀ pre y post, (s.core t q).awaited = pre ++ y :: post → y.tag = tag →
    (∀ z ∈ pre, z.unit ≠ y.unit) → (∀ z ∈ pre ++ post, z.tag ≠ tag ∧ z.dest ≠ y.dest) →
    ∀ n, y.dest = .sreg n → (u.core t q).getS n = v

/-- What no sync instruction changes: STACK, host memory, the CLUSTER memories and accumulation stores, and every core's
tile, predicate and cursor registers and, where MOD asks for no record, its memory. -/
def syncFrame (s u : State) (x : Args) : Prop :=
  u.stack = s.stack ∧ u.hostMem = s.hostMem ∧
  ∀ k, (u.team k).cluster = (s.team k).cluster ∧ (u.team k).acs = (s.team k).acs ∧
    ∀ q, (u.core k q).t = (s.core k q).t ∧ (u.core k q).p = (s.core k q).p ∧ (u.core k q).c = (s.core k q).c ∧
      (x.mod.getLsbD 0 = false → (u.core k q).mem = (s.core k q).mem)

/-- No registration waits at the unit, and none at another unit with room for it, so that none is admitted (R358). -/
def noneAdmitted (s : State) (u : SyncUnit) : Prop :=
  s.waitingOf u = [] ∧ ∀ v, v ≠ u → s.waitingOf v = [] ∨ v.room ≤ (s.watchesOf v).length

/-- The launch that runs on a team has stopped on a first fault of a core (R122, R366). -/
def faultedBy (s u : State) (t q : Nat) (c : W32) (cx : Ctx) (kind : FaultKind) : Prop :=
  ∃ k, (u.team t).kernel = some k ∧ k.stopped = true ∧
    ∀ l ∈ cx.launches, l.seq = k.seq → l.fault = none → ∀ y, u.ctx c = some y →
      ∃ m ∈ y.launches, m.seq = k.seq ∧ m.fault = some ⟨s.postmark, t, q, kind⟩

/-- An operation that does not act (R354): ADDR_DROP counts once for the context, and no object changes. -/
def notActing (s u : State) (c : W32) (cx : Ctx) : Prop :=
  (∀ y, u.ctx c = some y → y.counters = addCounters cx.counters evAddr) ∧ (∃ y, u.ctx c = some y) ∧
  (∀ v i, u.obj v i = s.obj v i) ∧ u.hubWatches = s.hubWatches ∧ ∀ k, (u.team k).watches = (s.team k).watches

/-- A frame of a module that is sent on: charged, and out of its port, or kept where no port serves it (R376, R381). -/
def sentOn (s u : State) (g : Frame) : Prop :=
  (∀ p, s.portFor g.srcPostcode g.destPostcode = some p → u.fabric.out = s.fabric.out ++ [.frame p g]) ∧
  (s.portFor g.srcPostcode g.destPostcode = none → u.fabric.waiting = s.fabric.waiting ++ [g])

/-- A frame parked in the dead-letter queue with a reason (R387, R410): counted, or lost to OVERFLOW where it is full. -/
def parkedAs (s u : State) (header payload : List Byte) (reason : Nat) (port : W16) : Prop :=
  (s.fabric.stats.dlq.length < 4096 →
    u.fabric.stats = { s.fabric.stats with
      dlq := s.fabric.stats.dlq ++ [⟨header, s.postmark, reason, port, payload.take 16⟩]
      total := s.fabric.stats.total + 1 }) ∧
  (4096 ≤ s.fabric.stats.dlq.length →
    u.fabric.stats = { s.fabric.stats with overflow := min 0xFFFF (s.fabric.stats.overflow + 1) })

/-- A byte of a list that lies at an address, over what was there. -/
def overlaid (m : Memory) (base : Nat) (data : List Byte) (usable : Nat → Bool) (a : Nat) : Byte :=
  if base ≤ a ∧ a < base + data.length ∧ usable (a - base) = true then data.getD (a - base) 0 else memGet m a

/-- Work that begins ends DOZE (R489). -/
def awake (p : Power) : Power := { p with state := if p.state = .doze then .active else p.state }

/-- The contexts stand in rising order of their 32-bit identifiers, as the model keeps them. -/
def contextsListed (s : State) : Prop := s.ctxs.Pairwise (fun a b => a.1 < b.1) ∧ ∀ x ∈ s.ctxs, x.1 < 2 ^ 32

/-- A contained fault on record (R412, R437, R438). -/
def recorded (s u : State) (cls unit : Nat) : Prop :=
  u.faults.lastClass = cls ∧ u.faults.lastUnit = unit ∧ u.faults.contained = min 0xFFFF (s.faults.contained + 1) ∧
  u.faults.at_ = s.postmark ∧ 203 ∈ u.irq.pulses

/-- A module that has fenced itself (R415): class 10, FAULT_OUT_N low, every context FAULTED, and nothing sent. -/
def fencedNow (u : State) : Prop :=
  u.faults.selfFenced = true ∧ u.faults.lastClass = 10 ∧ u.power.faultOutN = false ∧ (∀ x ∈ u.ctxs, x.2.faulted = true) ∧
  u.upPorts = [] ∧ 203 ∈ u.irq.pulses

/-- A single-module context that holds a lost unit is FAULTED (R416). -/
def faultedCtx (s u : State) (p : W32 → Ctx → Prop) : Prop :=
  ∀ c x, s.ctx c = some x → p c x → x.span ≠ 1 → ∃ y, u.ctx c = some y ∧ y.faulted = true

/-- What an orderly reset leaves (R351, R494): every team empty, every hub object free, a RUNNING single-module context saved
and due for its replay, the stacks as they were but for blocks that an update was writing, a locked postmark unit in
HOLDOVER, and the rest of start-up from step 3. -/
def orderlyReset (s u : State) : Prop :=
  (∀ t, (u.team t).kernel = none) ∧ u.hub = [] ∧ ((∀ t, (s.team t).upd.queue = []) → u.stack = s.stack) ∧
  u.unfenced = [] ∧ u.power.bootStep = 2 ∧ u.power.ready = false ∧
  (s.time.state = .locked → u.time.state = .holdover) ∧ u.time.role = s.pm.role ∧ u.time.source = s.pm.source ∧
  ∀ c x, s.ctx c = some x → x.running = true → x.span ≠ 1 →
    c.toNat ∈ u.journal.replaying ∧
    ∃ y, u.ctx c = some y ∧ y.running = false ∧ y.restoreDue = true ∧ y.saved.map Prod.fst = x.teams

/-- The ports that are DARK and that the part has become DOWN where a cartridge gives light (R374, R377). -/
def lightPut (s u : State) : Prop :=
  ∀ p < 32, u.port p = { s.port p with
    state := if (s.port p).state = .dark ∧ (s.fabric.cart0 = true ∨ s.fabric.cart1 = true) ∧
        ¬ (s.part9620 = true ∧ 16 ≤ p) then .down else (s.port p).state }

/-- The postmark unit as a start-up finds it: ROLE and SOURCE are those of the postmaster partition (R461). -/
def loadedTime (s : State) : TimeUnit :=
  { s.time with
    role := s.pm.role, source := s.pm.source
    refPresent := s.time.refPresent && s.time.source == 1 && s.pm.source == 1
    acting := s.time.acting && s.pm.role == 2 }

/-- Whether the unit that a repair names is out of service already (R37). -/
def unitOut (s : State) : Retired → Bool
  | .core t _ => s.faults.clusterOut.contains t
  | .cluster t => s.faults.clusterOut.contains t
  | .lane p _ => s.faults.portOut.contains p
  | .channel k => s.faults.stackOut.contains k
  | .stack k => s.faults.stackOut.contains k

/-- THERMAL and TJ_MAX follow the junctions (R463, R506): the dies whose TJ is above TJ_LIMIT, the hub as die 4, and the
highest TJ of the four compute dies. -/
def measured (s u : State) : Prop :=
  (∀ d, d ∈ u.power.hot ↔ d < 5 ∧ s.pm.tjLimit < u.junction d) ∧
  u.power.tjMax = (List.range 4).foldl (fun m d => max m (u.die d).tj) 0

end Sys2Proof.Stated
end

