-- ==== Sys2Proof/Certificates/Slice0/Obligations.lean ====
section
/-! DEFINITION. What the provers are asked to prove of the module (OBLIGATIONS.json lists each with the rules it rests
on). The words that several statements share stand in Sys2Proof/Safety.lean. -/

open Sys2Proof Sys2Proof.Machine Sys2Proof.Stated

/-! ### The block -/

/-- A step takes the command at the front of the queue and runs it on the queue's rest. -/
def Obligations.StepRunsTheFrontCommand : Prop :=
  ∀ (c : Instr) (rest : List Instr) (s : State),
    step { s with pending := c :: rest } = exec c { s with pending := rest }

/-- On an empty queue one nanosecond passes (the model's choice, notes/assumptions/3.md): the postmark counts, usage is
charged to the functions, the interrupt controller evaluates; nothing else changes, and nothing at all without supply. -/
def Obligations.EmptyQueueIsOneNanosecond : Prop :=
  ∀ s : State, s.pending = [] →
    step s = .next s.tick ∧
    (s.power.boot = .noSupply → s.tick = s) ∧
    (s.power.boot ≠ .noSupply →
      s.tick = { s with
        postmark := s.postmark + 1, fns := s.tick.fns, irq := s.tick.irq, meter := s.timed
        fabric := { s.fabric with out := s.tick.fabric.out }
        faults := { s.faults with stackCorrected := s.tick.faults.stackCorrected } } ∧
      min 0xFFFF s.faults.stackCorrected ≤ s.tick.faults.stackCorrected ∧
      (s.powered = false → s.tick.faults = s.faults))

/-- Every command leaves the queue's rest, the grade and METAL alone, so IDREV reads the same for the life of the
module (R502). -/
def Obligations.CommandsKeepQueueAndPart : Prop :=
  ∀ (c : Instr) (s t : State), exec c s = .next t →
    t.pending = s.pending ∧ t.part9620 = s.part9620 ∧ t.metal = s.metal ∧
    ∀ who, t.readReg who 0 = s.readReg who 0

/-- The model's memories are in their one form right after reset (notes/assumptions/6.md). -/
def Obligations.ResetMemoriesSound : Prop := State.reset.MemOk

/-- Every step keeps every memory in its one form: STACK, host memory, the CORE and CLUSTER memories of every team, and
those kept for a launch, a saved context or a snapshot (notes/assumptions/6.md). -/
def Obligations.StepsKeepMemoriesSound : Prop :=
  ∀ s t : State, s.MemOk → step s = .next t → t.MemOk

/-- Reset leaves the values that the Reset columns of the register maps give. -/
def Obligations.ResetRegisterValues : Prop :=
  (∀ x ∈ resetTable, State.reset.readReg 0 x.1 = some (BitVec.ofNat 64 x.2)) ∧
  (∀ f < 64, ∀ x ∈ letterboxTable, State.reset.readReg f (0x1000 * (f + 1) + x.1) = some (BitVec.ofNat 64 x.2)) ∧
  (∀ f < 64, ∀ g < 32,
    State.reset.readReg f (0x100000 + 16 * g) = some 0 ∧
    State.reset.readReg f (0x100008 + 16 * g) = some 0xFFFFFFFF) ∧
  State.reset.pending = [] ∧ State.reset.time.state = .unposted

/-- Decoding the 128 bits of an instruction word gives the word back, whatever its fields hold within their widths and
whatever registers its operands name, so no bit of the encoding is dropped. -/
def Obligations.LumfyWordRoundTrip : Prop :=
  ∀ w : LumfyWord, w.code < 1024 → w.args.ty < 64 → w.args.pred < 16 →
    operandInRange w.args.d = true → operandInRange w.args.a = true → operandInRange w.args.b = true →
    encodeWord w < 2 ^ 124 ∧ (rawWord (encodeWord w)).top = 0 ∧ (rawWord (encodeWord w)).decode = w

/-! ### Packets -/

/-- A packet that passes every check of R86 while its ring is served, and for whose record the journal ring has room
(R97), is journalled as accepted, raises H to its SEQ, is answered ACCEPTED and leaves the ring. Apart from that the command list of its context, its function, host memory
(where replies lie) and the interrupt pulses stay; of the postmaster partition only the key's counter changes, with a
signed request (R460), and of the teams only the hold of SELFTEST's (R499). -/
def Obligations.AcceptedPacketIsJournalled : Prop :=
  ∀ (i : Instr) (s : State) (n : Nat) (p : Packet) (c : Checks) (r : CmdRow),
    intakeOf s i = some (n, p, c) → cmdRow n = some r → s.intakeOpen p.fn = true → s.ringTakes p = true →
    s.verdict r p c = .accepted →
    ∃ t, exec i s = .next t ∧
      (∃ x, (t.cmdsOf p.context).cmds = (s.cmdsOf p.context).cmds ++ [x] ∧ x.seq = p.seq ∧ x.opcode.toNat = n ∧
        x.pkt = p ∧ x.phase = .accepted ∧ x.acceptedAt = s.postmark) ∧
      (t.cmdsOf p.context).h = p.seq ∧ (t.cmdsOf p.context).ledger = (s.cmdsOf p.context).ledger ∧
      (∀ d, d ≠ p.context → t.cmdsOf d = s.cmdsOf d) ∧
      replies (t.fn p.fn) = replies (s.fn p.fn) ++
        [⟨p.seq, 0x0001, 1, false, p.context, s.postmark, 0, 0, false⟩] ∧
      (t.fn p.fn).sqHead = ((s.fn p.fn).sqHead + 1) % 2 ^ (s.fn p.fn).sqLog ∧
      (t.fn p.fn).accepted = (s.fn p.fn).accepted + 1 ∧
      (∀ g, g ≠ p.fn → t.fn g = s.fn g) ∧
      t = { s with
        cmds := t.cmds, fns := t.fns, hostMem := t.hostMem, irq := { s.irq with pulses := t.irq.pulses }
        pm := if n = 0x0090 then { s.pm with ctrs := s.pm.ctrs.set (qSlot p.block) (BitVec.ofNat 64 (qCounter p.block)) }
          else s.pm
        teams := if n = 0x0080 then t.teams else s.teams } ∧
      (n = 0x0080 → s.cmd p.context p.seq = none →
        ∀ k, (t.team k) = if bitOf (Packet.field p 0 4) k ∧ k < 24 then { s.team k with testing := true } else s.team k)

/-- A packet that fails a check never enters the journal: the one reply that decides it, DUPLICATE or REJECTED with the
status of the check, is all it leaves, beside REQ_REFUSED for a request that fails R460. -/
def Obligations.FailedPacketOnlyAnswers : Prop :=
  ∀ (i : Instr) (s : State) (n : Nat) (p : Packet) (c : Checks) (r : CmdRow),
    intakeOf s i = some (n, p, c) → cmdRow n = some r → s.intakeOpen p.fn = true → s.ringTakes p = true →
    s.verdict r p c ≠ .accepted →
    ∃ t y, exec i s = .next t ∧
      t = { s with
        fns := t.fns, hostMem := t.hostMem, irq := { s.irq with pulses := t.irq.pulses }
        pm := if n = 0x0090 then { s.pm with reqRefused := t.pm.reqRefused } else s.pm } ∧
      replies (t.fn p.fn) = replies (s.fn p.fn) ++ [y] ∧ y.seq = p.seq ∧ y.ctx = p.context ∧ y.irq = false ∧
      (match s.verdict r p c with
       | .accepted => False
       | .duplicate st kind => y.kind = 4 ∧ y.status = 2 ∧ y.countA = BitVec.ofNat 32 (st + kind * 65536)
       | .rejected st a => y.kind = 3 ∧ y.status = BitVec.ofNat 16 st ∧ y.countA = BitVec.ofNat 32 a) ∧
      (∀ g, g ≠ p.fn → t.fn g = s.fn g) ∧
      (t.fn p.fn).sqHead = ((s.fn p.fn).sqHead + 1) % 2 ^ (s.fn p.fn).sqLog ∧
      (t.fn p.fn).accepted = (s.fn p.fn).accepted

/-- The first check of R86 that fails decides the packet, and one that passes all of them is accepted. -/
def Obligations.FirstFailedCheckDecides : Prop :=
  ∀ (s : State) (r : CmdRow) (p : Packet) (c : Checks),
    s.verdict r p c = ((packetSteps s r p c).findSome? id).getD .accepted

/-- H and the classification of a SEQ (R80). H starts at 0 and takes the SEQ of each packet accepted, and of no other. A
SEQ of 0 is refused, one above H is new, one at or below H is a duplicate where the journal or the ledger holds it or where
it lies below the ledger's floor, and else is refused. The check looks at nothing of the packet but its SEQ. -/
def Obligations.SequenceClasses : Prop :=
  (∀ c, (State.reset.cmdsOf c).h = 0) ∧
  (∀ (f : Nat) (s : State), s.reaches f = true →
    ∃ t, exec (.functionLevelReset f) s = .next t ∧ (t.cmdsOf (BitVec.ofNat 32 (f * 2 ^ 26))).h = 0) ∧
  (∀ (c : W32) (q : W64) (s : State) (y : Cmd), s.cmd c q = some y → s.mayStart c y = true → y.opcode = 0x0040 →
    ∀ new : W32, new.toNat = Packet.field y.pkt 0 4 → new ≠ c → s.ctx new = none →
      ∃ t, exec (.commandStart c q) s = .next t ∧ ((t.ctx new).isSome = true → (t.cmdsOf new).h = 0)) ∧
  (∀ (i : Instr) (s : State) (n : Nat) (p : Packet) (c : Checks) (r : CmdRow),
    intakeOf s i = some (n, p, c) → cmdRow n = some r → s.intakeOpen p.fn = true → s.ringTakes p = true →
    ∃ t, exec i s = .next t ∧ (s.verdict r p c = .accepted → (t.cmdsOf p.context).h = p.seq) ∧
      (s.verdict r p c ≠ .accepted → t.cmds = s.cmds)) ∧
  (∀ (s : State) (r : CmdRow) (p : Packet) (c : Checks),
    (packetSteps s r p c)[3]? = some ((s.cmdsOf p.context).classify p.seq)) ∧
  (∀ (k : CmdState) (q : W64),
    (q = 0 → k.classify q = some (.rejected 0x0102 0x08)) ∧
    (q ≠ 0 → k.h.toNat < q.toNat → k.classify q = none) ∧
    (q ≠ 0 → q.toNat ≤ k.h.toNat →
      (∀ x ∈ k.cmds, x.seq = q → x.done = false → k.classify q = some (.duplicate 0x0001 1)) ∧
      ((∀ x ∈ k.cmds, x.seq = q → x.done = true) →
        (∀ st, (q, st) ∈ k.ledger → ∃ st', (q, st') ∈ k.ledger ∧ k.classify q = some (.duplicate st'.toNat 2)) ∧
        ((∀ st, (q, st) ∉ k.ledger) →
          k.classify q = if q.toNat < k.floor then some (.duplicate 0xFFFF 0) else some (.rejected 0x0102 0x08)))) ∧
    (k.ledger.length < 4096 → k.floor = 1) ∧
    (∀ x rest, 4096 ≤ k.ledger.length → k.ledger = x :: rest → k.floor = x.1.toNat))

/-- A packet whose OPCODE is not in the opcode table is answered REJECTED with BAD_OPCODE and leaves the ring; nothing
else of the module changes. -/
def Obligations.UnlistedOpcodeRejected : Prop :=
  ∀ (op : W16) (p : Packet) (s : State), op.toNat ∉ listedOpcodes → s.intakeOpen p.fn = true →
    ∃ t, exec (.unlistedOpcodePacket op p) s = .next t ∧
      replies (t.fn p.fn) = replies (s.fn p.fn) ++
        [⟨p.seq, 0x0101, 3, false, p.context, s.postmark, 0, 0, false⟩] ∧
      (t.fn p.fn).sqHead = ((s.fn p.fn).sqHead + 1) % 2 ^ (s.fn p.fn).sqLog ∧
      (∀ g, g ≠ p.fn → t.fn g = s.fn g) ∧
      t = { s with fns := t.fns, hostMem := t.hostMem, irq := { s.irq with pulses := t.irq.pulses } }

/-- A signed request over I3C with a sound layout, on a module that has not fenced itself: where every check of R460 passes, PM_KEY_CTR takes COUNTER, the
operation is performed at once and its result code answered; where one fails, REQ_REFUSED counts and nothing else of the
module changes. (The answer's first byte, 0 or 2, is the model's: notes/assumptions/23.md.) -/
def Obligations.SignedRequestsOverI3c : Prop :=
  ∀ (i : Instr) (s : State) (b : List Byte) (v : Bool),
    i3cRequest i = some (b, v) → s.postmasterUp = true → s.faults.selfFenced = false → 128 ≤ b.length → b.length % 16 = 0 → requestFault b = none →
    (requestPasses s b v →
      exec i s = .next (((s.takeCounter b).runRequest b).1.answer i3c 0 (leBytes 1 ((s.takeCounter b).runRequest b).2))) ∧
    (¬ requestPasses s b v →
      ∃ y, exec i s = .next { s with
        free := s.free + 1, pm := { s.pm with reqRefused := min 0xFFFF (s.pm.reqRefused + 1) }
        resp := some ⟨64, 2, [y]⟩ })

/-- What the operations of a request do (R442, R444, R448, R461): result code 0 applied, 1 unknown OP or wrong BODY_LEN,
2 value out of range, 3 conflicts with existing state, 4 where the flash could not be written; only code 0 changes state,
and REQ_OK then counts. Whether the flash can be written, whether a staged firmware image passes its checks, and its
version, are free (notes/assumptions/7.md, notes/assumptions/36.md). -/
def Obligations.RequestOperations : Prop :=
  ∀ (s : State) (b : List Byte),
    let ok (m : Postmaster) : Postmaster := { m with reqOk := min 0xFFFF (m.reqOk + 1) }
    let flash (r : State × Nat) : State × Nat := if s.flashFails then (s.bumpFree, 4) else r
    ((s.runRequest b).2 ≠ 0 → (s.runRequest b).1 = { s with free := (s.runRequest b).1.free }) ∧
    (opLength (qOp b) ≠ some (qLen b) → s.runRequest b = (s, 1)) ∧
    (isOp b 1 = true → s.runRequest b =
      if 2 < qBody b 0 1 then (s, 2)
      else if s.ctxs ≠ [] then (s, 3)
      else flash ({ s with pm := { ok s.pm with layout := qBody b 0 1 } }, 0)) ∧
    (isOp b 2 = true →
      let f := qBody b 0 1
      let k : Fn := { s.fn f with isoA := BitVec.ofNat 64 (qBody b 8 8), isoB := BitVec.ofNat 64 (qBody b 16 8) }
      let bad := f = 0 ∨ 63 < f ∨ qBody b 1 7 ≠ 0 ∨ isoInRange (qBody b 8 8) (qBody b 16 8) = false
      let meets := ∃ g, 1 ≤ g ∧ g ≤ 63 ∧ g ≠ f ∧ 0 < k.winSize ∧ 0 < (s.fn g).winSize ∧
        k.winBase < (s.fn g).winBase + (s.fn g).winSize ∧ (s.fn g).winBase < k.winBase + k.winSize
      (bad → s.runRequest b = (s, 2)) ∧
      (¬ bad → meets ∨ s.isoFits f k = false → s.runRequest b = (s, 3)) ∧
      (¬ bad → ¬ meets → s.isoFits f k = true →
        s.runRequest b = flash ({ s.modFn f fun _ => k with pm := ok s.pm }, 0))) ∧
    (isOp b 3 = true →
      let d := qBody b 0 1
      let n := qBody b 1 1
      let old := s.pool.getD d 8
      let top := (3 * d + 1) * stackSize + 0x13F0000000
      let taken : Bool := s.ctxs.any fun x => rangesMeet (top - n * 0x10000000, (n - old) * 0x10000000)
        (x.2.regionBase.toNat, x.2.regionSize.toNat)
      s.runRequest b =
        if 4 ≤ d ∨ n = 0 ∨ 32 < n then (s, 2)
        else if s.areasUsed d ≠ 0 ∨ (old < n ∧ taken = true) then (s, 3)
        else flash ({ s with pool := s.pool.set d n, pm := ok s.pm }, 0)) ∧
    (isOp b 4 = true → 60 ≤ qBody b 0 1 → qBody b 0 1 ≤ 105 → qBody b 1 1 = 0 → 216 ≤ qBody b 2 2 →
      qBody b 4 2 ≤ 264 → qBody b 2 2 < qBody b 4 2 →
      (s.flashFails = true → s.runRequest b = (s.bumpFree, 4)) ∧ (s.flashFails = false →
      (s.runRequest b).2 = 0 ∧
      (s.runRequest b).1 = { s with
        pm := { ok s.pm with tjLimit := qBody b 0 1, vinMin := qBody b 2 2, vinMax := qBody b 4 2 }
        power := (s.runRequest b).1.power } ∧
      (s.runRequest b).1.power = { s.power with
        hot := (List.range 5).filter fun d => decide (qBody b 0 1 < s.junction d)
        supplyBad := decide (s.power.vin < 10 * qBody b 2 2) || decide (10 * qBody b 4 2 < s.power.vin) })) ∧
    (isOp b 5 = true → qBody b 0 1 ≤ 2 → qBody b 1 1 ≤ 1 → qBody b 2 6 = 0 →
      s.runRequest b = flash ({ s with pm := { ok s.pm with
        role := qBody b 0 1, source := qBody b 1 1
        epochNext := if qBody b 1 1 = 0 then some (BitVec.ofNat 64 (qBody b 8 8)) else s.pm.epochNext
        secondNext := if qBody b 1 1 = 1 then some (BitVec.ofNat 64 (qBody b 8 8)) else s.pm.secondNext } }, 0)) ∧
    (isOp b 6 = true → 1 ≤ qBody b 0 1 → qBody b 0 1 ≤ 3 → qBody b 1 1 ≤ 63 → qBody b 1 1 % 2 = 1 → qBody b 2 6 = 0 →
      s.runRequest b = flash ({ s with pm := { ok s.pm with
        rights := s.pm.rights.set (qBody b 0 1) (BitVec.ofNat 8 (qBody b 1 1)), ctrs := s.pm.ctrs.set (qBody b 0 1) 0
        keys := s.pm.keys.set (qBody b 0 1) (bytesAt b 0x48 32) } }, 0)) ∧
    (isOp b 7 = true → 1 ≤ qBody b 0 1 → qBody b 0 1 ≤ 3 →
      s.runRequest b = flash ({ s with pm := { ok s.pm with
        rights := s.pm.rights.set (qBody b 0 1) (s.pm.rights.getD (qBody b 0 1) 0 &&& 0xFE) } }, 0)) ∧
    (isOp b 8 = true →
      let bad := qBody b 8 4 % 64 ≠ 0 ∨ 2 ^ 24 < qBody b 8 4 ∨ 12 * stackSize < qBody b 0 8 + qBody b 8 4
      (bad → s.runRequest b = (s, 2)) ∧
      (¬ bad → s.power.fwVersion < 0xFFFF →
        (s.runRequest b).2 = 3 ∨ (s.runRequest b).2 = 4 ∨
        ∃ v, s.power.fwVersion < v ∧ v ≤ 0xFFFF ∧
          s.runRequest b = ({ s with
            free := s.free + 1, pm := ok s.pm
            power := { s.power with
              staged := true
              bankA := if s.power.bank = 0 then s.power.bankA else ⟨v, true⟩
              bankB := if s.power.bank = 0 then ⟨v, true⟩ else s.power.bankB } }, 0)))

/-! ### Commands -/

/-- A command starts only after the earlier commands of its context: with SERIAL, or where R93 says it acts so, after
they have completed, else after they have started. Until then COMMAND_START changes nothing. -/
def Obligations.CommandsStartInOrder : Prop :=
  ∀ (c : W32) (q : W64) (s : State) (y : Cmd), s.cmd c q = some y →
    (∃ z ∈ (s.cmdsOf c).cmds, z.seq.toNat < q.toNat ∧
      (z.phase = .accepted ∨
        ((y.pkt.flags.getLsbD 0 = true ∨ y.opcode = 0x0043 ∨ y.opcode = 0x0044 ∨ y.opcode = 0x0050 ∨ y.opcode = 0x0051) ∧
          z.done = false))) →
    exec (.commandStart c q) s = .next s

/-- What starting a command does, by its opcode: NOP finishes with no effect; LOAD_PROGRAM, RESTORE and SELFTEST go on
in events of their own; SCHEDULE_LOAD makes its schedule the pending one; FRANK_READ writes 64 bytes to host memory and
finishes; a request finishes with its result code in COUNT_A. -/
def Obligations.CommandStartEffects : Prop :=
  ∀ (c : W32) (q : W64) (s : State) (y : Cmd), s.cmd c q = some y → s.mayStart c y = true →
    let s1 := startedState s c q y
    (y.opcode = 0x0001 → exec (.commandStart c q) s = .next (s1.finishCmd c q 0 0 0)) ∧
    (y.opcode = 0x0010 ∨ y.opcode = 0x0051 ∨ y.opcode = 0x0080 → exec (.commandStart c q) s = .next s1) ∧
    (∀ k, y.opcode = 0x0060 → y.schedule = some k →
      exec (.commandStart c q) s = .next { s1 with time := { s1.time with pending := some (k, ⟨c, q⟩) } }) ∧
    (y.opcode = 0x0070 →
      ∃ t, exec (.commandStart c q) s = .next t ∧
        memRead t.hostMem (Packet.field y.pkt 8 8) 64 =
          (s1.frankRecord (Packet.field y.pkt 0 4) (Packet.field y.pkt 4 1)).bytes (Packet.field y.pkt 0 4) ∧
        (∀ a, a < Packet.field y.pkt 8 8 ∨ Packet.field y.pkt 8 8 + 64 ≤ a → memGet t.hostMem a = memGet s.hostMem a) ∧
        t = { s1.finishCmd c q 0
          ((s1.frankRecord (Packet.field y.pkt 0 4) (Packet.field y.pkt 4 1)).index % 2 ^ 32) 0 with
          hostMem := t.hostMem }) ∧
    (y.opcode = 0x0090 →
      exec (.commandStart c q) s =
        .next ((s1.runRequest y.pkt.block).1.finishCmd c q 0 (s1.runRequest y.pkt.block).2 0))

/-- What CONTEXT_CREATE does as it starts (R446, R447): with room for the context and its save areas, the context exists
with the geometry of the packet, RUNNING where every team it names is free and PREEMPTED otherwise; without, the command
finishes with BAD_PARAM and no context appears. -/
def Obligations.ContextCreateMakesContext : Prop :=
  ∀ (c : W32) (q : W64) (s : State) (y : Cmd), s.cmd c q = some y → s.mayStart c y = true → y.opcode = 0x0040 →
    let s1 := startedState s c q y
    let new : W32 := BitVec.ofNat 32 (Packet.field y.pkt 0 4)
    let ts := bitsSet 24 (Packet.field y.pkt 8 4)
    ∃ t, exec (.commandStart c q) s = .next t ∧
      (((s.fn (fnOf c)).maxContexts ≤ s.contextsOf (fnOf c) ∨ 960 ≤ s.ctxs.length ∨ (s.ctx new).isSome = true ∨
          s.areasFit ts = false) → t = s1.finishCmd c q 0x0102 0 0) ∧
      ((s.fn (fnOf c)).maxContexts > s.contextsOf (fnOf c) → s.ctxs.length < 960 → s.ctx new = none →
        s.areasFit ts = true →
        ∃ x, t.ctx new = some x ∧ x.partition = Packet.field y.pkt 4 1 ∧ x.span = Packet.field y.pkt 5 1 ∧
          x.modules = Packet.field y.pkt 6 2 ∧ x.teamMask = Packet.field y.pkt 8 4 ∧
          x.regionBase = BitVec.ofNat 64 (Packet.field y.pkt 0x10 8) ∧
          x.regionSize = BitVec.ofNat 64 (Packet.field y.pkt 0x18 8) ∧
          x.running = ts.all s.teamFree ∧ x.faulted = false ∧ x.launches = [] ∧ x.tables = [] ∧ x.graphs = [] ∧
          (x.running = true → ∀ k ∈ ts, t.team k = { Team.reset with testing := (s.team k).testing }) ∧
          (∀ d : W32, d ≠ new → t.ctx d = s.ctx d) ∧ (∀ f, t.fn f = s.fn f) ∧ t.stack = s.stack ∧
          (new ≠ c → t.cmdsOf new = { }))

/-- Completion (R81, R93, R94): a finished command's status enters the ledger, which keeps the 4,096 highest SEQ values.
Where an earlier command of its context has not completed, its reply is held; where it is the oldest, its COMPLETE reply
is written, and with it those of the commands behind it that had completed. -/
def Obligations.CommandsCompleteInOrder : Prop :=
  ∀ (c : W32) (q : W64) (s : State) (pre post : List Cmd) (y : Cmd) (st : W16) (a b : W32),
    (s.cmdsOf c).cmds = pre ++ y :: post → y.seq = q → y.phase = .finished st a b →
    (∀ z ∈ pre ++ post, z.seq ≠ q) → (∀ z ∈ pre, z.done = false) →
    ∃ t, exec (.commandComplete c q) s = .next t ∧
      (t.cmdsOf c).ledger = ledgerWith (s.cmdsOf c).ledger q st ∧ (t.cmdsOf c).h = (s.cmdsOf c).h ∧
      (∀ d, d ≠ c → t.cmdsOf d = s.cmdsOf d) ∧ t.ctxs = s.ctxs ∧ t.teams = s.teams ∧ t.stack = s.stack ∧
      (pre ≠ [] →
        replies (t.fn (fnOf c)) = replies (s.fn (fnOf c)) ∧
        (t.cmdsOf c).cmds = pre ++ { y with phase := .recorded st a b s.postmark } :: post) ∧
      (pre = [] →
        (t.cmdsOf c).cmds = post.dropWhile Cmd.done ∧
        replies (t.fn (fnOf c)) = replies (s.fn (fnOf c)) ++
          completeReply c y st a b s.postmark ::
            (post.takeWhile Cmd.done).filterMap fun z =>
              match z.phase with
              | .recorded st' a' b' at_ => some (completeReply c z st' a' b' at_)
              | _ => none)

/-- A translation that ends (R91, R129, R133): the image stands in the bank of every team that the LOAD_PROGRAM names, or
the refusal's offset and reason stand in the command's counts and every bank keeps what it held; a LAUNCH cannot run a
bank whose load was refused (R135). -/
def Obligations.TranslationFillsBanks : Prop :=
  ∀ (c : W32) (q : W64) (s : State) (x : Ctx) (y : Cmd), s.ctx c = some x → s.cmd c q = some y →
    y.opcode = 0x0010 → y.phase = .started → x.running = true →
    let bytes := memRead s.busView (Packet.field y.pkt 0 8) (Packet.field y.pkt 8 4)
    let bank := Packet.field y.pkt 0x0C 1
    let ts := bitsSet 24 (Packet.field y.pkt 0x10 4)
    ∃ t, exec (.translationComplete c q) s = .next t ∧
      (∀ i, translate bytes (Packet.field y.pkt 8 4) c x.regionBase = .ok i →
        (∀ k ∈ ts, (t.team k).bank bank = .full i ∧ bank ∉ (t.team k).refused) ∧
        (∃ z, t.cmd c q = some z ∧ z.phase = .finished 0 (BitVec.ofNat 32 (Packet.field y.pkt 8 4)) 0)) ∧
      (∀ r, translate bytes (Packet.field y.pkt 8 4) c x.regionBase = .error r →
        (∀ k, (t.team k).bank0 = (s.team k).bank0 ∧ (t.team k).bank1 = (s.team k).bank1) ∧
        (∀ k ∈ ts, bank ∈ (t.team k).refused) ∧
        (∃ z, t.cmd c q = some z ∧ z.phase = .finished 0x0102 (BitVec.ofNat 32 (min 0xFFFFFFFF r.2))
          (BitVec.ofNat 32 (min 0xFFFFFFFF r.1))))

/-- The kernel of a team ends once its stream has ended, or a fault has stopped it, and every unit of every core has
completed (R123); until then KERNEL_END changes nothing. -/
def Obligations.KernelEndsWhenDrained : Prop :=
  ∀ (team : Nat) (s : State) (k : Kernel), (s.team team).kernel = some k →
    ((k.ended = false ∧ k.stopped = false) ∨ (∃ c ∈ (s.team team).cores, c.2.awaited ≠ [] ∨ c.2.tileQueue ≠ []) →
      exec (.kernelEnd team) s = .next s) ∧
    (k.ended = true ∨ k.stopped = true → (∀ c ∈ (s.team team).cores, c.2.awaited = [] ∧ c.2.tileQueue = []) →
      s.waitingLaunches k.ctx = [] →
      ∃ t, exec (.kernelEnd team) s = .next t ∧ (t.team team).kernel = none ∧
        ((∀ y ∈ s.teams, ∀ u ∈ y.2.upd.queue, u.ctx = k.ctx → u.seq ≠ k.seq) →
          ∀ u, u ≠ team → (t.team u).kernel = (s.team u).kernel) ∧
        (∀ x, t.ctx k.ctx = some x → ∀ l ∈ x.launches, l.seq = k.seq → team ∉ l.teamsLeft) ∧
        t.stack = s.stack)

/-! ### Registers -/

/-- The submission ring's registers (R77, R78): ENABLE starts intake at index 0 where LOG2_SIZE is 6 to 16, and sets
SQ_ERROR otherwise; a doorbell moves T forward, or sets SQ_ERROR and clears ENABLE. In SLEEP a doorbell starts the wake
as well (R490). -/
def Obligations.SubmissionRingRegisters : Prop :=
  ∀ (f : Nat) (v : W64) (s : State), s.reaches f = true →
    let k := s.fn f
    let n := v.toNat % 32
    let failed (s : State) (log : Nat) : State :=
      (s.modFn f fun k => { k with sqLog := log, sqOn := false, sqError := true }).pulse (64 + f)
    exec (.sqCfgEnable f v) s = .next (
      if k.sqOn then if v.getLsbD 8 then s else s.modFn f fun k => { k with sqOn := false }
      else if v.getLsbD 8 then
        if 6 ≤ n ∧ n ≤ 16 then
          s.modFn f fun k =>
            { k with sqLog := n, sqOn := true, sqHead := 0, sqTail := 0, inHand := none, journalLost := false }
        else failed s n
      else s.modFn f fun k => { k with sqLog := n }) ∧
    (let w := v.toNat % 2 ^ 16
     let size := 2 ^ k.sqLog
     let s0 : State := if s.power.state = .sleep then
       { s with power := { s.power with waking := true, sleepReq := false } } else s
     exec (.sqDoorbell f v) s = .next (
       if !k.sqOn then s0
       else if w < size ∧ (k.sqTail + size - k.sqHead) % size ≤ (w + size - k.sqHead) % size then
         s0.modFn f fun k => { k with sqTail := w }
       else failed s0 k.sqLog))

/-- The reply ring's registers (R76, R77, R78): ENABLE sets RQ_TAIL and RQ_CONSUMED to 0 and PHASE to 1 and writes the
replies that are held; RQ_CONSUMED frees entries, for which held replies are written, and a value that passes a reply
not yet written sets RQ_ERROR and leaves RQ_CONSUMED. -/
def Obligations.ReplyRingRegisters : Prop :=
  ∀ (f : Nat) (v : W64) (s : State), s.reaches f = true →
    let k := s.fn f
    let n := v.toNat % 32
    (k.rqOn = true → exec (.rqCfgEnable f v) s =
      .next (if v.getLsbD 8 then s else s.modFn f fun k => { k with rqOn := false })) ∧
    (k.rqOn = false → v.getLsbD 8 = false → exec (.rqCfgEnable f v) s =
      .next (s.modFn f fun k => { k with rqLog := n })) ∧
    (k.rqOn = false → v.getLsbD 8 = true → ¬ (6 ≤ n ∧ n ≤ 16) → exec (.rqCfgEnable f v) s =
      .next ((s.modFn f fun k => { k with rqLog := n, rqError := true }).pulse (64 + f))) ∧
    (k.rqOn = false → v.getLsbD 8 = true → 6 ≤ n → n ≤ 16 →
      ∃ t w, exec (.rqCfgEnable f v) s = .next t ∧ w = min k.held.length (2 ^ n - 1) ∧
        (t.fn f).rqOn = true ∧ (t.fn f).rqLog = n ∧ (t.fn f).rqConsumed = 0 ∧ (t.fn f).rqTail = w ∧
        (t.fn f).phase = true ∧ (t.fn f).written = k.held.take w ∧ (t.fn f).held = k.held.drop w ∧
        (∀ i, i < w → ∃ r, k.held[i]? = some r ∧
          memRead t.hostMem (k.rqBase * 4096 + 32 * i) 32 = r.bytes true) ∧
        (∀ g, g ≠ f → t.fn g = s.fn g) ∧
        t = { s with fns := t.fns, hostMem := t.hostMem, irq := { s.irq with pulses := t.irq.pulses } }) ∧
    (let w := v.toNat % 2 ^ 16
     let size := 2 ^ k.rqLog
     (k.rqOn = false → exec (.rqConsumed f v) s = .next s) ∧
     (k.rqOn = true → ¬ (w < size ∧ (w + size - k.rqConsumed) % size ≤ (k.rqTail + size - k.rqConsumed) % size) →
       exec (.rqConsumed f v) s = .next ((s.modFn f fun k => { k with rqError := true }).pulse (64 + f))) ∧
     (k.rqOn = true → w < size → (w + size - k.rqConsumed) % size ≤ (k.rqTail + size - k.rqConsumed) % size →
       ∃ t, exec (.rqConsumed f v) s = .next t ∧ (t.fn f).rqConsumed = w ∧
         replies (t.fn f) = k.written.drop ((w + size - k.rqConsumed) % size) ++ k.held ∧
         ((t.fn f).held = [] ∨ (t.fn f).replyFree = 0) ∧
         (∀ g, g ≠ f → t.fn g = s.fn g) ∧
         t = { s with fns := t.fns, hostMem := t.hostMem, irq := { s.irq with pulses := t.irq.pulses } }))

/-- The interrupt bank (R468 to R471): a write to PEND g stores W, and where MASK excludes a bit W or L, in every bit
whose source can reach the function, and clears L; a write to MASK g stores MASK. Either sends one message where it
makes S 1, and a REARM of 1 sends one where S is 1. -/
def Obligations.InterruptBankWrites : Prop :=
  ∀ (f g : Nat) (v : W32) (w : W64) (s : State), s.reaches f = true → g < 32 →
    let b := (s.fn f).bank
    (∃ t, exec (.pendWrite f g v) s = .next t ∧
      (∀ i, i < 32 → ((t.fn f).bank.pendOf g).getLsbD i =
        ((v.getLsbD i || ((b.latchedOf g).getLsbD i && (b.maskOf g).getLsbD i)) && routable f (32 * g + i))) ∧
      (t.fn f).bank.latchedOf g = 0 ∧ (t.fn f).bank.mask = b.mask ∧
      (∀ h, h ≠ g → (t.fn f).bank.pendOf h = b.pendOf h ∧ (t.fn f).bank.latchedOf h = b.latchedOf h) ∧
      (t.fn f).bank.s = (t.fn f).bank.summary ∧
      messageTo s t f (t.fn f).bank.summary ((t.fn f).bank.summary && !b.s)) ∧
    (∃ t, exec (.maskWrite f g v) s = .next t ∧
      (t.fn f).bank.maskOf g = v ∧ (∀ h, h ≠ g → (t.fn f).bank.maskOf h = b.maskOf h) ∧
      (t.fn f).bank.pend = b.pend ∧ (t.fn f).bank.latched = b.latched ∧
      (t.fn f).bank.s = (t.fn f).bank.summary ∧
      messageTo s t f (t.fn f).bank.summary ((t.fn f).bank.summary && !b.s)) ∧
    (∃ t, exec (.rearm f w) s = .next t ∧
      (w.getLsbD 0 = false → t = s) ∧
      (w.getLsbD 0 = true →
        (t.fn f).bank.rearms = b.rearms + 1 ∧ (t.fn f).bank.pend = b.pend ∧ (t.fn f).bank.mask = b.mask ∧
        messageTo s t f true b.summary))

/-- Reads (R14): a 64-bit read answers the register and neither uses nor changes the shadow; a read of bits [31:0]
answers them and copies bits [63:32] into the requester's shadow; the next read of bits [63:32] uses the shadow up, and
answers it where it names the same register, the live half otherwise. What they return is cleared. -/
def Obligations.RegisterReads : Prop :=
  ∀ (who off : Nat) (v : W64) (s : State), s.requesterUp who = true → off % 8 = 0 → s.readReg who off = some v →
    let lo : W32 := v.setWidth 32
    let hi : W32 := (v >>> 32).setWidth 32
    let held : W32 := match s.shadow who with
      | some (o, h) => if o = off then h else hi
      | none => hi
    let read64 : State := (clearedBy s who off lo hi true).answer who 0 (leBytes 8 v.toNat)
    let readLow : State := ((clearedBy s who off lo 0 true).setShadow who (some (off, hi))).answer who 0 (leBytes 4 lo.toNat)
    let s1 : State := clearedBy s who off 0 held false
    let readHigh : State := (if (s.shadow who).isSome then s1.setShadow who none else s1).answer who 0 (leBytes 4 held.toNat)
    exec (.lowHalfRead who off) s = .next readLow ∧
    exec (.highHalfRead who off) s = .next readHigh ∧
    (who = i3c → exec (.read64 off) s = .next read64 ∧ exec (.read32 off) s = .next readLow ∧
      exec (.read32 (off + 4)) s = .next readHigh) ∧
    (off = 0x1000 * (who + 1) + 0x040 → who ≠ i3c → exec (.lbStatusRead who) s = .next read64) ∧
    (∀ g, g < 32 → off = 0x112000 + 16 * g → exec (.srcStateRead who g) s = .next read64) ∧
    (who = 0 ∨ who = i3c → off = 0x300808 → exec (.pwrStatusRead who) s = .next read64)

/-- Writes of registers by the physical function or over I3C, whole 64-bit accesses: ROW_PLACE and PWR_CTRL store the
nearest value of each field's range, SRC_CFG its four fields, SC_SELECT latches the counters of the named context, POP
takes the oldest dead letter, a PW register ignores the write and counts it, a RO register ignores it. A write over I3C
answers status 0 and has the same effect. -/
def Obligations.RegisterWrites : Prop :=
  ∀ (who : Nat) (v : W64) (s : State), who = 0 ∨ who = i3c → s.requesterUp who = true →
    let near (lo hi x : Nat) : Nat := if x < lo then lo else if hi < x then hi else x
    let by64 (off : Nat) (t : State) : Prop :=
      exec (.registerWrite who off 8 v) s = .next t ∧ (who = i3c → exec (.write64 off v) s = .next (t.answer i3c 0 []))
    by64 0x300300 { s with regs := { s.regs with
      placeOn := v.getLsbD 0, promote := near 1 255 (bits v.toNat 8 8), maxMoves := near 1 255 (bits v.toNat 16 8)
      windowLog2 := near 10 24 (bits v.toNat 24 5) } } ∧
    (let c : SrcCfg :=
       ⟨v.getLsbD 0, v.getLsbD 1, BitVec.ofNat 8 (bits v.toNat 16 8), BitVec.ofNat 16 (bits v.toNat 24 16)⟩
     ∀ i, i < 210 → by64 (0x110000 + 8 * i) { s with irq := { s.irq with cfg := mapPut s.irq.cfg i c } }) ∧
    (let copy : ScCopy := match s.ctx (v.setWidth 32) with
       | some x => ⟨v.setWidth 32, true, x.counters⟩
       | none => ⟨v.setWidth 32, decide (v.toNat % 2 ^ 26 = 0), []⟩
     let t : State := if who = i3c then { s with regs := { s.regs with scI3c := copy } }
       else { s with regs := { s.regs with scPf := copy } }
     by64 0x300200 t ∧ exec (.scSelect who v) s = .next t) ∧
    (let t : State := if v.getLsbD 0 then { s with fabric := { s.fabric with
         stats := { s.fabric.stats with dlq := s.fabric.stats.dlq.drop 1 } } } else s
     by64 0x300608 t ∧ exec (.dlqPop who v) s = .next t) ∧
    (∀ off, off % 8 = 0 → off = 0x800008 ∨ off = 0x800010 ∨ off = 0x800018 ∨ (0x800100 ≤ off ∧ off < 0x800500) →
      by64 off { s with pm := { s.pm with ignored := min 0xFFFF (s.pm.ignored + 1) } }) ∧
    (∀ off, off % 8 = 0 → off < 8 ∨ (0x200000 ≤ off ∧ off < 0x200040) ∨ off = 0x300000 ∨ off = 0x300308 ∨
        (0x300400 ≤ off ∧ off < 0x300518) ∨ (0x300700 ≤ off ∧ off < 0x300728) → by64 off s) ∧
    (let ceil := near 0 28 (bits v.toNat 24 5)
     ∃ t, exec (.sleepRequest who v) s = .next t ∧
       t.power.sleepReq = v.getLsbD 0 ∧ t.power.autoDoze = v.getLsbD 1 ∧
       t.power.idleUs = near 1 0xFFFF (bits v.toNat 8 16) ∧ t.power.fCeil = ceil ∧
       t.power.waking = (s.power.waking || (!v.getLsbD 0 && s.power.state == .sleep)) ∧
       (∀ d, d < 4 → t.die d = { s.die d with mhz := min (s.die d).mhz (1200 + 25 * ceil) }) ∧
       t = { s with power := { s.power with
         sleepReq := t.power.sleepReq, autoDoze := t.power.autoDoze, idleUs := t.power.idleUs, fCeil := t.power.fCeil
         waking := t.power.waking, dies := t.power.dies } } ∧
       (v.getLsbD 32 = true → exec (.reset who v) s =
         .next (if bits v.toNat 40 8 = 0xD1 ∧ s.resettable = true then t.moduleReset 3 .starting else t)))

/-- Accesses that the module does not serve (R511, R513): a read returns zeros, a write is ignored, an AtomicOp is
completed as unsupported, and BAR0_DROPS counts each once, the parts of a longer access each; over I3C nothing is
counted, and READ64, READ32 and WRITE64 answer status 1. -/
def Obligations.UnservedAccesses : Prop :=
  ∀ (who off n : Nat) (v : W64) (s : State),
    let dropped : State := { s with regs := { s.regs with
      bar0Drops := s.regs.bar0Drops + 1, lastFn := who, lastBar := false, lastPage := off / 4096 } }
    (s.reaches who = true → who ≠ i3c →
      exec (.bar0InvalidAccess who off n .atomic) s = .next { dropped with resp := some ⟨who, 1, []⟩ } ∧
      (n ≤ 8 ∨ n % 8 ≠ 0 ∨ off % 8 ≠ 0 →
        ¬ ((n = 4 ∧ off % 4 = 0 ∨ n = 8 ∧ off % 8 = 0) ∧ (s.readReg who (off / 8 * 8)).isSome = true) →
        exec (.bar0InvalidAccess who off n .read) s =
          .next { dropped with resp := some ⟨who, 0, List.replicate n 0⟩ } ∧
        exec (.bar0InvalidAccess who off n .write) s = .next dropped ∧
        exec (.registerWrite who off n v) s = .next dropped) ∧
      (8 < n → n % 8 = 0 → off % 8 = 0 → (∀ i, i < n / 8 → s.readReg who (off + 8 * i) = none) →
        let all_ : State := { s with regs := { s.regs with
          bar0Drops := s.regs.bar0Drops + n / 8, lastFn := who, lastBar := false
          lastPage := (off + 8 * (n / 8 - 1)) / 4096 } }
        exec (.bar0InvalidAccess who off n .write) s = .next all_ ∧
        exec (.bar0InvalidAccess who off n .read) s =
          .next { all_ with resp := some ⟨who, 0, List.replicate n 0⟩ }) ∧
      (∀ a b, off % 8 = 0 → s.readReg who off = some a →
        (clearedBy s who off (a.setWidth 32) ((a >>> 32).setWidth 32) true).readReg who (off + 8) = some b →
        ∃ t, exec (.bar0InvalidAccess who off 16 .read) s = .next t ∧
          t.resp = some ⟨who, 0, leBytes 8 a.toNat ++ leBytes 8 b.toNat⟩ ∧ t.regs.bar0Drops = s.regs.bar0Drops) ∧
      (off % 8 = 0 → s.readReg who off = none →
        exec (.lowHalfRead who off) s = .next { dropped with resp := some ⟨who, 0, [0, 0, 0, 0]⟩ })) ∧
    (s.i3cUp = true → off % 8 ≠ 0 ∨ s.readReg i3c off = none →
      exec (.read64 off) s = .next { s with resp := some ⟨i3c, 1, [0, 0, 0, 0, 0, 0, 0, 0]⟩ } ∧
      exec (.write64 off v) s = .next { s with resp := some ⟨i3c, 1, []⟩ } ∧
      (off % 4 ≠ 0 ∨ s.readReg i3c (off / 8 * 8) = none →
        exec (.read32 off) s = .next { s with resp := some ⟨i3c, 1, [0, 0, 0, 0]⟩ }))

/-- BAR2 (R515, R516, R490): bytes of a request within the window and outside the journal and the save pools are served,
the others read as zero and drop what is written, and a request with one of them counts once in BAR2_DROPS; a write
maintains the zero tags of R328. In SLEEP, and after a thermal trip, while the stacks refresh themselves, a read returns all
ones and a write is dropped (for the trip the model's choice: notes/assumptions/57.md). -/
def Obligations.ApertureAccesses : Prop :=
  ∀ (f off n : Nat) (data : List Byte) (s : State), s.reaches f = true →
    let k := s.fn f
    let at_ (i : Nat) : Nat := k.winBase * 0x4000000 + (k.bar2Base * 0x4000000 + (off + i))
    let reached (i : Nat) : Prop :=
      off + i < 2 ^ 36 ∧ k.bar2Base * 0x4000000 + (off + i) < k.winSize * 0x4000000 ∧ s.reserved (at_ i) = false
    let counted : Regs := { s.regs with
      bar2Drops := s.regs.bar2Drops + 1, lastFn := f, lastBar := true, lastPage := off / 4096 }
    (s.power.state = .sleep ∨ s.power.clocksStopped = true →
      exec (.bar2Read f off n) s = .next { s with resp := some ⟨f, 0, List.replicate n 0xFF⟩ } ∧
      exec (.bar2Write f off data) s = .next s) ∧
    (s.power.state ≠ .sleep → s.power.clocksStopped = false →
      (∃ t r, exec (.bar2Read f off n) s = .next t ∧ t.resp = some ⟨f, 0, r⟩ ∧ r.length = n ∧
        (∀ i, i < n → (reached i → r[i]? = some (memGet s.hostView (at_ i))) ∧ (¬ reached i → r[i]? = some 0)) ∧
        ((∀ e ∈ s.unfenced, e.place ≠ .stack) → s.hostView = s.stack) ∧
        ((∀ i, i < n → reached i) → t = { s with resp := t.resp, free := s.free + 1 }) ∧
        ((∃ i, i < n ∧ ¬ reached i) → t = { s with resp := t.resp, free := s.free + 1, regs := counted })) ∧
      (∃ t, exec (.bar2Write f off data) s = .next t ∧
        (∀ a, (∀ i, i < data.length → reached i → at_ i ≠ a) → memGet t.stack a = memGet s.stack a) ∧
        ((∀ i, i < data.length → reached i) → t.regs = s.regs) ∧
        ((∃ i, i < data.length ∧ ¬ reached i) → t.regs = counted) ∧
        t = { s with
          stack := t.stack, stackLog := t.stackLog, tags := t.tags, regs := t.regs, free := s.free + 1
          unfenced := t.unfenced } ∧
        ((∀ y ∈ s.teams, y.2.kernel = none) → t.unfenced = s.unfenced) ∧
        ((∀ e ∈ s.unfenced, e.place = .stack → e.moduleDone = true) →
          (∀ i, (h : i < data.length) → reached i → memGet t.stack (at_ i) = data[i]) ∧
          ∀ z, ∀ w : List Nat, w.Nodup → (∀ i, i ∈ w ↔ i < data.length ∧ reached i ∧ at_ i / 32 = z) →
            (w = [] → mapGetD t.tags false z = mapGetD s.tags false z) ∧
            (w ≠ [] → (mapGetD t.tags false z = true ↔
              (w.length = 32 ∨ mapGetD s.tags false z = true) ∧ ∀ i ∈ w, data.getD i 0 = 0)))))

/-- What a function level reset leaves (R95, R478): the rings are off, the letterbox (beside the errors that its abandoned
commands raise anew) and the bank read as after module reset, and the control context's H and ledger are empty; other
functions keep their rings. A fundamental reset is one of each of the 64 functions, and nothing else (R494). -/
def Obligations.FunctionLevelResets : Prop :=
  ∀ (f : Nat) (s : State),
    (s.reaches f = true →
      ∃ t, exec (.functionLevelReset f) s = .next t ∧ t = s.levelReset f ∧
        (∀ off, off < 0x1000 → off ≠ 0x040 → t.letterboxReg f off = State.reset.letterboxReg f off) ∧
        (∀ off, off < 0x218 → t.bankReg f off = State.reset.bankReg f off) ∧
        (t.fn f).msixOn = false ∧ (t.fn f).bar2Base = 0 ∧
        (t.cmdsOf (BitVec.ofNat 32 (f * 2 ^ 26))).h = 0 ∧ (t.cmdsOf (BitVec.ofNat 32 (f * 2 ^ 26))).ledger = [] ∧
        (f = 0 → t.regs.numVFs = 0) ∧ t.pm = s.pm ∧ t.power = s.power ∧
        (∀ g, g ≠ f → t.letterboxReg g 0x008 = s.letterboxReg g 0x008 ∧ t.letterboxReg g 0x018 = s.letterboxReg g 0x018)) ∧
    (s.powered = true → exec .perst s = .next ((List.range 64).foldl State.levelReset s))

/-- MSI-X and VF enables, and the retry status that the endpoint answers before start-up step 8 (R469, R497, R510), the I3C
port's addresses and its discovery and monitoring answers (R529). Whether
an assignment of the address answers the Provisioned ID as well (ENTDAA) is free; bodies of discovery answers and the
numbering of sensors are the model's (notes/assumptions/7.md). -/
def Obligations.ConfigurationAndPort : Prop :=
  ∀ (f n : Nat) (a : BitVec 7) (req : List Byte) (x : Nat) (s : State),
    (s.power.boot = .starting → 3 ≤ s.power.bootStep → s.power.bootStep < 8 → ∀ w,
      exec (.configurationWrite f w) s = .next { s with resp := some ⟨f, 2, []⟩ }) ∧
    (s.reaches 0 = true → n ≤ 63 →
      exec (.configurationWrite 0 (.numVFs n)) s =
        .next { s with regs := { s.regs with numVFs := n }, resp := some ⟨0, 0, []⟩ }) ∧
    (s.reaches f = true →
      let done (t : State) : State := { t with resp := some ⟨f, 0, []⟩ }
      exec (.configurationWrite f (.msixEnable false)) s =
        .next (done (s.modFn f fun k => { k with msixOn := false })) ∧
      ((s.fn f).msixPending = false → exec (.configurationWrite f (.msixEnable true)) s =
        .next (done (s.modFn f fun k => { k with msixOn := true }))) ∧
      exec (.configurationWrite f (.msixMask true)) s =
        .next (done (s.modFn f fun k => { k with msixFnMask := true })) ∧
      ((s.fn f).msixPending = true → (s.fn f).msixOn = true → (s.fn f).msixMask = false → (s.fn f).messaged = false →
        ∃ t, exec (.configurationWrite f (.msixMask false)) s = .next t ∧ (t.fn f).msixPending = false ∧
          t.fabric.out = s.fabric.out ++ [.msix f (s.fn f).msixAddr (s.fn f).msixData])) ∧
    (s.i3cUp = true →
      (∃ t, exec (.dynamicAddressAssign a) s = .next t ∧
        t = { s with free := s.free + 1, regs := { s.regs with i3cAddress := some a }, resp := t.resp } ∧
        (t.resp = s.resp ∨ t.resp = some ⟨i3c, 0, (leBytes 6 s.provisionedId).reverse⟩)) ∧
      (∃ b, exec (.mctpControl req) s = .next { s with free := s.free + 1, resp := some ⟨i3c, 0, b⟩ }) ∧
      (x < 4 → exec (.pldm 2 x) s = .next { s with resp := some ⟨i3c, 0, leBytes 2 (s.die x).tj⟩ }) ∧
      exec (.pldm 1 x) s = .next s)

/-- Storms and stuck sources (R474): a source is flagged STORM by the edge with which its count of the window exceeds
STORM_LIMIT; at a whole millisecond the counts start again, and STORM_WINDOW_END flags what the ended window still has over
its limit; a condition that has held for longer than STUCK_US is flagged STUCK. A limit of 0 turns its
flag off, a pulse never sets STUCK, and SLEEP stops both (R476). -/
def Obligations.StormAndStuckFlags : Prop :=
  ∀ (src : Nat) (s : State), s.power.state ≠ .sleep →
    (∀ rising : List Nat, rising.Nodup → s.irq.edges.Pairwise (fun a b => a.1 < b.1) →
      let before (i : Nat) : Nat := if s.postmark.toNat % 1000000 = 0 then 0 else mapGetD s.irq.edges 0 i
      let t := s.countEdges rising
      (∀ i, mapGetD t.irq.edges 0 i = before i + if i ∈ rising then 1 else 0) ∧
      (∀ i, i ∈ t.irq.storm ↔ i ∈ s.irq.storm ∨
        (i ∈ rising ∧ 0 < (s.srcCfg i).storm.toNat ∧ (s.srcCfg i).storm.toNat < before i + 1)) ∧
      t = { s with irq := { s.irq with
        edges := t.irq.edges, ended := t.irq.ended, storm := t.irq.storm, stormed := t.irq.stormed } }) ∧
    (s.postmark.toNat % 1000000 = 0 →
      ∃ t, exec .stormWindowEnd s = .next t ∧
        (∀ i, i ∈ t.irq.storm ↔ i ∈ s.irq.storm ∨
          ∃ n, (i, n) ∈ s.irq.ended ∧ 0 < (s.srcCfg i).storm.toNat ∧ (s.srcCfg i).storm.toNat < n) ∧
        t = { s with irq := { s.irq with storm := t.irq.storm, ended := [] } }) ∧
    (s.postmark.toNat % 1000000 ≠ 0 → exec .stormWindowEnd s = .next s) ∧
    (∀ a, mapGet s.irq.since src = some a →
      let us := (s.srcCfg src).stuckUs.toNat
      (0 < us → src ∈ s.irq.live → src ∈ s.asserted → src ∉ s.irq.pulses → 1000 * us < s.postmark.toNat - a.toNat →
        ∃ t, exec (.stuckTimeout src) s = .next t ∧ (∀ i, i ∈ t.irq.stuck ↔ i = src ∨ i ∈ s.irq.stuck) ∧
          t = { s with irq := { s.irq with stuck := t.irq.stuck } }) ∧
      (us = 0 ∨ src ∉ s.asserted ∨ src ∈ s.irq.pulses ∨ s.postmark.toNat - a.toNat ≤ 1000 * us →
        exec (.stuckTimeout src) s = .next s))

/-! ### Lumfy: control and scalar rows -/

/-- The scalar, predicate and count rows: an instruction that can issue gives D the value of its row in each core whose
mask is true, and changes nothing else. -/
def Obligations.RegisterRowResults : Prop :=
  ∀ (t : Nat) (x : Args) (s : State), ∀ r ∈ registerRows s t x, s.canIssue t ⟨r.2.1, x⟩ = true →
    ∃ u, exec (r.1 t x) s = .next u ∧ registersMovedOn s u t ⟨r.2.1, x⟩ r.2.2

/-- The registers of a core (R107, R110): p0 reads true whatever is written to it; a write to any other register changes
it alone. -/
def Obligations.RegisterFileLaws : Prop :=
  ∀ (k : Core) (n m : Nat) (v : W64) (b : Bool) (c : W32) (d : TileDesc),
    (k.setP n b).getP 0 = true ∧ k.setP 0 b = k ∧ k.getP 0 = true ∧
    (0 < n → n < 16 → (k.setP n b).getP n = b) ∧ (m ≠ n → n < 16 → (k.setP n b).getP m = k.getP m) ∧
    (k.setS n v).getS n = v ∧ (m ≠ n → (k.setS n v).getS m = k.getS m) ∧
    (k.setC n c).getC n = c ∧ (m ≠ n → (k.setC n c).getC m = k.getC m) ∧
    (k.setT n d).getT n = d ∧ (m ≠ n → (k.setT n d).getT m = k.getT m) ∧
    (k.setS n v).getT = k.getT ∧ (k.setS n v).getP = k.getP ∧ (k.setS n v).getC = k.getC ∧
    (k.setP n b).getS = k.getS ∧ (k.setC n c).getS = k.getS ∧ (k.setT n d).getS = k.getS ∧
    (k.setT n d).mem = k.mem ∧ (k.setP n b).mem = k.mem

/-- Branches and loops (R108, R109, R123): where an instruction can issue, only the team's pc, loops and end change. A
LOOP takes each core's count register as its trips, 0 where a loop mask is false, and with no trip skips past the
ENDLOOP; an ENDLOOP goes back to the row behind its LOOP until the trips are done. END ends the stream. -/
def Obligations.ControlFlow : Prop :=
  ∀ (t : Nat) (x : Args) (s : State) (k : Kernel), (s.team t).kernel = some k →
    let goes (k' : Kernel) : State :=
      { s with free := s.free + 1, teams := mapPut s.teams t { s.team t with kernel := some k' } }
    let go (taken : Bool) : State := goes { k with pc := if taken then x.imm.toNat % 65536 else k.pc + 1 }
    let acting := (List.range 16).filter fun q => k.loops.all fun f => f.iter < f.counts.getD q 0
    (s.canIssue t ⟨0x001, x⟩ = true → exec (.endI t x) s = .next (goes { k with ended := true })) ∧
    (s.canIssue t ⟨0x002, x⟩ = true → exec (.br t x) s = .next (go true)) ∧
    (s.canIssue t ⟨0x003, x⟩ = true →
      exec (.brAny t x) s = .next (go (acting.any fun q => (s.core t q).pred x.a))) ∧
    (s.canIssue t ⟨0x004, x⟩ = true →
      exec (.brAll t x) s = .next (go (acting.all fun q => (s.core t q).pred x.a))) ∧
    (s.canIssue t ⟨0x005, x⟩ = true →
      let counts := (List.range 16).map fun q => if q ∈ acting then ((s.core t q).count x.a).toNat else 0
      ((∀ n ∈ counts, n = 0) → exec (.loop t x) s = .next (goes { k with pc := x.imm.toNat % 65536 + 1 })) ∧
      (∀ m ∈ counts, 0 < m → (∀ n ∈ counts, n ≤ m) →
        exec (.loop t x) s = .next (goes { k with pc := k.pc + 1, loops := ⟨k.pc, counts, m, 0⟩ :: k.loops }))) ∧
    (s.canIssue t ⟨0x006, x⟩ = true →
      (∀ f r, k.loops = f :: r → f.iter + 1 < f.trips →
        exec (.endloop t x) s = .next (goes { k with pc := f.at_ + 1, loops := { f with iter := f.iter + 1 } :: r })) ∧
      (∀ f r, k.loops = f :: r → f.trips ≤ f.iter + 1 →
        exec (.endloop t x) s = .next (goes { k with pc := k.pc + 1, loops := r })))

/-- An instruction row that the sequencer cannot issue now leaves the module as it is: the row is offered again
(notes/assumptions/12.md). -/
def Obligations.UnissuedRowsChangeNothing : Prop :=
  ∀ (i : Instr) (t : Nat) (w : LumfyWord) (s : State), i.lumfy = some (t, w) → s.canIssue t w = false →
    exec i s = .next s

/-- LD, ST and STATPTR (R116, R144, R150): LD extends the bytes at A + IMM, rounded down to its width, and reads zeros
outside CORE_BYTES; ST writes the low bytes of B there and drops those outside; STATPTR takes a multiple of 32 whose record
fits and else empties the pointer. No other register and no other byte of CORE changes, the status record apart. -/
def Obligations.LoadsAndStores : Prop :=
  ∀ (t : Nat) (x : Args) (s : State),
    let n := elemBits x.ty / 8
    let at_ (q : Nat) : Nat := ((s.core t q).value x false x.a + immValue false x.imm).toNat / n * n
    (s.canIssue t ⟨0x013, x⟩ = true → 0 < n →
      ∃ u, exec (.ld t x) s = .next u ∧ coreLocal s u t x ∧
        ∀ q ∈ (s.team t).masked x.pred,
          (settled s t q →
            { u.core t q with mem := (s.core t q).mem, number := (s.core t q).number } =
              (s.core t q).putD x (ldExtend x.ty (leNat ((List.range n).map fun i =>
                if at_ q + i < s.coreBytes t then memGet (s.core t q).mem (at_ q + i) else 0)))) ∧
          ∀ a, ¬ inRecord s t q x a → memGet (u.core t q).mem a = memGet (s.core t q).mem a) ∧
    (s.canIssue t ⟨0x014, x⟩ = true → 0 < n →
      ∃ u, exec (.st t x) s = .next u ∧ coreLocal s u t x ∧
        ∀ q ∈ (s.team t).masked x.pred,
          { u.core t q with mem := (s.core t q).mem, number := (s.core t q).number } = s.core t q ∧
          (∀ i, i < n → settled s t q → at_ q + i < s.coreBytes t → ¬ inRecord s t q x (at_ q + i) →
            memGet (u.core t q).mem (at_ q + i) = BitVec.ofNat 8 (((s.core t q).value x false x.b).toNat / 256 ^ i)) ∧
          ∀ a, a < at_ q ∨ at_ q + n ≤ a ∨ s.coreBytes t ≤ a → ¬ inRecord s t q x a →
            memGet (u.core t q).mem a = memGet (s.core t q).mem a) ∧
    (s.canIssue t ⟨0x007, x⟩ = true →
      ∃ u, exec (.statptr t x) s = .next u ∧ coreLocal s u t x ∧
        ∀ q ∈ (s.team t).masked x.pred,
          let v := ((s.core t q).value x false x.a).toNat
          u.core t q = { s.core t q with statusPtr := if v % 32 = 0 ∧ v + 31 < s.coreBytes t then some v else none })

/-- Descriptors at run time (R118, R152, R153): a change is rounded to multiples of 64 and stored in D; TSETDIM outside 1
to 128 gives the null descriptor; a null descriptor, or one of a block type and an illegal extent, leaves D and counts
NULL_TILE. DESC loads the bank's descriptor, and
TGETBASE reads BASE into a scalar. -/
def Obligations.DescriptorRows : Prop :=
  ∀ (t : Nat) (x : Args) (s : State),
    let left (u : State) (q : Nat) (k : Core) : Prop :=
      { u.core t q with mem := (s.core t q).mem, number := (s.core t q).number } = k ∧
      ∀ a, ¬ inRecord s t q x a → memGet (u.core t q).mem a = memGet (s.core t q).mem a
    let put (k : Core) (d : TileDesc) : Core := match x.d with | .treg n => k.setT n d | _ => k
    (∀ r ∈ descriptorRows x, s.canIssue t ⟨r.2.1, x⟩ = true →
      ∃ u, exec (r.1 t x) s = .next u ∧ coreLocal s u t x ∧
        ∀ q ∈ (s.team t).masked x.pred,
          let k := s.core t q
          left u q (if (r.2.2.1 k).nullForAny then k else put k (r.2.2.2 k (r.2.2.1 k)).fix.1)) ∧
    (s.canIssue t ⟨0x083, x⟩ = true →
      ∃ u, exec (.tsetdim t x) s = .next u ∧ coreLocal s u t x ∧
        ∀ q ∈ (s.team t).masked x.pred,
          let k := s.core t q
          let m := (k.value x false x.a).toNat
          let n := (k.value x false x.b).toNat
          left u q (if (k.tile x.d).nullForAny then k
            else if 1 ≤ m ∧ m ≤ 128 ∧ 1 ≤ n ∧ n ≤ 128 then
              put k ({ k.tile x.d with rowsM1 := BitVec.ofNat 8 (m - 1), colsM1 := BitVec.ofNat 8 (n - 1) } : TileDesc).fix.1
            else put k TileDesc.null)) ∧
    (∀ i d, (s.team t).image = some i → i.descs[x.imm.toNat % 2048]? = some d → d.legal = true →
      s.canIssue t ⟨0x080, x⟩ = true →
      ∃ u, exec (.desc t x) s = .next u ∧ coreLocal s u t x ∧
        ∀ q ∈ (s.team t).masked x.pred, left u q (put (s.core t q) d)) ∧
    (s.canIssue t ⟨0x086, x⟩ = true →
      ∃ u, exec (.tgetbase t x) s = .next u ∧ coreLocal s u t x ∧
        ∀ q ∈ (s.team t).masked x.pred,
          let k := s.core t q
          left u q (if (k.tile x.a).nullForAny then k else k.putD x (k.tile x.a).base))

/-- The element-wise rows: in each core whose mask is true and whose tiles fit, element (i, j) of D afterwards holds the
value of the row for the elements that A, B and D held before, D in place of A or B included. -/
def Obligations.ElementwiseResults : Prop :=
  ∀ (t q : Nat) (x : Args) (s : State), ∀ r ∈ elementRows s t q x, s.canIssue t ⟨r.2.1, x⟩ = true →
    let k := s.core t q
    let d := k.tile x.d
    ∃ u, exec (r.1 t x) s = .next u ∧ coreLocal s u t x ∧
      (q ∈ (s.team t).masked x.pred → settled s t q → elemNull k x r.2.2.1 = false → s.elemOutside t q x = false →
        writable s t q x d →
        ∀ i j, i < d.rows → j < d.cols →
          (tileOf u t q d).code i j =
            r.2.2.2 i j ((tileOf s t q (k.tile x.a)).code i j) (bOf s t q x i j) ((tileOf s t q d).code i j) %
              2 ^ elemBits d.tyN)

/-- Selection, conversion, random fill and dropout (R160, R184, R187, R239, R261), in each core whose mask is true and
whose tiles fit: VSEL takes A where the mask tile holds 1 and B elsewhere; VCVT converts the value of each element, a block
type by its blocks; VRAND writes the words of its stream; VDROPOUT writes A × 1 ÷ p where the draw keeps the element and
+0 elsewhere, with the mask tile 1 where it is kept. -/
def Obligations.SelectionAndDraws : Prop :=
  ∀ (t q : Nat) (x : Args) (s : State), q ∈ (s.team t).masked x.pred → settled s t q →
    let k := s.core t q
    let a := k.tile x.a
    let d := k.tile x.d
    writable s t q x d → s.coreOutside t a = false →
    (let m := k.getT (x.imm.toNat % 32)
     s.canIssue t ⟨0x1AB, x⟩ = true → elemNull k x x.ty = false → m.nullForCompute = false → m.ty = 0x1A →
     m.rows = d.rows → m.cols = d.cols → d.overlaps m = false → s.elemOutside t q x = false → s.coreOutside t m = false →
      ∃ u, exec (.vsel t x) s = .next u ∧ coreLocal s u t x ∧
        ∀ i j, i < d.rows → j < d.cols → (tileOf u t q d).code i j =
          (if (tileOf s t q m).code i j = 1 then (tileOf s t q a).code i j else bOf s t q x i j) % 2 ^ elemBits d.tyN) ∧
    (s.canIssue t ⟨0x1A0, x⟩ = true → a.nullForCompute = false → d.nullForCompute = false → a.tyN ∈ setVC → d.tyN = x.ty →
     d.rows = a.rows → d.cols = a.cols → clash d a = false →
      ∃ u, exec (.vcvt t x) s = .next u ∧ coreLocal s u t x ∧
        ∀ i j, i < d.rows → j < d.cols →
          (isBlockTy x.ty = false → (tileOf u t q d).code i j =
            (convertTo x.ty (s.modeAt t q x x.ty i j) (x.mod.getLsbD 3) (x.mod.getLsbD 2) (itypeOf a.tyN).isSome
              ((tileOf s t q a).value i j)).1 % 2 ^ elemBits d.tyN) ∧
          (isBlockTy x.ty = true →
            let cells := (List.range 32).map fun n => d.rowCol (d.lineOf i j) (32 * (d.idxOf i j / 32) + n)
            let block := quantBlock x.ty (cells.map fun c => s.modeAt t q x x.ty c.1 c.2)
              (cells.map fun c => (tileOf s t q a).value c.1 c.2)
            (tileOf u t q d).scale i j = block.1 % 256 ∧
            (tileOf u t q d).code i j = (block.2.getD (d.idxOf i j % 32) (0, { })).1 % 2 ^ elemBits d.tyN)) ∧
    (let n := (k.value x false x.a).toNat
     let b := k.value x false x.b
     s.canIssue t ⟨0x1B0, x⟩ = true → d.nullForCompute = false → d.tyN = x.ty → 0x100 ≤ n % 4096 →
     bits n 13 19 = 0 →
      ∃ u, exec (.vrand t x) s = .next u ∧ coreLocal s u t x ∧
        ∀ i j, i < d.rows → j < d.cols →
          let e := i * d.cols + j
          let first := (if n.testBit 12 then genDraws (s.genTable t) (n % 4096) else 0) + b
          let y := ((streamCall (s.genTable t) (n % 4096) (first + BitVec.ofNat 64 (e / 4)) (BitVec.ofNat 32 (n / 2 ^ 32))
            ((s.step t).setWidth 32)).word e).toNat
          (tileOf u t q d).code i j =
            (if x.ty = 0 then (fmtF32.encode .nearest false (.fin false (y / 256) (-24))).1 else y) % 2 ^ elemBits d.tyN) ∧
    (let m := k.getT (x.imm.toNat / 2 ^ 32 % 32)
     let p := f32 (x.imm.toNat % 2 ^ 32)
     let g := f32 (fmtF32.encode .nearest false (FVal.div (.fin false 1 0) p)).1
     let kept (i j : Nat) : Prop := s.coreDraw t q 2 k.qd (i * d.cols + j) < keepThreshold p
     s.canIssue t ⟨0x1B1, x⟩ = true → elemNull k x x.ty = false → m.nullForCompute = false → m.ty = 0x1A →
     m.rows = d.rows → m.cols = d.cols → d.overlaps m = false → m.overlaps a = false → writable s t q x m →
     s.elemOutside t q x = false →
      ∃ u, exec (.vdropout t x) s = .next u ∧ coreLocal s u t x ∧
        (u.core t q).qd = k.qd + BitVec.ofNat 64 ((d.rows * d.cols + 3) / 4) ∧
        ∀ i j, i < d.rows → j < d.cols →
          (kept i j → (tileOf u t q m).code i j = 1 ∧
            (tileOf u t q d).code i j = ((drainFmt x.ty).encode .nearest false
              ((vfVal x.ty ((tileOf s t q a).code i j)).mul g)).1 % 2 ^ elemBits d.tyN) ∧
          (¬ kept i j → (tileOf u t q m).code i j = 0 ∧ (tileOf u t q d).code i j = 0))

/-- Reductions and scans (R241, R246, R248, R249), in each core whose mask is true and whose tiles fit: VRED reduces each
column of A down its rows, SEGRED the rows of each segment, an empty one giving the value that IDENTITY selects; SCAN and
SEGSCAN write each column's running values from the carry on, and the carry-out into the carry tile. -/
def Obligations.ReductionsAndScans : Prop :=
  ∀ (t q : Nat) (x : Args) (s : State), q ∈ (s.team t).masked x.pred → settled s t q →
    let k := s.core t q
    let a := k.tile x.a
    let b := k.tile x.b
    let d := k.tile x.d
    let si := x.mod.getLsbD 3
    let ov := x.mod.getLsbD 2
    let column (j : Nat) : List Nat := (List.range a.rows).map fun i => (tileOf s t q a).code i j
    writable s t q x d → s.coreOutside t a = false → a.nullForCompute = false → d.nullForCompute = false →
    a.tyN = x.ty → d.tyN = x.ty → d.cols = a.cols → d.overlaps a = false →
    (∀ r ∈ [((fun t x => Instr.vredAdd t x), 0x1C0, AccOp.add), ((fun t x => Instr.vredMax t x), 0x1C1, AccOp.max),
        ((fun t x => Instr.vredMin t x), 0x1C2, AccOp.min)],
      s.canIssue t ⟨r.2.1, x⟩ = true → d.rows = 1 →
      ∃ u, exec (r.1 t x) s = .next u ∧ coreLocal s u t x ∧
        ∀ j, j < d.cols → (tileOf u t q d).code 0 j = (reduceRows r.2.2 x.ty si ov (column j)).1 % 2 ^ elemBits d.tyN) ∧
    (∀ op : RedOp, s.canIssue t ⟨0x1E0 + redIndex op, x⟩ = true → b.nullForCompute = false → b.tyN = 0x13 ∨ b.tyN = 0x15 →
      b.cols = 1 → b.rows = d.rows + 1 → d.overlaps b = false → s.coreOutside t b = false →
      ∃ u, exec (.segred op t x) s = .next u ∧ coreLocal s u t x ∧
        ∀ i j, i < d.rows → j < d.cols →
          let lo := min ((tileOf s t q b).code i 0) a.rows
          let hi := min ((tileOf s t q b).code (i + 1) 0) a.rows
          (tileOf u t q d).code i j = (if lo < hi then (reduceRows (redAcc op) x.ty si ov ((column j).take hi |>.drop lo)).1
            else if x.mod.getLsbD 5 ∧ op ≠ .mean then identityCode (redAcc op) x.ty else 0) % 2 ^ elemBits d.tyN) ∧
    (∀ (op : ScanOp) (seg : Bool),
      let c := k.getT (x.imm.toNat % 32)
      let out (j : Nat) : List (Nat × Flags) × Nat :=
        scanColumn (scanAcc op) x.ty si ov (x.imm.getLsbD 6) (if x.imm.getLsbD 5 then some ((tileOf s t q c).code 0 j) else none)
          ((List.range a.rows).map fun i => (seg && (tileOf s t q b).code i 0 == 1, (tileOf s t q a).code i j))
      s.canIssue t ⟨(if seg then 0x1D0 else 0x1C8) + scanIndex op, x⟩ = true → d.rows = a.rows →
      c.nullForCompute = false → c.tyN = x.ty → c.rows = 1 → c.cols = a.cols → writable s t q x c →
      d.overlaps c = false → c.overlaps a = false →
      (seg = true → b.nullForCompute = false ∧ b.ty = 0x1A ∧ b.rows = a.rows ∧ b.cols = 1 ∧ d.overlaps b = false ∧
        c.overlaps b = false ∧ s.coreOutside t b = false) →
      ∃ u, exec (if seg then .segscan op t x else .scan op t x) s = .next u ∧ coreLocal s u t x ∧
        ∀ j, j < a.cols →
          (tileOf u t q c).code 0 j = (out j).2 % 2 ^ elemBits c.tyN ∧
          ∀ i, i < a.rows → (tileOf u t q d).code i j = ((out j).1.getD i (0, { })).1 % 2 ^ elemBits d.tyN)

/-- The frame of the vector rows: beside the tiles that it writes and the status record, no byte of a core's memory
changes, and of its registers none but the counts of draws and of records. -/
def Obligations.VectorRowsFrame : Prop :=
  ∀ (i : Instr) (t : Nat) (w : LumfyWord) (s : State), i.lumfy = some (t, w) → 0x180 ≤ w.code → w.code ≤ 0x1E6 →
    s.canIssue t w = true →
    ∃ u, exec i s = .next u ∧ coreLocal s u t w.args ∧
      ∀ q ∈ (s.team t).masked w.args.pred,
        { u.core t q with
          mem := (s.core t q).mem, number := (s.core t q).number, q := (s.core t q).q, qd := (s.core t q).qd } = s.core t q ∧
        ∀ a, ¬ inRecord s t q w.args a →
          (∀ d ∈ tilesWritten (s.core t q) w, ∀ e ∈ d.extents, a < e.1 ∨ e.1 + e.2 ≤ a) →
          memGet (u.core t q).mem a = memGet (s.core t q).mem a

/-- Matrix products into a tile (R155, R156, R188, R190, R195, R314, R315): element (i, j) of D is the dot product of row i
of A and column j of B under the contract that STEPWISE selects, with ACC beginning from D, drained into D's type; MMA.DRV
first multiplies it by the derivative at the saved tile. D joins the core's tile queue (R207), which drains oldest first. -/
def Obligations.MatrixProducts : Prop :=
  ∀ (t q n : Nat) (x : Args) (s : State), x.d = .treg n →
    let k := s.core t q
    let a := k.tile x.a
    let b := k.tile x.b
    let d := k.tile x.d
    let step := x.mod.getLsbD 1
    let drained (i j : Nat) (r : Acc) : Nat :=
      (drainElem (drainFmt d.tyN) (s.rounding t q x d.cols d.tyN i j) (x.mod.getLsbD 3) step r).1 % 2 ^ elemBits d.tyN
    let fits : Prop := q ∈ (s.team t).masked x.pred ∧ settled s t q ∧ s.coreOutside t a = false ∧
      s.coreOutside t b = false ∧ operandsOk s.part9620 x.ty a b = true ∧ resultOk x.ty d a b = true ∧ writable s t q x d
    (s.canIssue t ⟨0x100, x⟩ = true → drainReady s t x [x.a, x.b, if x.mod.getLsbD 7 then x.d else .none] →
      ∃ u, exec (.mma t x) s = .next u ∧ coreLocal s u t x ∧
        (fits → (u.core t q).tileQueue = k.tileQueue ++ [n] ∧
          ∀ i j, i < d.rows → j < d.cols →
            let acc := x.mod.getLsbD 7
            (isIntTy x.ty = true → (tileOf u t q d).code i j =
              ((ITy.mk 32 true).encode (x.mod.getLsbD 2) (intDot (tileOf s t q a) (tileOf s t q b) i j
                (if acc then (tileOf s t q d).int i j else 0))).1 % 2 ^ elemBits d.tyN) ∧
            (isIntTy x.ty = false → (tileOf u t q d).code i j =
              drained i j (dotOf step (tileOf s t q a) (tileOf s t q b) i j
                (if acc then (tileOf s t q d).value i j else FVal.zero))))) ∧
    (let z := k.getT (x.imm.toNat % 32)
     let code := bits x.imm.toNat 8 8
     s.canIssue t ⟨0x101, x⟩ = true → drainReady s t x [x.a, x.b, .treg (x.imm.toNat % 32)] →
      ∃ u, exec (.mmaDrv t x) s = .next u ∧ coreLocal s u t x ∧
        (fits → savedOk code z d = true → s.coreOutside t z = false →
          (u.core t q).tileQueue = k.tileQueue ++ [n] ∧
          ∀ i j, i < d.rows → j < d.cols → (tileOf u t q d).code i j =
            drained i j (derive_ code (tileOf s t q z) i j (dotOf step (tileOf s t q a) (tileOf s t q b) i j FVal.zero)))) ∧
    exec (.tileQueueDrain t q) s = .next (if k.tileQueue = [] then s
      else s.modCore t q fun k => { k with tileQueue := k.tileQueue.drop 1 })

/-- The accumulation store (R156, R193, R320): MMA.ACS adds the product row by row into the words from D on, ACS.ZERO
clears the words that it names, ACS.READ drains words into a tile and with IMM[0] clears them; several cores act in order
of their index. A range that does not fit in ACC_WORDS changes no word. (How many rows a read finds with a single-bit
error, counted in ACS_ERRORS, is free: notes/assumptions/62.md.) -/
def Obligations.AccumulationStore : Prop :=
  ∀ (t : Nat) (x : Args) (s : State),
    let cores := (s.team t).masked x.pred
    let onlyStore (u : State) : Prop :=
      u = { s with
        free := s.free + 1, teams := u.teams, ctxs := u.ctxs, unfenced := u.unfenced
        regs := { s.regs with acsCorrected := u.regs.acsCorrected } } ∧
      (∀ k, k ≠ t → u.team k = s.team k) ∧
      u.team t = { s.team t with
        kernel := (s.team t).kernel.map (fun k => { k with pc := k.pc + 1 }), cores := (u.team t).cores
        acs := (u.team t).acs, acsRows := (u.team t).acsRows }
    let first (q : Nat) (o : Operand) : Nat := ((s.core t q).value x false o).toNat
    (s.canIssue t ⟨0x102, x⟩ = true → drainReady s t x [x.a, x.b] →
      (∀ q ∈ cores, settled s t q ∧ s.coreOutside t ((s.core t q).tile x.a) = false ∧
        s.coreOutside t ((s.core t q).tile x.b) = false) →
      ∃ u, exec (.mmaAcs t x) s = .next u ∧ onlyStore u ∧
        ∀ w, (u.team t).acsGet w = cores.foldl (fun v q =>
          let a := (s.core t q).tile x.a
          let b := (s.core t q).tile x.b
          if operandsOk s.part9620 x.ty a b ∧ first q x.d + a.rows * b.cols ≤ s.accWords t ∧
              first q x.d ≤ w ∧ w < first q x.d + a.rows * b.cols then
            (acsAdd v (dotOf (x.mod.getLsbD 1) (tileOf s t q a) (tileOf s t q b) ((w - first q x.d) / b.cols)
              ((w - first q x.d) % b.cols) FVal.zero)).1
          else v) ((s.team t).acsGet w)) ∧
    (s.canIssue t ⟨0x104, x⟩ = true → drainReady s t x [] →
      ∃ u, exec (.acsZero t x) s = .next u ∧ onlyStore u ∧
        ∀ w, (u.team t).acsGet w =
          if ∃ q ∈ cores, first q x.a + first q x.b ≤ s.accWords t ∧ first q x.a ≤ w ∧ w < first q x.a + first q x.b then 0
          else (s.team t).acsGet w) ∧
    (s.canIssue t ⟨0x103, x⟩ = true → drainReady s t x [] →
      let reads (q w : Nat) : Prop :=
        let d := (s.core t q).tile x.d
        d.nullForCompute = false ∧ d.tyN = x.ty ∧ first q x.a + d.rows * d.cols ≤ s.accWords t ∧
        first q x.a ≤ w ∧ w < first q x.a + d.rows * d.cols
      ∃ u, exec (.acsRead t x) s = .next u ∧ onlyStore u ∧
        (∀ w, (u.team t).acsGet w =
          if x.imm.getLsbD 0 = true ∧ ∃ q ∈ cores, reads q w then 0 else (s.team t).acsGet w) ∧
        ∀ q ∈ cores, settled s t q → writable s t q x ((s.core t q).tile x.d) →
          ∀ i j, i < ((s.core t q).tile x.d).rows → j < ((s.core t q).tile x.d).cols →
            let d := (s.core t q).tile x.d
            let w := first q x.a + i * d.cols + j
            reads q w →
            let word := if x.imm.getLsbD 0 = true ∧ ∃ p ∈ cores, p < q ∧ reads p w then 0 else (s.team t).acsGet w
            (tileOf u t q d).code i j =
              ((drainFmt d.tyN).drain (s.rounding t q x d.cols d.tyN i j) (x.mod.getLsbD 3) true
                (a40Decode word.toNat)).1 % 2 ^ elemBits d.tyN)

/-- Copies and fills (R153), in a core with no earlier transfer under way (R119): element (i, j) of D becomes that of A, or
the low bits of A. For D in CORE every core acts on
its own tile; with D in CLUSTER or STACK the statement is about one core, since several may write the same bytes. A tile in FABRIC that other modules hold is written, or asked for, by one frame for
each of its pieces, and the courier awaits their answers (R154). -/
def Obligations.TileMoves : Prop :=
  ∀ (t q : Nat) (x : Args) (s : State), q ∈ (s.team t).masked x.pred →
    let cores := (s.team t).masked x.pred
    let k := s.core t q
    let a := k.tile x.a
    let d := k.tile x.d
    let at_ (d : TileDesc) : Place := placeOf t q d.space.toNat
    let free (d : TileDesc) : Prop :=
      (∀ e ∈ s.unfenced, e.place ≠ at_ d) ∧ tileOutside (s.usable t d.space.toNat) d = false
    let fits : Prop := d.lineBytes ≤ d.stride.toNat ∧ d.extents.Pairwise (fun a b => rangesMeet a b = false) ∧ free d ∧
      (d.space = 0 → ∀ p, recordRange s t q x = some p → ∀ e ∈ d.extents, rangesMeet e (p, 32) = false)
    let alone : Prop := d.space.toNat ≤ 2 ∧ (cores = [q] ∨ ∀ r ∈ cores, ((s.core t r).tile x.d).space = 0)
    let ready (o : List Operand) : Prop := ∀ r ∈ cores, ∀ n, Operand.treg n ∈ o → n ∉ (s.core t r).tileQueue
    (∀ r ∈ s.fabric.reads, ¬ (r.team = t ∧ r.core = q)) →
    (s.canIssue t ⟨0x088, x⟩ = true → ready [x.a] → tcopyNull d a = false → alone → a.space.toNat ≤ 2 → free a → fits →
      (at_ a = at_ d → d.overlaps a = false) →
      ∃ u, exec (.tcopy t x) s = .next u ∧
        ∀ i j, i < d.rows → j < d.cols →
          (loadTile (memGet (u.memAt (at_ d))) d).code i j = (loadTile (memGet (s.memAt (at_ a))) a).code i j ∧
          (isBlockTy d.tyN = true →
            (loadTile (memGet (u.memAt (at_ d))) d).scale i j = (loadTile (memGet (s.memAt (at_ a))) a).scale i j)) ∧
    (s.canIssue t ⟨0x089, x⟩ = true → tfillNull d x.ty = false → alone → fits →
      ∃ u, exec (.tfill t x) s = .next u ∧
        ∀ i j, i < d.rows → j < d.cols →
          (loadTile (memGet (u.memAt (at_ d))) d).code i j = (k.value x false x.a).toNat % 2 ^ elemBits d.tyN ∧
          (isBlockTy d.tyN = true → (loadTile (memGet (u.memAt (at_ d))) d).scale i j = 127)) ∧
    (let away (d : TileDesc) : Prop := ∀ p ∈ fabricPieces d, ∃ pc c, s.fabricSide t p.1 = .away pc ∧
       ((s.team t).kernel.map fun r => r.ctx) = some c ∧ (s.portFor (s.postcodeOf c) pc).isSome = true
     let asked (u : State) (d : TileDesc) (f : Nat × Nat → List Byte) : Prop :=
       (u.fabric.out.drop s.fabric.out.length).map payloadOf = (fabricPieces d).map f ∧
       u.stack = s.stack ∧ (u.core t q).mem = k.mem ∧ (u.core t q).awaited.length = k.awaited.length + 1
     cores = [q] →
     (s.canIssue t ⟨0x088, x⟩ = true → ready [x.a] → tcopyNull d a = false → a.space = 3 → away a →
       ∃ u, exec (.tcopy t x) s = .next u ∧ asked u a fun p => readPayload (p.1 % 2 ^ 40) p.2) ∧
     (s.canIssue t ⟨0x089, x⟩ = true → tfillNull d x.ty = false → d.space = 3 → away d →
       ∃ u, exec (.tfill t x) s = .next u ∧ asked u d fun p =>
         writePayload 0 0 (p.1 % 2 ^ 40)
           (memRead (tileImage d (fun _ _ => (k.value x false x.a).toNat) unitScale) p.1 p.2)))

/-- Gathers by index, by edge and by route (R163, R210, R212 to R215), in each core whose mask is true and whose tiles fit:
row i of D is the source row that index i names, and a row of zeros where it is "no node" or names none; an edge or route
cursor gives D as many rows as it takes, and moves on by them. With STRICT and a row dropped, D keeps its bytes and the
launch stops (R122, R147). -/
def Obligations.GatherResults : Prop :=
  ∀ (t q : Nat) (x : Args) (s : State), q ∈ (s.team t).masked x.pred → settledGather s t q →
    let k := s.core t q
    let a := k.tile x.a
    let b := k.tile x.b
    let d := k.tile x.d
    let strict := x.mod.getLsbD 6
    let idx (i : Nat) : Nat := (tileOf s t q a).code i 0
    let none_ (v : Nat) : Bool := (a.ty == 0x1C && v == 2 ^ 32 - 1) || (a.ty == 0x1D && v == 2 ^ 48 - 1)
    let ready (o : List Operand) : Prop :=
      ∀ r ∈ (s.team t).masked x.pred, ∀ n, Operand.treg n ∈ o → n ∉ (s.core t r).tileQueue
    (s.canIssue t ⟨0x280, x⟩ = true → ready [x.a, x.b] → a.nullForCompute = false → b.nullForCompute = false →
      a.tyN ∈ [0x13, 0x15, 0x1C, 0x1D] → a.cols = 1 → gatherNull d x.ty b.tyN b.cols b.colMajor = false → d.rows = a.rows →
      d.overlaps a = false → d.overlaps b = false → writable s t q x d → s.coreOutside t a = false →
      s.coreOutside t b = false →
      ∃ u, exec (.gatherRows t x) s = .next u ∧
        (strict = false ∨ (∀ i, i < a.rows → none_ (idx i) = true ∨ idx i < b.rows) → ∀ i j, i < d.rows → j < d.cols →
          (tileOf u t q d).code i j = if none_ (idx i) = false ∧ idx i < b.rows then (tileOf s t q b).code (idx i) j else 0) ∧
        (strict = true → (∃ i, i < a.rows ∧ none_ (idx i) = false ∧ b.rows ≤ idx i) →
          (∃ r, (u.team t).kernel = some r ∧ r.stopped = true) ∧
          ∀ y, ¬ inRecord s t q x y → memGet (u.core t q).mem y = memGet (s.core t q).mem y)) ∧
    (∀ y tb, s.rowOf t (k.value x false x.b) = some y → s.table y.ctx (pTable y.record) = some tb →
      s.canIssue t ⟨0x281, x⟩ = true → ready [x.a] → s.stagingWait t x = false → a.nullForCompute = false →
      a.tyN = 0x13 ∨ a.tyN = 0x15 → a.cols = 1 → gatherNull d x.ty tb.vtype (pCols y.record) false = false →
      d.rows = a.rows → d.overlaps a = false → writable s t q x d → s.coreOutside t a = false → strict = false →
      ∃ u, exec (.gatherStaged t x) s = .next u ∧
        ∀ i j, i < d.rows → j < d.cols → (tileOf u t q d).code i j =
          if idx i < y.ids.length then (s.stagedSource t q tb y (idx i)).1.getD j 0 else 0) ∧
    (let mem := memGet (s.core t q).mem
     let moved (u : State) (c : Cursor) (n : Nat) : Prop :=
       (u.core t q).tile x.d = withRows d n ∧
       (0 < n → (∀ i, i < 4 → ¬ inRecord s t q x (c.at_ + 8 + i)) → c.at_ + 64 ≤ s.coreBytes t →
         memNat (u.core t q).mem (c.at_ + 8) 4 = c.next + n)
     let clear (c : Cursor) (heads : List Bool) (d : TileDesc) : Prop :=
       ∀ y ∈ cursorCells mem c heads, ∀ e ∈ d.extents, y.1 < e.1 ∨ e.1 + e.2 ≤ y.1
     (∀ m c y p tb, x.d = .treg m → s.cursorAt t q (k.value x false x.a).toNat false = some c →
       s.rowOf t (k.value x false x.b) = some y → s.cursorParcel t c = some p →
       s.table y.ctx (pTable y.record) = some tb → gatherNull d x.ty tb.vtype (pCols y.record) false = false →
       s.canIssue t ⟨0x282, x⟩ = true → s.stagingWait t x = false → strict = false →
       let n := c.count (p.layerField c.layer 1)
       let v (i : Nat) : Nat := edgeField s.stack p c.layer (c.next + i) (c.field == 1)
       let heads := headFlags (fun e => edgeField s.stack p c.layer e true) c.next n
       ∃ u, exec (.gatherEdge t x) s = .next u ∧ moved u c n ∧
         (0 < n → writable s t q x (withRows d n) → clear c heads (withRows d n) →
           ∀ i j, i < n → j < d.cols → (tileOf u t q (withRows d n)).code i j =
             if pFirst y.record ≤ v i ∧ v i - pFirst y.record < y.ids.length then
               (s.stagedSource t q tb y (v i - pFirst y.record)).1.getD j 0
             else 0)) ∧
     (∀ m c p, x.d = .treg m → s.cursorAt t q (k.value x false x.a).toNat true = some c →
       s.cursorParcel t c = some p → b.nullForCompute = false → gatherNull d x.ty b.tyN b.cols b.colMajor = false →
       s.canIssue t ⟨0x283, x⟩ = true → ready [x.b] → strict = false →
       let n := c.count (p.layerField c.layer 1)
       let v (i : Nat) : Nat := routeEntry s.stack p c.layer (c.next + i)
       let heads := headFlags (fun e => edgeField s.stack p c.layer (routeEntry s.stack p c.layer e) false) c.next n
       (0 < n → meetsWindow (withRows d n) b c.winRows = false) →
       ∃ u, exec (.gatherRoute t x) s = .next u ∧ moved u c n ∧
         (0 < n → writable s t q x (withRows d n) → clear c heads (withRows d n) →
           ∀ i j, i < n → j < d.cols → (tileOf u t q (withRows d n)).code i j =
             if c.winLo ≤ v i ∧ v i - c.winLo < c.winRows then
               (sourceRow (guarded (s.usable t 0) (s.core t q).mem) b.tyN b.cols b.colMajor b.base.toNat b.stride.toNat
                 b.scaleBase.toNat (v i - c.winLo)).1.getD j 0
             else 0)))

/-- Block-sparse masks (R219, R225): MASK.BIND with STATUS 0 keeps the mask in its slot and gives D the slot's number, with
another STATUS it empties the slot and gives 0, and a mask that the slot holds already is not built again; MERGE.BSR, while
the bind area is as MASK.BIND left it (R220), moves DENSE rows of B, or the values or the presence of blocks, into D. -/
def Obligations.MaskRows : Prop :=
  ∀ (t q : Nat) (x : Args) (s : State) (cx : Ctx), (s.team t).masked x.pred = [q] → s.kernelCtx t = some cx →
    settledGather s t q →
    let k := s.core t q
    let at_ := (k.value x false x.a).toNat
    let r := memRead (s.team t).cluster at_ 64
    let m := maskOfRecord s.stack at_ r (x.imm.getLsbD 0) (s.free + 1)
    let status := s.maskStatus t cx s.stack r m
    let held : Prop := ∃ y, mapGet (s.team t).masks (mSlot r) = some y ∧ y.addr = at_ ∧ y.generation = mGeneration r
    (∀ n, s.canIssue t ⟨0x289, x⟩ = true → x.d = .sreg n → at_ % 64 = 0 → at_ + 64 ≤ s.clusterBytes t →
      ∃ u, exec (.maskBind t x) s = .next u ∧
        (held → (u.core t q).getS n = BitVec.ofNat 64 (mSlot r) ∧ (u.team t).masks = (s.team t).masks ∧
          (u.team t).cluster = (s.team t).cluster) ∧
        (¬ held → status = 0 → (u.core t q).getS n = BitVec.ofNat 64 (mSlot r) ∧
          mapGet (u.team t).masks (mSlot r) = some m) ∧
        (¬ held → status ≠ 0 → (u.core t q).getS n = 0 ∧ mapGet (u.team t).masks (mSlot r) = none ∧
          memGet (u.team t).cluster (at_ + 3) = BitVec.ofNat 8 status) ∧
        ∀ j, j ≠ mSlot r → mapGet (u.team t).masks j = mapGet (s.team t).masks j) ∧
    (∀ n y c ch last, s.canIssue t ⟨0x288, x⟩ = true → x.d = .treg n →
      (∀ o, x.b = .treg o → o ∉ k.tileQueue) →
      s.blockCursorAt t q at_ = some c → mapGet (s.team t).masks (x.imm.toNat % 256) = some y →
      (c.dir = true → y.transposed = true) → y.cursorChunk c q = some (ch, last) →
      y.recordsIntact (s.team t).cluster = true → x.mod.getLsbD 6 = false →
      let b := k.tile x.b
      let d := k.tile x.d
      let kcols := ch.union.length * y.block
      let d1 := withRows d (if c.part = 0 then kcols else 32)
      mergeNull x y c kcols d b = false → writable s t q x d1 → s.coreOutside t b = false →
      (∀ e ∈ blockCursorCells c ch last kcols, ∀ f ∈ d1.extents, e.1 < f.1 ∨ f.1 + f.2 ≤ e.1) →
      ∃ u, exec (.mergeBsr t x) s = .next u ∧ (u.core t q).tile x.d = d1 ∧
        ∀ i j, i < d1.rows → j < d1.cols → (tileOf u t q d1).code i j =
          (if c.part = 0 then
            (match y.windowRow c ch i with
             | some row => (sourceRow (guarded (s.usable t 0) (s.core t q).mem) b.tyN b.cols b.colMajor b.base.toNat
                 b.stride.toNat b.scaleBase.toNat row).1.getD j 0
             | none => 0)
          else if c.part = 1 then (y.valueAt s.stack c.dir ch i j).1
          else if ((y.blockOf c.dir ch i j).1, (y.blockOf c.dir ch i j).2.1) ∈ y.kept then 1 else 0) %
            2 ^ elemBits d1.tyN)

/-! ### Team requests and the engines of a cluster -/

/-- The sampler's rows (R164, R263, R274 to R276) complete in every state in which they issue: a SAMPLE of a stream with
SAMPLER joins the sampler's queue; PARCEL.INFO, once no SAMPLE is queued before it, answers the selector's value, and
PARCEL.FREE frees the slot, or has it freed when the parcel in progress completes; without SAMPLER, or with a handle that
names no live parcel, D is zero; with no mask true the pc alone moves on. -/
def Obligations.SamplerRows : Prop :=
  ∀ (t : Nat) (x : Args) (s : State),
    let some_ (q : Nat) : Prop := ((s.team t).masked x.pred).head? = some q
    let none_ : Prop := (s.team t).masked x.pred = []
    let on : Prop := s.streamFlag t 1 = true
    let idle : Prop := (s.team t).sampler.queue = []
    let h (q : Nat) : W64 := (s.core t q).value x false x.a
    let live (q : Nat) (p : Parcel) : Prop := on ∧ s.parcelOf t (h q) = some p
    (s.canIssue t ⟨0x300, x⟩ = true →
      (∀ q, some_ q → on → ∃ u, exec (.sampleUniform t x) s = .next u ∧ joinsSampler s u t q ⟨0x300, x⟩) ∧
      (∀ q, some_ q → ¬ on → ∃ u, exec (.sampleUniform t x) s = .next u ∧ refused s u t ⟨0x300, x⟩) ∧
      (none_ → ∃ u, exec (.sampleUniform t x) s = .next u ∧ passedOver s u t)) ∧
    (s.canIssue t ⟨0x301, x⟩ = true →
      (∀ q, some_ q → on → ∃ u, exec (.sampleWeighted t x) s = .next u ∧ joinsSampler s u t q ⟨0x301, x⟩) ∧
      (∀ q, some_ q → ¬ on → ∃ u, exec (.sampleWeighted t x) s = .next u ∧ refused s u t ⟨0x301, x⟩) ∧
      (none_ → ∃ u, exec (.sampleWeighted t x) s = .next u ∧ passedOver s u t)) ∧
    (s.canIssue t ⟨0x302, x⟩ = true →
      (∀ q, some_ q → on → ∃ u, exec (.sampleRecent t x) s = .next u ∧ joinsSampler s u t q ⟨0x302, x⟩) ∧
      (∀ q, some_ q → ¬ on → ∃ u, exec (.sampleRecent t x) s = .next u ∧ refused s u t ⟨0x302, x⟩) ∧
      (none_ → ∃ u, exec (.sampleRecent t x) s = .next u ∧ passedOver s u t)) ∧
    (s.canIssue t ⟨0x303, x⟩ = true →
      (∀ q, some_ q → on → ∃ u, exec (.sampleWalk t x) s = .next u ∧ joinsSampler s u t q ⟨0x303, x⟩) ∧
      (∀ q, some_ q → ¬ on → ∃ u, exec (.sampleWalk t x) s = .next u ∧ refused s u t ⟨0x303, x⟩) ∧
      (none_ → ∃ u, exec (.sampleWalk t x) s = .next u ∧ passedOver s u t)) ∧
    (s.canIssue t ⟨0x308, x⟩ = true → idle →
      (∀ q p, some_ q → live q p → ∃ u, exec (.parcelInfo t x) s = .next u ∧
        gives s u t ⟨0x308, x⟩ (BitVec.ofNat 64 (p.info (x.imm.toNat % 16))) ∧
        u = { s with free := s.free + 1, teams := u.teams } ∧ teamMovedOn s u t) ∧
      (∀ q, some_ q → (∀ p, ¬ live q p) → ∃ u, exec (.parcelInfo t x) s = .next u ∧ refused s u t ⟨0x308, x⟩) ∧
      (none_ → ∃ u, exec (.parcelInfo t x) s = .next u ∧ passedOver s u t)) ∧
    (s.canIssue t ⟨0x309, x⟩ = true → idle →
      (∀ q p, some_ q → live q p → ∃ u, exec (.parcelFree t x) s = .next u ∧
        (u.team t).sampler = { (s.team t).sampler with slots := (u.team t).sampler.slots } ∧
        mapGet (u.team t).sampler.slots (handleSlot (h q)) =
          (if p.complete then none else some { p with freeing := true }) ∧
        (∀ j, j ≠ handleSlot (h q) → mapGet (u.team t).sampler.slots j = mapGet (s.team t).sampler.slots j) ∧
        u = { s with free := s.free + 1, teams := u.teams } ∧ (∀ j, j ≠ t → u.team j = s.team j) ∧
        ∀ j, u.core t j = s.core t j) ∧
      (∀ q, some_ q → (∀ p, ¬ live q p) → ∃ u, exec (.parcelFree t x) s = .next u ∧ refused s u t ⟨0x309, x⟩) ∧
      (none_ → ∃ u, exec (.parcelFree t x) s = .next u ∧ passedOver s u t))

/-- The row engine's rows (R289 to R291, R293, R305) complete in every state in which they issue: a TBL.PREFETCH that acts
takes the lowest free slot and D its handle; TBL.RELEASE frees a staged handle, and one still staging when its staging is
complete; TBL.VERSION answers the word of its table. What names nothing live gives D zero and changes no slot; with no mask
true the pc alone moves on. -/
def Obligations.RowEngineRows : Prop :=
  ∀ (t : Nat) (x : Args) (s : State) (c : W32) (cx : Ctx), s.holderOf t = (c, some cx) →
    let some_ (q : Nat) : Prop := ((s.team t).masked x.pred).head? = some q
    let none_ : Prop := (s.team t).masked x.pred = []
    let a (q : Nat) : W64 := (s.core t q).value x false x.a
    let s1 := s.bumpFree
    let acts (q : Nat) (tb : Table) (slot : Nat) (y : RowSlot) : Prop :=
      ∃ r, s1.requestRecord t .re (a q) 64 = some r ∧ pTable r < 64 ∧ mapGet cx.tables (pTable r) = some tb ∧
        prefetchOk tb r = true ∧ (s.team t).rows.freeSlot = some slot ∧
        s1.beginPrefetch t q c cx (a q).toNat tb r = some y
    (s.canIssue t ⟨0x340, x⟩ = true →
      (∀ q tb slot y, some_ q → acts q tb slot y → ∃ u, exec (.tblPrefetch t x) s = .next u ∧
        (u.team t).rows = { (s.team t).rows with
          slots := (u.team t).rows.slots, count := (s.team t).rows.count + 1, order := (s.team t).rows.order + 1 } ∧
        mapGet (u.team t).rows.slots slot = some y ∧
        (∀ j, j ≠ slot → mapGet (u.team t).rows.slots j = mapGet (s.team t).rows.slots j) ∧
        gives s u t ⟨0x340, x⟩ (handleOf slot y.count t) ∧
        u = { s with free := s.free + 1, teams := u.teams, ctxs := u.ctxs, unfenced := u.unfenced } ∧
        ∀ j, j ≠ t → u.team j = s.team j) ∧
      (∀ q, some_ q → (∀ tb slot y, ¬ acts q tb slot y) →
        ∃ u, exec (.tblPrefetch t x) s = .next u ∧ refused s u t ⟨0x340, x⟩) ∧
      (none_ → ∃ u, exec (.tblPrefetch t x) s = .next u ∧ passedOver s u t)) ∧
    (s.canIssue t ⟨0x341, x⟩ = true →
      (∀ q y, some_ q → s.rowOf t (a q) = some y → ∃ u, exec (.tblRelease t x) s = .next u ∧
        (u.team t).rows = { (s.team t).rows with slots := (u.team t).rows.slots } ∧
        mapGet (u.team t).rows.slots (handleSlot (a q)) =
          (if y.phase = .staged then none else some { y with releasing := true }) ∧
        (∀ j, j ≠ handleSlot (a q) → mapGet (u.team t).rows.slots j = mapGet (s.team t).rows.slots j) ∧
        u = { s with free := s.free + 1, teams := u.teams } ∧ (∀ j, j ≠ t → u.team j = s.team j) ∧
        ∀ j, u.core t j = s.core t j) ∧
      (∀ q, some_ q → s.rowOf t (a q) = none →
        ∃ u, exec (.tblRelease t x) s = .next u ∧ refused s u t ⟨0x341, x⟩) ∧
      (none_ → ∃ u, exec (.tblRelease t x) s = .next u ∧ passedOver s u t)) ∧
    (s.canIssue t ⟨0x342, x⟩ = true →
      (∀ q tb, some_ q → s.table c (a q).toNat = some tb → ∃ u, exec (.tblVersion t x) s = .next u ∧
        gives s u t ⟨0x342, x⟩ (packFields [(0, 32, tb.version.toNat), (32, 4, tb.stripes),
          (36, 1, natOf tb.pending.isSome), (37, 1, natOf tb.mirrorLost), (38, 1, natOf tb.inPause)]) ∧
        u = { s with free := s.free + 1, teams := u.teams } ∧ teamMovedOn s u t) ∧
      (∀ q, some_ q → s.table c (a q).toNat = none →
        ∃ u, exec (.tblVersion t x) s = .next u ∧ refused s u t ⟨0x342, x⟩) ∧
      (none_ → ∃ u, exec (.tblVersion t x) s = .next u ∧ passedOver s u t))

/-- The update engine's rows (R301, R332, R333, R338, R341) complete in every state in which they issue: a request that acts
joins its queue with the group entry's curve values at its step; an UPD.NORM that meets R338 is awaited until its sum is
complete; an UPD.ROWS whose handle still waits for its parcel waits. Else D is zero and no queue changes; with no mask true
the pc alone moves on. (The D of a request that acts is free: notes/assumptions/15.md.) -/
def Obligations.UpdateRows : Prop :=
  ∀ (t : Nat) (x : Args) (s : State) (c : W32) (cx : Ctx), s.holderOf t = (c, some cx) →
    let some_ (q : Nat) : Prop := ((s.team t).masked x.pred).head? = some q
    let none_ : Prop := (s.team t).masked x.pred = []
    let a (q : Nat) : W64 := (s.core t q).value x false x.a
    let s1 := s.bumpFree
    let on : Prop := s.streamFlag t 2 = true
    let tensor (q : Nat) (y : UpdReq) : Prop :=
      ∃ r, s1.requestRecord t .ue (a q) 128 = some r ∧
        let e := s1.groupEntry t cx (tGroup r)
        on ∧ s1.tensorOk c cx r e = true ∧ s1.tooLate c (tBarrier r) (tStep r) = false ∧
        y = takenRequest false q c (s.launchSeq t) (a q).toNat r e []
    let rows (q : Nat) (y : UpdReq) : Prop :=
      ∃ r tb z, s1.requestRecord t .ue (a q) 64 = some r ∧ mapGet cx.tables (rTable r) = some tb ∧
        s.rowOf t (BitVec.ofNat 64 (rHandle r)) = some z ∧
        let e := s1.groupEntry t cx (rGroup r)
        on ∧ s1.rowsOk t c cx tb z r e = true ∧ s1.tooLate c (rBarrier r) (rStep r) = false ∧
        y = { takenRequest true q c (s.launchSeq t) (a q).toNat r e z.ids with
          gone := (s1.skippedOf c (rTable r) (BitVec.ofNat 64 (rStep r))).map Prod.fst }
    let norm (q : Nat) (r : List Byte) : Prop :=
      s1.requestRecord t .ue (a q) 64 = some r ∧ on ∧ s1.normOk cx r = true
    let taken (u : State) (w : LumfyWord) (y : UpdReq) : Prop :=
      (u.team t).upd = { (s.team t).upd with queue := (s.team t).upd.queue ++ [y] } ∧ (∃ v, gives s u t w v) ∧
      u = { s with free := s.free + 1, teams := u.teams, ctxs := u.ctxs, unfenced := u.unfenced } ∧
      ∀ j, j ≠ t → u.team j = s.team j
    (s.canIssue t ⟨0x380, x⟩ = true →
      (∀ q y, some_ q → tensor q y → ∃ u, exec (.updTensor t x) s = .next u ∧ taken u ⟨0x380, x⟩ y) ∧
      (∀ q, some_ q → (∀ y, ¬ tensor q y) → ∃ u, exec (.updTensor t x) s = .next u ∧ refused s u t ⟨0x380, x⟩) ∧
      (none_ → ∃ u, exec (.updTensor t x) s = .next u ∧ passedOver s u t)) ∧
    (s.canIssue t ⟨0x381, x⟩ = true →
      (s.rowsWait t x = true → exec (.updRows t x) s = .next s) ∧
      (s.rowsWait t x = false →
        (∀ q y, some_ q → rows q y → ∃ u, exec (.updRows t x) s = .next u ∧ taken u ⟨0x381, x⟩ y) ∧
        (∀ q, some_ q → (∀ y, ¬ rows q y) → ∃ u, exec (.updRows t x) s = .next u ∧ refused s u t ⟨0x381, x⟩)) ∧
      (none_ → ∃ u, exec (.updRows t x) s = .next u ∧ passedOver s u t)) ∧
    (s.canIssue t ⟨0x382, x⟩ = true →
      (∀ q r, some_ q → norm q r → ∃ u, exec (.updNorm t x) s = .next u ∧
        (u.team t).upd = { (s.team t).upd with
          norms := (s.team t).upd.norms ++ [⟨⟨0x382, x⟩, q, s.free + 1, (a q).toNat, r, s.stackLog.length⟩] } ∧
        awaits s u t ⟨0x382, x⟩ ∧ u = { s with free := s.free + 1, teams := u.teams } ∧
        ∀ j, j ≠ t → u.team j = s.team j) ∧
      (∀ q, some_ q → (∀ r, ¬ norm q r) → ∃ u, exec (.updNorm t x) s = .next u ∧ refused s u t ⟨0x382, x⟩) ∧
      (none_ → ∃ u, exec (.updNorm t x) s = .next u ∧ passedOver s u t))

/-- What an engine of a cluster does as it works (R263, R273, R292, R294, R297, R298, R338, R341, R342): the sampler takes its
next request once no parcel is in progress, and its parcel is complete with its header in BUF; the row engine takes the
request with the earliest DEADLINE, and its rows are then staged; the update engine begins the request at the head of its
queue, and applies it; migrations drain, swap and go on. -/
def Obligations.EngineEvents : Prop :=
  ∀ (t : Nat) (s : State),
    (∀ u rest, (s.team t).sampler.queue = u :: rest → (s.team t).sampler.busy = false →
      ∃ v, exec (.samplerTakeRequest t) s = .next v ∧ (v.team t).sampler.queue = rest ∧
        (∀ c cx r g, s.holderOf t = (c, some cx) → s.bumpFree.requestRecord t .sa u.a 128 = some r →
          s.bumpFree.sampleReady t c cx (modeOf u.word.code) u.b.toNat r = some g →
          ∃ p, mapGet (v.team t).sampler.slots (s.team t).sampler.freeSlot = some p ∧ p.count = (s.team t).sampler.count + 1 ∧
            p.ctx = c ∧ p.mode = modeOf u.word.code ∧ p.record = r ∧ p.complete = false ∧
            ∀ q < 16, answered s v t q u.tag (handleOf (s.team t).sampler.freeSlot p.count t)) ∧
        (∀ c cx r, s.holderOf t = (c, some cx) → s.bumpFree.requestRecord t .sa u.a 128 = some r →
          s.bumpFree.sampleReady t c cx (modeOf u.word.code) u.b.toNat r = none →
          (v.team t).sampler.slots = (s.team t).sampler.slots ∧ ∀ q < 16, answered s v t q u.tag 0)) ∧
    (∀ i p, (s.team t).sampler.slots.find? (fun y => !y.2.complete) = some (i, p) → p.freeing = false →
      ∃ v y, exec (.parcelComplete t) s = .next v ∧ mapGet (v.team t).sampler.slots i = some y ∧ y.complete = true ∧
        y.header = (s.bumpFree.drawn t p).2 ∧ y.record = p.record) ∧
    (∀ y, s.nextStaging t = some y →
      ∃ v z, exec (.stagingStart t) s = .next v ∧ mapGet (v.team t).rows.slots y.1 = some z ∧ z.phase = .staging ∧
        z.ids = y.2.ids ∧ (∀ tb, s.table y.2.ctx (pTable y.2.record) = some tb → z.version = tb.version) ∧
        v = { s with teams := v.teams } ∧
        ((∀ w ∈ (s.team t).rows.slots, w.2.order < 2 ^ 64) →
          ∀ w ∈ (s.team t).rows.slots, w.2.phase = .queued → s.paused w.2.ctx (pTable w.2.record) = false →
            pDeadline y.2.record < pDeadline w.2.record ∨
              (pDeadline y.2.record = pDeadline w.2.record ∧ y.2.order ≤ w.2.order))) ∧
    (∀ slot x tb, mapGet (s.team t).rows.slots slot = some x → x.phase = .staging → x.releasing = false →
      s.table x.ctx (pTable x.record) = some tb →
      ∃ v y, exec (.stagingComplete t slot) s = .next v ∧ mapGet (v.team t).rows.slots slot = some y ∧ y.phase = .staged ∧
        y.ids = x.ids ∧ y.dropped = (x.ids.filter fun i => decide (tb.rows ≤ i)).length) ∧
    (∀ slot x, mapGet (s.team t).rows.slots slot = some x → x.phase ≠ .staged → x.late = false → pDeadline x.record ≠ 0 →
      pDeadline x.record ≤ s.postmark.toNat → s.inTurn 6 = true →
      ∃ v, exec (.prefetchDeadline t slot) s = .next v ∧ v.time.late = s.time.late + 1 ∧
        mapGet (v.team t).rows.slots slot = some { x with late := true }) ∧
    (∀ u rest k, (s.team t).upd.queue = u :: rest → u.begun = none → s.beginState u = .go k →
      ∃ b, exec (.updateRequestBegin t) s = .next (s.modTeam t fun y => { y with
          upd := { y.upd with queue := b :: rest } }) ∧
        b = { u with eta := b.eta, lambda := b.lambda, beta1 := b.beta1, beta2 := b.beta2, begun := b.begun,
                     since := s.stackLog.length } ∧ b.begun.isSome = true ∧
        ((∀ l, s.launchOf u = some l → l.skip = []) →
          b = { u with begun := some k, since := s.stackLog.length })) ∧
    (∀ u rest, (s.team t).upd.queue = u :: rest → u.begun = none → s.beginState u = .wait →
      exec (.updateRequestBegin t) s = .next s) ∧
    (∀ u rest, (s.team t).upd.queue = u :: rest → u.begun = none → s.beginState u = .late →
      ∃ v, exec (.updateRequestBegin t) s = .next v ∧ (v.team t).upd.queue = rest ∧ v.stack = s.stack) ∧
    (∀ u rest k, (s.team t).upd.queue = u :: rest → u.rows = false → u.held = false → u.begun = some k →
      ∃ v, exec (.updateRequestComplete t) s = .next v ∧ (v.team t).upd.queue = rest ∧
        v.regs.updRequests = s.regs.updRequests + 1 ∧ (k.reason ≠ 0 → v.stack = s.stack)) ∧
    (∀ u rest, (s.team t).upd.norms = u :: rest →
      let r := u.record
      let sum := f32Code (normSum (gradAt (s.streamView ⟨t, none, .ue, none⟩ u.since) (fieldAt r 0 1) (fieldAt r 0x10 8))
        (fieldAt r 8 8) (f32 (fieldAt r 4 4)))
      ∃ v, exec (.updNormComplete t) s = .next v ∧ (v.team t).upd.norms = rest ∧
        ∀ q < 16, answered s v t q u.tag (sum.zeroExtend 64)) ∧
    (∀ choice, 2 ^ s.regs.windowLog2 ≤ (s.team t).rows.inWindow →
      let ahead := (s.team t).rows.ahead
      ∃ v, exec (.placementWindowEnd t choice) s = .next v ∧
        (v.team t).rows.inWindow = min (2 ^ s.regs.windowLog2) ahead.length ∧
        (v.team t).rows.ahead = ahead.drop (2 ^ s.regs.windowLog2) ∧ (ahead = [] → (v.team t).rows.lookups = []) ∧
        (v.team t).rows.hot = (s.team t).rows.hot ∧ v = { s with teams := v.teams } ∧
        (∀ y r, s.regs.placeOn = true → (s.team t).rows.migration = none → s.placeOk t choice = true →
          choice.demote = y :: r → (v.team t).rows.migration = some ⟨y.1, y.2, false, false, []⟩)) ∧
    (∀ m, (s.team t).rows.migration = some m →
      (m.copying = false → ∃ v, exec (.migrationDrained t) s = .next v ∧
        (v.team t).rows = { (s.team t).rows with migration := some { m with copying := true } } ∧
        v = { s with teams := v.teams }) ∧
      (m.copying = true → ∃ v, exec (.migrationSwapped t) s = .next v ∧
        v.regs.migrations = s.regs.migrations + 1 ∧ v.stack = s.stack ∧
        (m.promote = false → ∀ h ∈ (v.team t).rows.hot, ¬ (h.table = m.table ∧ h.row = m.row)) ∧
        (∀ tb, m.promote = true → s.table (s.ownerOf t) m.table = some tb →
          ⟨m.table, m.row, m.queue.getLast?.getD
            (memRead (s.engineView t .re .stack) (tb.rowAddr m.row) tb.value)⟩ ∈ (v.team t).rows.hot)))

/-! ### Sync units, fences and barriers -/

/-- Counters (R351, R354 to R358, R364): SIGNAL.ADD and SIGNAL.SUB move VALUE by B and evaluate the object; a VALUE out of
range faults the launch and stays; SYNC.INIT sets VALUE, clears POISONED and claims a free hub object; WATCH registers, and completes behind the core's earlier instructions
of its unit (R119), or on a poisoned object answers status 0x0202 and faults; a handle that names no object of the context does not act. A fence whose core has
nothing left uncompleted makes the core's writes visible in its scope. The evaluation of R359 stops with no plain watch met
and the oldest claim unserved; claims are served strictly in registration order; what they take is what VALUE loses; no
watch is lost or made. -/
def Obligations.SyncObjectRows : Prop :=
  (∀ (t q : Nat) (x : Args) (s : State) (c : W32) (cx : Ctx), (s.team t).masked x.pred = [q] → s.holderOf t = (c, some cx) →
      let k := s.core t q
      let h := k.value x false x.a
      let b := (k.value x false x.b).toInt
      let after (u : SyncUnit) (i v : Nat) : Nat :=
        (evalLoop (((s.watchesOf u).filter fun w => w.obj == i).length + 1) v ((s.watchesOf u).filter fun w => w.obj == i) []).1
      (∀ r ∈ [((fun t x => Instr.signalAdd t x), 0x3C0, b), ((fun t x => Instr.signalSub t x), 0x3C1, -b)],
        s.canIssue t ⟨r.2.1, x⟩ = true →
        ∃ v, exec (r.1 t x) s = .next v ∧ syncFrame s v x ∧
          (∀ u i, s.resolve c cx h false = .here u i → noneAdmitted s u →
            let o := s.obj u i
            (o.poisoned = false → 0 ≤ (o.value : Int) + r.2.2 → (o.value : Int) + r.2.2 ≤ 2147483647 → r.2.2 ≠ 0 →
              v.obj u i = ⟨after u i ((o.value : Int) + r.2.2).toNat, false⟩ ∧
              (∀ j, j ≠ i → v.obj u j = s.obj u j) ∧
              ∃ y, v.ctx c = some y ∧ y.counters = cx.counters ∧ y.launches = cx.launches) ∧
            (o.poisoned = false → r.2.2 = 0 → o.value ≤ 2147483647 → v.obj u i = o ∧ v.ctxs = s.ctxs) ∧
            (o.poisoned = false → (o.value : Int) + r.2.2 < 0 → v.obj u i = o ∧ faultedBy s v t q c cx .syncUnderflow) ∧
            (o.poisoned = false → 2147483647 < (o.value : Int) + r.2.2 → v.obj u i = o ∧ faultedBy s v t q c cx .syncOverflow) ∧
            (o.poisoned = true → v.obj u i = o ∧ faultedBy s v t q c cx .ownerLost)) ∧
          (s.resolve c cx h false = .bad → notActing s v c cx)) ∧
      (s.canIssue t ⟨0x3C2, x⟩ = true → s.initWaits t q h = true → exec (.syncInit t x) s = .next s) ∧
      (s.canIssue t ⟨0x3C2, x⟩ = true → s.initWaits t q h = false →
        ∃ v, exec (.syncInit t x) s = .next v ∧ syncFrame s v x ∧
          (initInRange (hBarrier h) b = false → notActing s v c cx) ∧
          (initInRange (hBarrier h) b = true → handleOk h = true → hHub h = true → hPostcode h = 0xFFFF →
            mapGet s.hub (hIndex h) = none → hIndex h / 16384 ∈ partDies cx.partition →
            ∃ o, mapGet v.hub (hIndex h) = some o ∧ o.owner = c ∧ o.barrier = hBarrier h) ∧
          (∀ u i, s.resolve c cx h false = .here u i → noneAdmitted s u → hBarrier h = false → 0 ≤ b → b ≤ 2147483647 →
            v.obj u i = ⟨after u i b.toNat, false⟩) ∧
          (∀ i o, s.resolve c cx h true = .here .hub i → mapGet s.hub i = some o → 1 ≤ b → b ≤ 65535 →
            (∀ y ∈ s.fabric.arriving, y.1 = i → y.2.fromCore t q = false) →
            mapGet v.hub i = some { o with
              expected := b.toNat, tally := [], last := none, released := none, poisoned := false })) ∧
      (∀ r ∈ [((fun t x => Instr.watchGe t x), 0x3C8, WatchKind.ge), ((fun t x => Instr.watchEq t x), 0x3C9, WatchKind.eq),
          ((fun t x => Instr.watchClaim t x), 0x3CA, WatchKind.claim)],
        s.canIssue t ⟨r.2.1, x⟩ = true →
        let first : Prop := ∀ y ∈ k.awaited, y.unit ≠ unitOf r.2.1
        let gets (v : State) (a : W64) : Prop :=
          (first → ∀ n, x.d = .sreg n → (v.core t q).getS n = a) ∧
          ((∃ y ∈ k.awaited, y.unit = unitOf r.2.1 ∧ y.answer = none) →
            ∃ y ∈ (v.core t q).awaited, y.tag = s.free + 1 ∧ y.dest = x.d ∧ y.answer = some a)
        (∀ y ∈ k.awaited, y.tag < s.free) →
        ∃ v, exec (r.1 t x) s = .next v ∧ syncFrame s v x ∧
          (b < r.2.2.least ∨ 2147483647 < b ∨ s.resolve c cx h false = .bad → notActing s v c cx ∧ gets v 0) ∧
          (∀ u i, s.resolve c cx h false = .here u i → r.2.2.least ≤ b → b ≤ 2147483647 → s.waitingOf u = [] →
            (s.watchesOf u).length < u.room →
            let o := s.obj u i
            let w : Watch := ⟨i, r.2.2, b.toNat, c, .core t q (s.free + 1)⟩
            (o.poisoned = false → ((s.watchesOf u).filter fun w => w.obj == i) = [] →
              (w.met o.value = true → v.obj u i = o ∧ gets v (replyWord 0 o.value)) ∧
              (r.2.2 = .claim → b.toNat ≤ o.value →
                v.obj u i = ⟨o.value - b.toNat, false⟩ ∧ gets v (replyWord 0 (o.value - b.toNat))) ∧
              (w.met o.value = false → (r.2.2 = .claim → o.value < b.toNat) →
                v.obj u i = o ∧ w ∈ v.watchesOf u ∧
                ∃ y ∈ (v.core t q).awaited, y.tag = s.free + 1 ∧ y.dest = x.d ∧ y.answer = none)) ∧
            (o.poisoned = true → v.obj u i = o ∧
              (first → ∀ n, x.d = .sreg n → (v.core t q).getS n = replyWord 0x0202 o.value) ∧
              faultedBy s v t q c cx .ownerLost))) ∧
      (∀ r ∈ [((fun t x => Instr.fenceLocal t x), 0x3D0, Scope.local_), ((fun t x => Instr.fenceModule t x), 0x3D1, Scope.module),
          ((fun t x => Instr.fenceFabric t x), 0x3D2, Scope.fabric)],
        s.canIssue t ⟨r.2.1, x⟩ = true →
        (k.awaited = [] → k.tileQueue = [] →
          ∃ v, exec (r.1 t x) s = .next v ∧ teamMovedOn s v t ∧
            v = { s with free := s.free + 1, teams := v.teams, unfenced := s.unfenced.map fun e => e.fence t q r.2.2 } ∧
            (∀ e ∈ v.unfenced, e.team = t → e.core = q → e.localDone = true ∧ (r.2.2 ≠ .local_ → e.moduleDone = true))) ∧
        (¬ (k.awaited = [] ∧ k.tileQueue = []) → exec (r.1 t x) s = .next s))) ∧
  (∀ (v : Nat) (ws : List Watch),
      let r := evalLoop (ws.length + 1) v ws []
      let isClaim (w : Watch) : Bool := w.kind == .claim
      let served := r.2.2.map Prod.fst
      (∀ w ∈ r.2.1, w.met r.1 = false) ∧
      (∀ w, r.2.1.find? isClaim = some w → r.1 < w.n) ∧
      served.filter isClaim ++ r.2.1.filter isClaim = ws.filter isClaim ∧
      r.1 + ((served.filter isClaim).map Watch.n).foldl (· + ·) 0 = v ∧
      (served ++ r.2.1).Perm ws ∧
      (∀ x ∈ r.2.2, isClaim x.1 = false → x.1.met x.2 = true) ∧ (∀ x ∈ r.2.2, x.2 ≤ v ∧ r.1 ≤ x.2))

/-- The commit barrier (R339, R340, R354, R361 to R363, R425, R430): COMMIT.ARRIVE sends its record to the home, or holds it
while a mirror write is open or still to come from a set that has begun, or the home is lost; an arrival joins the tally; a full tally that agrees is released at its
postmark with G2 and N, one that does not agree faults every launch in it; a new home adopts the relayed release of the
pending step, or voids it. -/
def Obligations.CommitBarrier : Prop :=
  (∀ (t q : Nat) (x : Args) (s : State) (c : W32) (cx : Ctx), (s.team t).masked x.pred = [q] → s.holderOf t = (c, some cx) →
    s.canIssue t ⟨0x3D8, x⟩ = true →
    let h := (s.core t q).value x false x.a
    let rec_ := s.bumpFree.arrivalRecord t q ((s.core t q).value x false x.b).toNat
    let epoch : W16 := match s.role (s.postcodeOf c) with | some e => e.epoch | none => 0
    ∃ v, exec (.commitArrive t x) s = .next v ∧ syncFrame s v x ∧
      (s.resolve c cx h true = .bad ∨ rec_ = none →
        notActing s v c cx ∧ ((∀ y ∈ (s.core t q).awaited, y.unit ≠ unitOf 0x3D8) →
          ∀ n, x.d = .sreg n → (v.core t q).getS n = 0)) ∧
      (∀ r, rec_ = some r →
        let a := arrivalOf (s.postcodeOf c) epoch t q (.core t q (s.free + 1)) c r
        let waits : Prop := ∃ y ∈ (v.core t q).awaited, y.tag = s.free + 1 ∧ y.dest = x.d ∧ y.answer = none
        let mirrors : Prop := s.mirroring c = true ∨ s.mirrorsAhead c = true
        (∀ i, s.resolve c cx h true = .here .hub i → ¬ mirrors →
          v.fabric = { s.fabric with arriving := s.fabric.arriving ++ [(i, a)] } ∧ waits) ∧
        (∀ pc g, s.resolve c cx h true = .away pc g → pc ≠ 0xFFFF → ¬ mirrors → s.lost pc = false → (s.route pc).isSome = true →
          waits ∧ ∃ m, v.fabric.remote = s.fabric.remote ++ [m] ∧ m.dest = pc ∧ m.work = .arrive (s.free + 1) (hIndex h) a false) ∧
        (∀ i, s.resolve c cx h true = .here .hub i → mirrors →
          waits ∧ ∃ m, v.fabric = { s.fabric with remote := s.fabric.remote ++ [m] } ∧
            m.work = .arrive (s.free + 1) i a true) ∧
        (∀ pc g, s.resolve c cx h true = .away pc g → pc ≠ 0xFFFF → mirrors ∨ s.lost pc = true →
          waits ∧ ∃ m, v.fabric = { s.fabric with remote := s.fabric.remote ++ [m] } ∧ m.dest = pc ∧
            m.work = .arrive (s.free + 1) (hIndex h) a true))) ∧
  (∀ (i : Nat) (a : Arrival) (s : State) (o : HubObj), s.fabric.arriving.find? (fun x => x.1 == i) = some (i, a) →
    mapGet s.hub i = some o → o.barrier = true → o.poisoned = false →
    let all_ := o.tally ++ [a]
    let o1 : HubObj := { o with tally := all_, absent := o.absent.filter fun x => !leaves a x }
    ∃ v, exec (.barrierArrival i) s = .next v ∧
      v.fabric.arriving = eraseFirst (fun x => x.1 == i) s.fabric.arriving ∧
      (o.relay.isSome = true ∨ all_.length < o1.needed →
        mapGet v.hub i = some o1 ∧ (∀ j, j ≠ i → mapGet v.hub j = mapGet s.hub j) ∧ v.teams = s.teams) ∧
      (o.relay = none → o1.needed ≤ all_.length → agree all_ = true →
        ∃ o2, mapGet v.hub i = some o2 ∧ o2.tally = [] ∧ o2.last = some (releaseOf all_) ∧ o2.lastAt = s.releaseAt ∧
          o2.lastTo = all_ ∧ o2.placed = o.placed ++ [⟨releaseOf all_, s.releaseAt, all_⟩] ∧ v.teams = s.teams ∧
          ∀ j, j ≠ i → mapGet v.hub j = mapGet s.hub j) ∧
      (o.relay = none → o1.needed ≤ all_.length → agree all_ = false → (∀ w ∈ s.hubWaiting, w.obj ≠ i) →
        mapGet v.hub i = some { o1 with tally := [] } ∧ v.regs.updMismatch = s.regs.updMismatch + 1 ∧
        ∀ b ∈ all_, ∀ t q tag, b.whom = .core t q tag → ∀ k, (s.team t).kernel = some k →
          (s.team t).awaits q tag = true → ∃ m, (v.team t).kernel = some m ∧ m.stopped = true)) ∧
  (∀ (l : List Arrival) (a : Arrival) (r : List Arrival), l = a :: r → agree l = true →
    (releaseOf l).step = a.step ∧
    (releaseOf l).n.toNat = min 0xFFFFFFFF ((l.map fun b => b.count.toNat).foldl (· + ·) 0) ∧
    ∃ o : List Arrival, o.Perm l ∧ o.Pairwise (fun b c => b.key ≤ c.key) ∧ (releaseOf l).g2 = o.foldl (fun g b => sumF32 g b.norm2) 0) ∧
  (∀ (s : State), s.time.active = none → s.releaseAt = s.postmark + 2000) ∧
  (∀ (s : State) (c : Schedule), s.time.active = some c → c.start.toNat ≤ s.postmark.toNat → s.postmark.toNat < 2 ^ 63 →
    let p := s.postmark.toNat + if c.lead = 0 then 2000 else c.lead
    p < 2 ^ 63 → p ≤ s.releaseAt.toNat ∧ s.releaseAt.toNat < p + 64 ∧ (s.releaseAt.toNat - c.start.toNat) % 64 = 0) ∧
  (∀ (i : Nat) (s : State) (o : HubObj) (p : Placed), mapGet s.hub i = some o →
    o.placed.filter (fun p => decide (p.at_.toNat ≤ s.postmark.toNat)) = [p] →
    (∀ x ∈ s.fabric.releases, x.index = i → s.postmark.toNat < x.at_.toNat) → s.inTurn 4 = true →
    ∃ v, exec (.barrierRelease i) s = .next v ∧
      mapGet v.hub i = some { o with placed := o.placed.filter (fun p => !decide (p.at_.toNat ≤ s.postmark.toNat))
                                     released := some p.release } ∧
      ∀ a ∈ p.arrivals, ∀ t q tag, a.whom = .core t q tag → answered s v t q tag (releaseWord p.release)) ∧
  (∀ (i : Nat) (s : State) (x : Incoming), mapGet s.hub i = none →
    s.fabric.releases.filter (fun x => x.index == i && decide (x.at_.toNat ≤ s.postmark.toNat)) = [x] → s.inTurn 4 = true →
    ∃ v, exec (.barrierRelease i) s = .next v ∧
      mapGet v.fabric.lastRel (relKeyOf x.entry.ctx x.entry.dest i) = some x.release ∧ x ∉ v.fabric.releases ∧
      answered s v x.entry.team x.entry.core x.tag (releaseWord x.release)) ∧
  (∀ (i : Nat) (r : Release) (s : State) (o : HubObj) (d : W64), mapGet s.hub i = some o → o.relay = some d →
    (s.postmark.toNat < d.toNat →
      exec (.releaseRelay i r) s = .next { s with hub := mapPut s.hub i { o with relayed := o.relayed ++ [r] } }) ∧
    (d.toNat ≤ s.postmark.toNat →
      exec (.releaseRelay i r) s = .next s ∧
      ∃ v, exec (.homeRelayWindowEnd i) s = .next v ∧
        (∀ r', o.adopted = some r' → ∃ o2, mapGet v.hub i = some o2 ∧ o2.relay = none ∧ o2.tally = [] ∧ o2.last = some r' ∧
          o2.lastAt = s.postmark ∧ o2.released = some r' ∧ ∀ a ∈ o.tally, ∀ t q tag, a.whom = .core t q tag → answered s v t q tag (releaseWord r')) ∧
        (o.adopted = none → ∃ o2, mapGet v.hub i = some o2 ∧ o2.relay = none ∧ o2.tally = [] ∧ o2.last = o.last ∧
          (∀ x ∈ v.fabric.arriving, x.1 ≠ i) ∧
          ∀ a ∈ o.tally, ∀ t q tag, a.whom = .core t q tag → answered s v t q tag (BitVec.allOnes 64))))

/-! ### The exchange fabric -/

/-- Collectives (R398 to R403): one whose descriptor passes takes its role's next number, marks its core as waiting for D,
and begins where fewer than 8 are in progress; one that fails does not act. A reduction takes the contributions in rank
order once all are in; a collective that can end answers its status and value, leaving each byte of DST old or written
where it failed. -/
def Obligations.Collectives : Prop :=
  (∀ (t q : Nat) (x : Args) (s : State) (c : W32) (cx : Ctx) (e : Role), (s.team t).masked x.pred = [q] →
    s.holderOf t = (c, some cx) → s.role (s.postcodeOf c) = some e →
    ∀ r ∈ [((fun t x => Instr.collRedscat t x), 0x3E0), ((fun t x => Instr.collAllgather t x), 0x3E1),
        ((fun t x => Instr.collAllreduce t x), 0x3E2), ((fun t x => Instr.collBcast t x), 0x3E3),
        ((fun t x => Instr.collHalo t x), 0x3E4)],
      s.canIssue t ⟨r.2, x⟩ = true →
      let a := ((s.core t q).value x false x.a).toNat
      let y : Coll :=
        { role := s.postcodeOf c, number := e.issued, team := t, core := q, ctx := c, seq := s.launchSeq t
          tag := s.free + 1, word := ⟨r.2, x⟩
          desc := memRead (s.bumpFree.view ⟨t, some q, .sy, none⟩ (.cluster t)) a 256 }
      let acts := a % 64 = 0 ∧ a + 256 ≤ s.clusterBytes t ∧ s.collOk y cx = true
      ∃ v, exec (r.1 t x) s = .next v ∧
        (¬ acts → notActing s v c cx ∧ v.fabric = s.fabric ∧
          ((∀ z ∈ (s.core t q).awaited, z.unit ≠ unitOf r.2) → ∀ n, x.d = .sreg n → (v.core t q).getS n = 0)) ∧
        (acts →
          (∃ w ∈ (v.core t q).awaited, w.tag = s.free + 1 ∧ w.dest = x.d) ∧
          mapGet v.fabric.roles (s.postcodeOf c).toNat = some { e with issued := e.issued + 1 } ∧
          (8 ≤ (s.fabric.colls.filter fun c => c.running).length →
            v.fabric.colls = s.fabric.colls ++ [y] ∧ v.stack = s.stack) ∧
          ((s.fabric.colls.filter fun c => c.running).length < 8 → (∀ z ∈ s.fabric.colls, z.running = true) →
            ∃ z ∈ v.fabric.colls, z.running = true ∧ z.role = y.role ∧ z.number = y.number ∧ z.desc = y.desc ∧
              z.tag = y.tag ∧ z.word = y.word))) ∧
  (∀ (s : State) (y : Coll), s.collOf y.role y.number = some y → y.isRed = true → y.running = true → y.reduced = false →
    y.status = 0 → y.heard = true → (∀ r ∈ y.contributors, gotAll y.stage1 (y.indexOf r) (y.len1 y.me) = true) →
    (∀ e ∈ s.unfenced, e.place ≠ .stack) →
    let ins := y.contributors.map fun r => gotBytes y.stage1 (y.indexOf r)
    let base := if y.word.code = 0x3E0 then y.dst else y.place2 y.me
    ∀ e < y.shardLen y.me,
      memRead (s.advance y.role y.number).stack (base + e * y.width) y.width =
        leBytes y.width (reduceElem y.dtype y.redop (ins.map fun b => fieldAt b (e * y.width) y.width)).1) ∧
  (∀ (l : List Nat), (∀ v ∈ l, v < 2 ^ 32) →
    let sum := (l.map (signed 32)).foldl (· + ·) 0
    (reduceElem 0x13 0 l).1 = unsignedOf 32 sum ∧
    ((reduceElem 0x13 0 l).2.sat = true ↔ sum < -2147483648 ∨ 2147483647 < sum) ∧ ∀ d o, (reduceElem d o []).1 = 0) ∧
  (∀ (role : W16) (number : W32) (s : State) (y : Coll), s.collOf role number = some y →
    (∀ m ∈ s.fabric.early, ¬ (m.role = role ∧ m.number = number)) →
    (s.collReady y = false → exec (.collectiveComplete role number) s = .next s) ∧
    (s.collReady y = true → (∀ z ∈ s.fabric.colls, z.is role number = true ∨ z.running = true) →
      ∃ v, exec (.collectiveComplete role number) s = .next v ∧
        (∀ z ∈ v.fabric.colls, z.is role number = false) ∧
        answered s v y.team y.core y.tag (replyWord y.status.toNat y.value) ∧
        (y.status = 0 → v.stack = s.stack) ∧
        (y.status ≠ 0 → ∀ a, memGet v.stack a = memGet s.stack a ∨ (a, memGet v.stack a) ∈ y.old)))

/-- Frames on their way in (R380, R383, R384, R386, R387, R490); a row stands for frames of its KIND (R382), for KIND 2 by
what the answered operation waits for, for KIND 9 by CLASS. For a role held under the frame's epoch a frame is handled
in FLOW_SEQ order, each once: the next one at once, an early one kept, a duplicate counted and dropped; one that comes in by
a port that the role's PORT_MASK bars is parked. Under an older
epoch it is returned; under a newer one the role is given up first. A frame for another postcode goes on, one hop more,
and beyond 15 hops or without a route is parked. A gap of 1 ms breaks its flow. -/
def Obligations.FramesInFlows : Prop :=
  (∀ (p : Nat) (f : Frame) (s : State) (r : Role), (s.port p).state = .up → s.role f.destPostcode = some r →
    f.flags.getLsbD 0 = false →
    let rows : List (Instr × Bool) :=
      [(.syncOperationFrame p f, f.kind == 1 || f.kind == 10),
       (.syncReplyFrame p f, f.kind == 2 && !s.answers f fun w => isMirror w || isWrite w),
       (.fabricWriteFrame p f, f.kind == 3), (.fabricReadRequest p f, f.kind == 4), (.fabricReadData p f, f.kind == 5),
       (.mirrorWrite p f, f.kind == 6), (.mirrorWriteAck p f, f.kind == 2 && s.answers f isMirror),
       (.fabricWriteAck p f, f.kind == 2 && s.answers f isWrite), (.divertedMailbagPart p f, f.kind == 7),
       (.mailbagAcknowledgement p f, f.kind == 8), (.collectiveControl p f, f.kind == 9 && f.cls == 2),
       (.collectiveDataFrame p f, f.kind == 9 && f.cls == 3)]
    ∀ y ∈ rows, y.2 = true →
      let x := s.flow (flowKey f.srcPostcode f.srcEpoch f.destPostcode f.destEpoch)
      let key := flowKey f.srcPostcode f.srcEpoch f.destPostcode f.destEpoch
      let flowAs (z : FlowIn) : State := { s with fabric := { s.fabric with flows := mapPut s.fabric.flows key z } }
      (r.epoch = f.destEpoch → maskAllows r.mask p = false →
        ∃ v, exec y.1 s = .next v ∧ parkedAs s v (frameHeader f) f.payload 1 (BitVec.ofNat 16 p) ∧
          v.fabric.flows = s.fabric.flows ∧ v.stack = s.stack ∧ v.teams = s.teams) ∧
      (r.epoch = f.destEpoch → maskAllows r.mask p = true → s.power.state = .sleep → f.kind ≠ 1 → f.kind ≠ 10 →
        exec y.1 s = .next { s with
          fabric := { s.fabric with asleep := s.fabric.asleep ++ [.frame p f] }
          power := { s.power with waking := true, sleepReq := false } }) ∧
      (r.epoch = f.destEpoch → maskAllows r.mask p = true → s.power.state ≠ .sleep → f.srcPostcode ≠ 0xFFFF →
        (∀ n, x.next = some n → f.flowSeq ≠ n → (n - f.flowSeq).toNat ≤ 65536 →
          exec y.1 s = .next { s with fabric := { s.fabric with
            stats := { s.fabric.stats with dupDiscarded := min 0xFFFF (s.fabric.stats.dupDiscarded + 1) } } }) ∧
        (∀ n, x.next = some n → f.flowSeq ≠ n → 65536 < (n - f.flowSeq).toNat →
          (∀ h ∈ x.held, h.frame.flowSeq ≠ f.flowSeq) →
          exec y.1 s = .next (flowAs { x with held := x.held ++ [⟨p, s.postmark, f⟩] })) ∧
        (x.next = none ∨ x.next = some f.flowSeq → x.held = [] →
          exec y.1 s = .next ((flowAs { x with next := some (f.flowSeq + 1) }).handle p f r))) ∧
      (f.destEpoch.toNat < r.epoch.toNat → s.reachable f.srcPostcode = true →
        ∃ v, exec y.1 s = .next v ∧
          v.fabric.stats.roleReturns = min 0xFFFF (s.fabric.stats.roleReturns + 1) ∧ sentOn s v (returnedOf f) ∧
          v.fabric.roles = s.fabric.roles ∧ v.stack = s.stack ∧ v.teams = s.teams) ∧
      (r.epoch.toNat < f.destEpoch.toNat →
        ∃ v, exec y.1 s = .next v ∧
          (r.lost = false → v.fabric.roles = mapDrop s.fabric.roles f.destPostcode.toNat ∧ 199 ∈ v.irq.pulses ∧
            v.fabric.stats.roleReturns = min 0xFFFF (s.fabric.stats.roleReturns + 1) ∧ v.stack = s.stack ∧
            v.teams = s.teams))) ∧
  (∀ f : Frame, (returnedOf f).destPostcode = f.srcPostcode ∧ (returnedOf f).destEpoch = f.srcEpoch ∧
    (returnedOf f).srcPostcode = f.destPostcode ∧ (returnedOf f).status = 0x0201 ∧ (returnedOf f).cls = 1 ∧
    (returnedOf f).flags = 1 ∧ (f.kind ≠ 7 → (returnedOf f).payload = []) ∧
    (f.kind = 7 → (returnedOf f).payload = bytesAt f.payload 0 32) ∧ (returnedOf f).kind = f.kind ∧
    (returnedOf f).flowSeq = f.flowSeq) ∧
  (∀ (p : Nat) (f : Frame) (s : State), (s.port p).state = .up → s.role f.destPostcode = none →
    let g := { f with hops := f.hops + 1 }
    ∃ v, exec (.frameForward p f) s = .next v ∧ v.stack = s.stack ∧ v.teams = s.teams ∧ v.ctxs = s.ctxs ∧
      ((s.route f.destPostcode).isSome = true → f.hops.toNat < 15 → sentOn s v g ∧ v.fabric.stats = s.fabric.stats) ∧
      ((s.route f.destPostcode).isSome = true → f.hops.toNat = 15 → parkedAs s v (frameHeader g) f.payload 2 (BitVec.ofNat 16 p)) ∧
      (s.route f.destPostcode = none →
        parkedAs s v (frameHeader f) f.payload (if f.flags.getLsbD 0 then 3 else 5) (BitVec.ofNat 16 p))) ∧
  (∀ (p : Nat) (f : Frame) (s : State), (s.port p).state = .up → f.flags.getLsbD 0 = true →
    (∀ r, s.role f.destPostcode = some r → r.epoch = f.destEpoch → maskAllows r.mask p = true → s.power.state ≠ .sleep →
      exec (.returnedFrame p f) s = .next (s.takeReturn f)) ∧
    (∀ r, s.role f.destPostcode = some r → r.epoch = f.destEpoch → maskAllows r.mask p = true → s.power.state = .sleep →
      exec (.returnedFrame p f) s = .next { s with
        fabric := { s.fabric with asleep := s.fabric.asleep ++ [.frame p f] }
        power := { s.power with waking := true, sleepReq := false } }) ∧
    (∀ r, s.role f.destPostcode = some r → r.epoch = f.destEpoch → maskAllows r.mask p = false →
      ∃ v, exec (.returnedFrame p f) s = .next v ∧ parkedAs s v (frameHeader f) f.payload 3 (BitVec.ofNat 16 p)) ∧
    (∀ r, s.role f.destPostcode = some r → r.epoch ≠ f.destEpoch →
      ∃ v, exec (.returnedFrame p f) s = .next v ∧ parkedAs s v (frameHeader f) f.payload 3 (BitVec.ofNat 16 p)) ∧
    (s.role f.destPostcode = none → s.route f.destPostcode = none →
      ∃ v, exec (.returnedFrame p f) s = .next v ∧ parkedAs s v (frameHeader f) f.payload 3 (BitVec.ofNat 16 p))) ∧
  (∀ (src dest : W16) (s : State) (x : Nat × FlowIn) (h : HeldFrame),
    s.fabric.flows.filter (fun y => y.1 / 2 ^ 48 == src.toNat && y.1 / 2 ^ 16 % 2 ^ 16 == dest.toNat &&
      y.2.held.any fun h => decide (h.at_.toNat + 1000000 ≤ s.postmark.toNat)) = [x] → x.2.held = [h] →
    ∃ v, exec (.flowBreak src dest) s = .next v ∧ mapGet v.fabric.flows x.1 = some ⟨none, []⟩ ∧
      parkedAs s v (frameHeader h.frame) h.frame.payload 4 (BitVec.ofNat 16 h.port)) ∧
  (∀ (s : State) (f : Frame) (port : Nat) (r : Role),
    (f.kind = 1 → s.handle port f r = s.takeOp f r) ∧ (f.kind = 2 → s.handle port f r = s.takeReply f) ∧
    (f.kind = 3 → s.handle port f r = s.takeWrite f r) ∧ (f.kind = 4 → s.handle port f r = s.takeRead f r) ∧
    (f.kind = 5 → s.handle port f r = s.takeData f) ∧ (f.kind = 6 → s.handle port f r = s.takeMirror f r) ∧
    (f.kind = 7 → s.handle port f r = s.takePart f port) ∧
    (f.kind = 8 → s.handle port f r = s.takeAck f.destPostcode f.srcPostcode f.payload) ∧
    (f.kind = 9 → s.handle port f r = s.takeColl f) ∧ (f.kind = 10 → s.handle port f r = s.takeArrival f r))

/-- What a handled frame does (R115, R116, R304, R354, R361, R363, R394): an operation acts on the object as if issued here
and its result code is answered; an arrival is on its way to the tally; a reply gives D its value; a write changes the
usable bytes that it names and no other, and is acknowledged; a read is answered from them, one that copies for the new
holder of a role once no update of its step is left; a withdrawal takes out the watch that it names; a mirror write goes to
its row.
(The payload layouts are the model's: notes/assumptions/20.md.) -/
def Obligations.FrameEffects : Prop :=
  ∀ (s : State) (f : Frame) (r : Role),
    let p := f.payload
    (∀ code < 256, (s.route f.srcPostcode).isSome = true →
      ∃ g, sentOn s (s.reply2 f code) g ∧ g.kind = 2 ∧ g.destPostcode = f.srcPostcode ∧ g.srcPostcode = f.destPostcode ∧
        fieldAt g.payload 0 4 = f.flowSeq.toNat ∧ fieldAt g.payload 4 1 = code ∧
        (s.reply2 f code).stack = s.stack ∧ (s.reply2 f code).teams = s.teams ∧ (s.reply2 f code).hub = s.hub) ∧
    (let h : W64 := BitVec.ofNat 64 (fieldAt p 1 8)
     let n := signed 64 (fieldAt p 9 8)
     let i := hIndex h
     let usable := handleOk h = true ∧ hHub h = true ∧ s.hubUsable i r.ctx (hBarrier h) = true
     (fieldAt p 0 1 ≠ 6 → ¬ usable ∨ (hBarrier h = true ∧ fieldAt p 0 1 ≠ 2) → s.takeOp f r = s.reply2 f 5) ∧
     (fieldAt p 0 1 = 6 → noneAdmitted s .hub → ∃ mine : Watch → Bool,
       s.takeOp f r = { s with hubWatches := s.hubWatches.filter fun w => !mine w } ∧
       ∀ w, mine w = true ↔ w.whom = .remote f.srcPostcode f.destPostcode (BitVec.ofNat 32 (fieldAt p 1 4))) ∧
     (usable → hBarrier h = false → fieldAt p 0 1 ≤ 1 →
       let m := if fieldAt p 0 1 = 1 then -n else n
       ((s.signal .hub i m).2 = none → s.takeOp f r = (s.signal .hub i m).1.reply2 f 0) ∧
       ((s.signal .hub i m).2 = some .syncUnderflow → s.takeOp f r = s.reply2 f 2) ∧
       ((s.signal .hub i m).2 = some .syncOverflow → s.takeOp f r = s.reply2 f 3) ∧
       ((s.signal .hub i m).2 = some .ownerLost → s.takeOp f r = s.reply2 f 4)) ∧
     (usable → fieldAt p 0 1 = 2 → (∀ y ∈ s.fabric.arriving, y.1 = i → y.2.fromRole f.srcPostcode = false) →
       s.takeOp f r = (s.initAt .hub i (hBarrier h) n.toNat).reply2 f 0) ∧
     (usable → hBarrier h = false → ∀ k : WatchKind, fieldAt p 0 1 = k.op →
       s.takeOp f r = s.register .hub ⟨i, k, n.toNat, r.ctx, .remote f.srcPostcode f.destPostcode f.flowSeq⟩)) ∧
    (let h : W64 := BitVec.ofNat 64 (fieldAt p 0 8)
     handleOk h = true → hHub h = true → s.hubUsable (hIndex h) r.ctx true = true →
     ∃ a, (s.takeArrival f r) = { s with fabric := { s.fabric with arriving := s.fabric.arriving ++ [(hIndex h, a)] } } ∧
       a.postcode = f.srcPostcode ∧ a.team = fieldAt p 8 1 ∧ a.core = fieldAt p 9 1 ∧ a.step.toNat = fieldAt p 10 8 ∧
       a.norm2.toNat = fieldAt p 18 4 ∧ a.count.toNat = fieldAt p 22 4 ∧ a.check.toNat = fieldAt p 26 4) ∧
    (∀ y, s.remoteOf f.destPostcode f.srcPostcode (BitVec.ofNat 32 (fieldAt p 0 4)) = some y →
      let v := s.takeReply f
      let value : W64 := BitVec.ofNat 64 (fieldAt p 5 8)
      (∀ tag i init, y.work = .signal tag i init → fieldAt p 4 1 = 0 →
        (∀ z ∈ (v.core y.team y.core).awaited, z.tag = tag → z.answer = some 0) ∧
        ((s.team y.team).awaits y.core tag = true → v.ctxs = s.ctxs)) ∧
      (∀ tag i, y.work = .watch tag i → fieldAt p 4 1 = 0 → answered s v y.team y.core tag value) ∧
      (∀ tag i a held, y.work = .arrive tag i a held → fieldAt p 4 1 = 16 →
        let due : Prop :=
          fieldAt p 21 8 < s.postmark.toNat ∨ (fieldAt p 21 8 = s.postmark.toNat ∧ s.inTurn 4 = true)
        let rel : Release := ⟨BitVec.ofNat 64 (fieldAt p 13 8), BitVec.ofNat 32 (bits value.toNat 0 32),
          BitVec.ofNat 32 (bits value.toNat 32 32)⟩
        let first : Prop := ∀ z ∈ s.fabric.lastRel, z.1 % 2 ^ 32 = relKey y.dest i → z.2 ≠ rel
        (due → answered s v y.team y.core tag value ∧
          (fieldAt p 21 8 < s.postmark.toNat → first → v.time.late = s.time.late + 1) ∧
          (¬ (fieldAt p 21 8 < s.postmark.toNat ∧ first) → v.time.late = s.time.late)) ∧
        (¬ due → ∃ x, v.fabric.releases = s.fabric.releases ++ [x] ∧ x.tag = tag ∧
          x.release.step.toNat = fieldAt p 13 8 ∧ x.at_.toNat = fieldAt p 21 8))) ∧
    ((∃ n, copyStep f = some n ∧ copySnap f = none ∧ s.updatesDue r.ctx n = true) →
      s.takeRead f r = { s with fabric := { s.fabric with copies := s.fabric.copies ++ [f] } }) ∧
    (∀ x, s.ctx r.ctx = some x → (∀ e ∈ s.unfenced, e.place ≠ .stack) →
      let off := fieldAt p 5 8
      let data := p.drop 13
      (∀ a, memGet (s.takeWrite f r).stack a =
        overlaid s.stack (x.regionBase.toNat + off) data (fun i => s.offsetUsable x (off + i)) a ∨ fieldAt p 0 1 = 2) ∧
      (fieldAt p 0 1 ≠ 2 → ∃ w : State, w.stack = (s.takeWrite f r).stack ∧ s.takeWrite f r =
        w.reply2 f (if s.regionDrops x off data.length then 7 else 6)) ∧
      ((s.route f.srcPostcode).isSome = true → copyStep f = none → ∃ g, sentOn s (s.takeRead f r) g ∧ g.kind = 5 ∧ g.destPostcode = f.srcPostcode ∧
        g.payload.drop 5 = (List.range (fieldAt p 8 2)).map (fun i =>
          if s.offsetUsable x (fieldAt p 0 8 + i) then memGet s.stack (x.regionBase.toNat + fieldAt p 0 8 + i) else 0))) ∧
    (∀ k, s.table r.ctx (fieldAt p 0 4 + mirrorBit) = some k → (∀ e ∈ s.unfenced, e.place ≠ .stack) →
      let row := fieldAt p 4 8
      let off := fieldAt p 12 4
      (row < k.rows → off + (p.drop 16).length ≤ k.slice →
        ∀ a, memGet (s.takeMirror f r).stack a = overlaid s.stack (k.rowAddr row + off) (p.drop 16) (fun _ => true) a) ∧
      (k.rows ≤ row → s.takeMirror f r = s.reply2 f 7))

/-- Scheduled traffic (R389 to R397): in its slot the oldest mailbag of an entry's channel goes out and is kept until it is
acknowledged, or is diverted; at a destination a channel's mailbags are delivered in CHAN_SEQ order, each once, and a
damaged one is not; a role's PORT_MASK bars a mailbag both ways; a mailbag for another module is cut through by its FORWARD
entry where both ends of the link it came by hold one version, or counted and diverted as four DATA frames; unacknowledged after 4 rounds it is sent again. -/
def Obligations.Mailbags : Prop :=
  (∀ (n : Nat) (s : State) (a : Schedule) (e : SlotEntry) (k : Chan) (b : Mailbag) (rest : List Mailbag),
    s.time.active = some a → a.entries[n]? = some e → e.send = true → a.slotNow s.postmark e.slot = true →
    s.fabric.retained.length < 2048 → mapGet s.fabric.chans e.channel.toNat = some k → k.queue = b :: rest →
    s.slotUsed n = false → s.awaitsEarlier b = false → s.inTurn 5 = true →
    let q : W32 := k.seqFor b
    let m : Mailbag := { b with
      version := a.version, slot := BitVec.ofNat 16 e.slot, chanSeq := q, round := BitVec.ofNat 32 (a.roundAt s.postmark) }
    let goes : Prop := s.portCarries e.outPort = true ∧ s.portBusy e.outPort = false ∧
      maskAllows (s.maskOf b.originPostcode) e.outPort = true
    ∃ v k', exec (.slotSend n) s = .next v ∧ mapGet v.fabric.chans e.channel.toNat = some k' ∧ k'.queue = rest ∧
      (∀ y : Mailbag, pairKey y = pairKey b →
        k'.seqFor y = if y.originEpoch = b.originEpoch ∧ y.destEpoch = b.destEpoch then q + 1 else 0) ∧
      (∀ y : Mailbag, pairKey y ≠ pairKey b → k'.seqFor y = k.seqFor y) ∧ v.slotUsed n = true ∧
      (goes →
        v.fabric.out = s.fabric.out ++ [.mailbag e.outPort m] ∧
        v.fabric.retained = s.fabric.retained ++ [⟨m, s.postmark, some e.outPort⟩] ∧
        mapGet v.fabric.busy e.outPort = some (s.postmark.toNat + 64)) ∧
      (¬ goes →
        v.fabric.retained = s.fabric.retained ++ [⟨m, s.postmark, none⟩] ∧
        v.fabric.stats.diverted = s.fabric.stats.diverted + 1)) ∧
  (∀ (n : Nat) (s : State), 2048 ≤ s.fabric.retained.length ∨ s.slotUsed n = true → exec (.slotSend n) s = .next s) ∧
  (∀ (p : Nat) (m : Mailbag) (corrected : Bool) (s : State), (s.port p).state = .up →
    (∀ r, s.role m.destPostcode = some r →
      exec (.mailbagArrive p m corrected true) s = .next s ∧
      (maskAllows r.mask p = false → exec (.mailbagArrive p m corrected false) s = .next s) ∧
      (maskAllows r.mask p = true → s.power.state ≠ .sleep →
        ∃ v, exec (.mailbagArrive p m corrected false) s = .next v ∧
          v.fabric.stats.e2eCorrected = s.fabric.stats.e2eCorrected + (if corrected then 1 else 0) ∧
          (r.epoch = m.destEpoch →
            let k := s.chanIn m
            (m.chanSeq = k.next → k.early = [] → v.fabric.chansIn =
              mapPut s.fabric.chansIn (chanInKey m) { k with next := k.next + 1, ackDue := true }) ∧
            (m.chanSeq ≠ k.next → 2 ^ 31 ≤ (m.chanSeq - k.next).toNat →
              v.fabric.chansIn = mapPut s.fabric.chansIn (chanInKey m) k ∧ v.stack = s.stack ∧
              v.fabric.colls = s.fabric.colls) ∧
            (m.chanSeq ≠ k.next → (m.chanSeq - k.next).toNat < 2 ^ 31 → (∀ x ∈ k.early, x.chanSeq ≠ m.chanSeq) →
              v.fabric.chansIn = mapPut s.fabric.chansIn (chanInKey m) { k with early := k.early ++ [m] } ∧
              v.stack = s.stack ∧ v.fabric.colls = s.fabric.colls)) ∧
          (r.epoch.toNat < m.destEpoch.toNat → v.fabric.roles = mapDrop s.fabric.roles m.destPostcode.toNat) ∧
          (r.epoch ≠ m.destEpoch → v.fabric.chansIn = s.fabric.chansIn ∧
            v.fabric.stats.roleReturns = min 0xFFFF (s.fabric.stats.roleReturns + 1)))) ∧
    (s.role m.destPostcode = none →
      (∀ a e, s.time.active = some a → a.forwardOf p m = some e → s.versionsAgree p = false → ∀ damaged,
        exec (.mailbagArrive p m corrected damaged) s = .next (s.divert m)) ∧
      (∀ a e, s.time.active = some a → a.forwardOf p m = some e → s.versionsAgree p = true →
        s.portCarries e.outPort = true → s.portBusy e.outPort = false →
        ∃ v, exec (.mailbagArrive p m corrected false) s = .next v ∧
          v.fabric.out = s.fabric.out ++ [.mailbag e.outPort m] ∧ v.fabric.stats = s.fabric.stats ∧
          mapGet v.fabric.busy e.outPort = some (s.postmark.toNat + 64)) ∧
      ((∀ a, s.time.active = some a → a.forwardOf p m = none) → ∀ damaged,
        ∃ v, exec (.mailbagArrive p m corrected damaged) s = .next v ∧
          v.fabric.stats.unmatched = min 0xFFFF (s.fabric.stats.unmatched + 1) ∧
          v.fabric.stats.diverted = s.fabric.stats.diverted + 1))) ∧
  (∀ (m : Mailbag) (s : State) (q : Nat), (s.role m.originPostcode).isSome = true →
    s.portFor m.originPostcode m.destPostcode = some q →
    ∃ g : Nat → Frame, (s.divert m).fabric.out = s.fabric.out ++ (List.range 4).map (fun i => .frame q (g i)) ∧
      ∀ i < 4, (g i).kind = 7 ∧ (g i).cls = 3 ∧ (g i).srcPostcode = m.originPostcode ∧ (g i).destPostcode = m.destPostcode ∧
        (g i).payload = bagHeader m ++ bytesAt m.payload (3200 * i) 3200) ∧
  (∀ (ch : W16) (q : W32) (s : State),
    let named : List Retained := s.fabric.retained.filter fun r => r.bag.channel == ch && r.bag.chanSeq == q
    ((∀ r ∈ named, s.postmark.toNat < r.sent.toNat + 4 * s.roundNs) → exec (.mailbagResendTimeout ch q) s = .next s) ∧
    ((∃ r ∈ named, r.sent.toNat + 4 * s.roundNs ≤ s.postmark.toNat) →
      ∃ v, ∃ r ∈ named, exec (.mailbagResendTimeout ch q) s = .next v ∧
        r.sent.toNat + 4 * s.roundNs ≤ s.postmark.toNat ∧
        v.fabric.stats.e2eResent = s.fabric.stats.e2eResent + 1 ∧
        v.fabric.stats.diverted = s.fabric.stats.diverted + 1 ∧ { r with sent := s.postmark, port := none } ∈ v.fabric.retained))

/-! ### Time -/

/-- The postmark unit and the events placed against it (R48 to R53, R55, R57 to R64, R394, R453 to R457, R507, R528): what
a time frame, a loss of lock, a master's silence and the reference do to the unit; a round boundary; a schedule at its
START, or too late; an hour's end; a millisecond's energy, shared by core time with the remainder to function 0; and the
refresh of telemetry. -/
def Obligations.TimeEvents : Prop :=
  ∀ (s : State),
    let own := s.ownPostcode
    (∀ (p : Nat) (f : TimeFrame), p ∈ s.upPorts →
      let mine := (f.masterPostcode = 0xFFFF ∧ f.primary = false) ∨
        ((s.time.role = 2 ∨ s.time.role = 3) ∧ f.masterPostcode ≠ 0xFFFF ∧
          (f.masterPostcode = own ∨ (s.time.acting = true ∧ f.primary = false ∧ own.toNat < f.masterPostcode.toNat)))
      ∃ v, exec (.timeFrame p f) s = .next v ∧ v.stack = s.stack ∧ (v.port p).peerVersion = some f.version ∧
        (v.port p).peerMaster = f.masterPostcode ∧ (v.port p).peerPrimary = f.primary ∧
        (mine → (v.port p).peerHops = none ∧ v.time = s.time ∧ v.postmark = s.postmark) ∧
        (¬ mine → (v.port p).peerHops = some f.hops) ∧
        (s.time.role = 1 → v.postmark = s.postmark ∧ v.time = { s.time with
          role := if f.primary = true ∧ f.masterPostcode.toNat < own.toNat then 3 else 1 }) ∧
        (s.time.role ≠ 1 → ¬ mine → (∀ q ∈ s.upPorts, q ≠ p → (s.port q).peerHops = none) →
          v.time.upstream = p ∧ v.time.hops = f.hops + 1 ∧ v.time.master = f.masterPostcode ∧ v.time.offset = f.offset ∧
          v.time.underPrimary = f.primary ∧ v.time.acting = false ∧
          (s.time.state = .unposted → within 3 f.offset = true →
            v.postmark = f.postmark + BitVec.ofNat 64 ((s.port p).delay.toNat / 4) ∧ v.time.state = .locked ∧
            v.time.lockAt = v.postmark ∧ 193 ∈ v.irq.pulses) ∧
          (s.time.state = .unposted → within 3 f.offset = false → v.time.state = .unposted ∧ v.postmark = s.postmark) ∧
          (s.time.state = .locked → v.time.state = .locked ∧ v.postmark = s.postmark ∧
            v.time.badFrames = if within 50 f.offset = true then 0 else s.time.badFrames + 1) ∧
          (s.time.state = .holdover → v.time.state = .slewing ∧ v.postmark = s.postmark) ∧
          (s.time.state = .slewing → v.postmark = s.postmark ∧
            v.time.state = if within 3 f.offset = true then .locked else .slewing))) ∧
    (∀ z n, within n z = true ↔ 2 * z.natAbs ≤ n * 65536) ∧
    (s.power.boot = .running ∨ (s.power.boot = .starting ∧ 6 ≤ s.power.bootStep) →
      let tells : W16 × Nat × Bool :=
        if s.time.role = 1 then (own, 0, true)
        else if s.time.followed = true then (s.time.master, s.time.hops, s.time.underPrimary)
        else (0xFFFF, 0, false)
      ∃ v l, exec .timeFrameSend s = .next v ∧ v = { s with fabric := { s.fabric with out := v.fabric.out } } ∧
        v.fabric.out = s.fabric.out ++ (s.upPorts.map fun p => .time p ⟨s.postmark, tells.1, tells.2.1,
          (match s.time.active with | some c => c.version | none => 0), 0, tells.2.2⟩) ++ l ∧
        (∀ o ∈ l, ∃ p a, o = .advert p a) ∧
        ∀ r ∈ s.fabric.roles, ∀ p ∈ s.upPorts, maskAllows r.2.mask p = true →
          .advert p ⟨BitVec.ofNat 16 r.1, r.2.epoch, 0, false, false⟩ ∈ l) ∧
    (∀ cause, (s.time.role = 1 → exec (.lockLoss cause) s = .next s) ∧
      (cause = .offset → s.time.badFrames < 3 → exec (.lockLoss cause) s = .next s) ∧
      (s.time.role ≠ 1 → s.time.state = .locked → (cause = .noFrame ∨ 3 ≤ s.time.badFrames) →
        ∃ v, exec (.lockLoss cause) s = .next v ∧ 194 ∈ v.irq.pulses ∧ v.postmark = s.postmark ∧ v.time = { s.time with
          state := .holdover, lossAt := s.postmark, losses := min 0xFFFF (s.time.losses + 1), badFrames := 0 })) ∧
    (s.time.role = 2 ∨ s.time.role = 3 →
      ∃ v, exec .masterTimeout s = .next v ∧ (∀ p ∈ s.upPorts, (v.port p).peerHops = none) ∧ v.postmark = s.postmark ∧
        v.time = { s.time with
          upstream := 0, hops := 0, master := own, acting := true, followed := true, underPrimary := false
          masterChanges := if s.time.acting = false ∧ s.time.followed = true ∧ s.time.master ≠ own then
              min 0xFFFF (s.time.masterChanges + 1)
            else s.time.masterChanges }) ∧
    (s.time.role = 0 ∨ s.time.role = 1 → exec .masterTimeout s = .next s) ∧
    (s.time.source ≠ 1 ∨ s.power.boot = .noSupply → exec .ppsEdge s = .next s) ∧
    (s.time.source = 1 → s.power.boot ≠ .noSupply → ∃ v, exec .ppsEdge s = .next v ∧ 209 ∈ v.irq.pulses ∧
      (s.time.role ≠ 1 → v.time = s.time ∧ v.postmark = s.postmark) ∧
      (s.time.role = 1 →
        let n := if s.linksTrained = true then s.time.edges + 1 else 0
        v.time.edges = n ∧ v.time.second = s.time.second + 1 ∧
        v.time.offset = (if s.time.everLocked = true then s.edgeOffset else s.time.offset) ∧
        (s.time.state = .unposted → n < 2 → v.time.state = .unposted ∧ v.postmark = s.postmark) ∧
        (s.time.state = .unposted → 2 ≤ n →
          v.time.state = .locked ∧ v.postmark = s.time.second * 1000000000 ∧ v.time.lockAt = v.postmark ∧
          193 ∈ v.irq.pulses) ∧
        (s.time.state = .slewing → v.postmark = s.postmark ∧
          v.time.state = if within 3 s.edgeOffset = true then .locked else .slewing) ∧
        (s.time.state = .locked ∨ s.time.state = .holdover →
          v.time.state = s.time.state ∧ v.postmark = s.postmark))) ∧
    (s.time.source = 1 → s.power.boot ≠ .noSupply →
      exec .referenceAcquire s = .next { s with time := { s.time with
        refPresent := true
        state := if s.time.role = 1 ∧ s.time.state = .holdover then .slewing else s.time.state } } ∧
      ∀ cause, ∃ v, exec (.referenceLoss cause) s = .next v ∧ v.time.refPresent = false ∧ v.postmark = s.postmark ∧
        (s.time.role ≠ 1 → v = { s with time := { s.time with refPresent := false } }) ∧
        (s.time.role = 1 → s.time.state = .locked →
          v.time.state = .holdover ∧ v.time.lossAt = s.postmark ∧ 194 ∈ v.irq.pulses)) ∧
    (s.time.source ≠ 1 → exec .referenceAcquire s = .next s ∧ ∀ cause, exec (.referenceLoss cause) s = .next s) ∧
    (∀ c, s.time.active = some c → c.start.toNat ≤ s.postmark.toNat → (s.postmark.toNat - c.start.toNat) % c.roundNs = 0 →
      let k := (s.postmark.toNat - c.start.toNat) / c.roundNs
      s.time.round ≠ k + 1 →
      ∃ v, exec .roundBoundary s = .next v ∧ (∀ x ∈ v.fabric.chansIn, x.2.ackDue = false) ∧ v.stack = s.stack ∧
        v.time = { s.time with
          round := k + 1, fallback := decide (s.time.state ≠ .locked)
          mismatch := min 0xFFFF (s.time.mismatch + (s.upPorts.filter fun p =>
            match (s.port p).peerVersion with | some v => v != c.version | none => false).length) }) ∧
    (∀ c r y, s.time.pending = some (c, r) → s.cmd r.ctx r.seq = some y →
      let s1 : State := { s with time := { s.time with pending := none } }
      (c.start.toNat < y.startedAt.toNat →
        exec .scheduleActivate s = .next (s1.finishRef r 0x0106 c.version.toNat c.slots)) ∧
      (y.startedAt.toNat ≤ c.start.toNat → s.postmark.toNat < c.start.toNat → exec .scheduleActivate s = .next s) ∧
      (y.startedAt.toNat ≤ c.start.toNat → c.start.toNat ≤ s.postmark.toNat →
        exec .scheduleActivate s = .next (State.finishRef { s1 with
            time := { s1.time with active := some c, round := 0 }, fabric := { s.fabric with slots := [] } }
          r 0 c.version.toNat c.slots))) ∧
    (s.time.everLocked = true → s.postmark.toNat % 3600000000000 = 0 → (s.fn 0).frank.start ≠ s.postmark.toNat →
      s.power.boot ≠ .noSupply →
      ∃ v, exec .frankingBoundary s = .next v ∧ v.stack = s.stack ∧ ∀ f < 64,
        (v.fn f).periods = ({ (s.fn f).frank with
          flags := 1 + (if bitOf (s.fn f).frank.flags 1 then 2 else 0) + (if s.time.state = .holdover then 4 else 0)
          asOf := s.postmark.toNat - 1 } :: (s.fn f).periods).take 48 ∧
        (v.fn f).frank = { index := s.postmark.toNat / 3600000000000, start := s.postmark.toNat } ∧
        128 + f ∈ v.irq.pulses) ∧
    (∀ dies rest, s.power.boot ≠ .noSupply →
      let used (d : Nat) : Nat := ((List.range 64).map fun f => (s.fn f).interval.getD d 0).foldl (· + ·) 0
      let all_ (f : Nat) : Nat := (s.fn f).interval.foldl (· + ·) 0
      let span := max 1 s.meter.elapsed
      let share (d amount use total : Nat) : Nat :=
        if total = 0 then 0 else amount * (span - s.meter.unheld.getD d 0) * use / (span * total)
      let energy (u : State) : Nat := ((List.range 64).map fun f => (u.fn f).frank.energy).foldl (· + ·) 0
      ∃ v, exec (.energyInterval dies rest) s = .next v ∧
        v = { s with fns := v.fns, meter := { elapsed := 0, unheld := [0, 0, 0, 0, 0], quiet := s.meter.quiet } } ∧
        (∀ f < 64, (v.fn f).interval = [0, 0, 0, 0]) ∧
        (∀ f, 1 ≤ f → f < 64 → (v.fn f).frank.energy = (s.fn f).frank.energy +
          ((List.range 4).map fun d => share d (dies.getD d 0) ((s.fn f).interval.getD d 0) (used d)).foldl (· + ·) 0 +
          share 4 rest (all_ f) (((List.range 64).map all_).foldl (· + ·) 0)) ∧
        energy v = energy s + ((List.range 4).map fun d => dies.getD d 0).foldl (· + ·) 0 + rest) ∧
    (∀ vin iin pin pinPeak temps hub, s.powered = true →
      ∃ v, exec (.telemetryRefresh vin iin pin pinPeak temps hub) s = .next v ∧
        v.power.telem = packFields [(0, 16, vin.toNat), (16, 16, iin.toNat), (32, 16, pin.toNat), (48, 16, pinPeak.toNat)] ∧
        v.power.hubTj = hub % 256 ∧ v.power.tjMax = (List.range 4).foldl (fun m d => max m (s.die d).tj) 0 ∧
        (∀ d, d ∈ v.power.hot ↔ d < 5 ∧ s.pm.tjLimit < if d = 4 then hub % 256 else (s.die d).tj) ∧
        (∀ i < 12, v.regs.temps[i]? = some (if i ∈ s.faults.stackOut then 0xFF else min 254 (temps.getD i 0))) ∧
        (∀ f < 64, (v.fn f).frankCur = { (s.fn f).frank with asOf := s.postmark.toNat }) ∧
        v = { s with power := v.power, regs := { s.regs with temps := v.regs.temps }, fns := v.fns })

/-! ### Moves of contexts, and takeover -/

/-- Pre-emption, resume, snapshots and table replacement (R306, R367, R368, R418, R419, R450 to R452): issue stops at the
pre-emption point, a fabric context's only at a quiescent point and with NOT_QUIESCENT after its timeout where it has none;
saved teams are freed, with the time until the context was quiet and the rest of it as the command's counts, and
restored once AT has passed and they are free and in service; a snapshot stops its context, and its image stands at DEST with its record in
the function's table; a flip serves the new version. What is not yet due changes nothing. -/
def Obligations.ContextMoves : Prop :=
  ∀ (c : W32) (s : State) (x : Ctx), s.ctx c = some x →
    let put (y : Ctx) : State := { s with ctxs := mapPut s.ctxs c.toNat y }
    (∀ p, x.preempting = some p →
      let may := p.stoppedAt = none ∧ p.at_.toNat ≤ s.postmark.toNat ∧ (∀ n, x.snapping = some n → n.startedAt = none) ∧
        x.running = true ∧ (x.span = 1 → s.quiescent c x = true)
      let acts := match s.cmd p.cmd.ctx p.cmd.seq with | some y => max p.at_.toNat y.startedAt.toNat | none => p.at_.toNat
      let late := x.span = 1 ∧ p.stoppedAt = none ∧ acts + 1000 * p.timeoutUs ≤ s.postmark.toNat
      let ready := p.stoppedAt ≠ none ∧ (∀ t ∈ x.teams, (s.team t).quiet = true) ∧ (∀ k ∈ x.tables, k.2.inPause = false) ∧
        c.toNat ∉ s.journal.replaying
      let us := (s.postmark.toNat - acts) / 1000
      let stopped : State := { put { x with
          issueHeld := true, pausedAt := s.postmark, preempting := some { p with stoppedAt := some s.postmark } } with
        power := awake s.power }
      (may → s.inTurn 3 = true → exec (.preemptionPoint c) s = .next stopped) ∧
      (¬ may ∨ s.inTurn 3 = false → exec (.preemptionPoint c) s = .next s) ∧
      (late → s.quiescent c x = false →
        exec (.quiesceTimeout c) s = .next ((put { x with preempting := none }).finishRef p.cmd 0x0105 us 0)) ∧
      (late → s.quiescent c x = true →
        (may → exec (.quiesceTimeout c) s = .next stopped) ∧ (¬ may → exec (.quiesceTimeout c) s = .next s)) ∧
      (¬ late → exec (.quiesceTimeout c) s = .next s) ∧
      (¬ ready → exec (.preemptSaveComplete c) s = .next s) ∧
      (ready → ∃ (w : State) (quiet : Nat), exec (.preemptSaveComplete c) s = .next
          (w.finishRef p.cmd 0 ((quiet - acts) / 1000) ((s.postmark.toNat - quiet) / 1000)) ∧
        quiet ≤ s.postmark.toNat ∧
        (∀ a, p.stoppedAt = some a → min s.postmark.toNat (max a.toNat p.flippedAt.toNat) ≤ quiet) ∧
        (s.ctxs = [(c.toNat, x)] → (∀ t ∈ x.teams, (s.team t).upd.queue = []) → ∀ a, p.stoppedAt = some a →
          quiet = min s.postmark.toNat (max (mapGetD s.meter.quiet s.postmark c.toNat).toNat (max a.toNat p.flippedAt.toNat))) ∧
        (∀ t ∈ x.teams, w.team t = { Team.reset with testing := (s.team t).testing }) ∧
        ((∀ t ∈ x.teams, (s.team t).upd.queue = []) → noneAdmitted s .hub →
          w.stack = s.stack ∧ w.ctx c = some { x with
            running := false, saved := x.teams.map fun t => (t, (s.team t).toSave (x.span == 1))
            savedWatches := s.watchesFrom x.teams, issueHeld := false, preempting := none, pausedAt := s.postmark } ∧
          ∀ e ∈ w.hubWatches, e.repliesTo x.teams = false))) ∧
    (∀ r, x.resuming = some r →
      let ready := r.at_.toNat ≤ s.postmark.toNat ∧ ∀ t ∈ x.teams, s.teamFree t = true ∧ s.teamServes t = true
      (¬ ready → exec (.resumeRestore c) s = .next s) ∧
      (ready → x.saved.Pairwise (fun a b => a.1 < b.1) →
        ∃ (w : State) (us : Nat), exec (.resumeRestore c) s = .next ((w.finishRef r.cmd 0 us 0).beginLaunches c) ∧
          us ≤ s.usSince r.cmd r.at_ ∧ w.stack = s.stack ∧
          (∃ y, w.ctx c = some y ∧ y.running = true ∧ y.saved = [] ∧ y.savedWatches = [] ∧ y.resuming = none) ∧
          ∀ k ∈ x.saved, (w.team k.1).bank0 = k.2.bank0 ∧ (w.team k.1).bank1 = k.2.bank1 ∧
            (w.team k.1).cluster = k.2.cluster ∧ (w.team k.1).acs = k.2.acs)) ∧
    (∀ p, x.snapping = some p →
      (∀ y, p.startedAt = none → x.running = true → s.snapTime p.at_ = true → s.inTurn 2 = true → s.cmd c p.cmd.seq = some y →
        exec (.snapshotStart c) s = .next { put { x with
            issueHeld := true, pausedAt := s.postmark
            snapping := some { p with startedAt := some s.postmark, counters := x.counters } } with
          power := awake s.power
          time := { s.time with late := s.time.late +
            if p.at_ ≠ 0 ∧ s.snapPlace p.at_ < y.startedAt.toNat then 1 else 0 } }) ∧
      (p.startedAt ≠ none ∨ x.running = false ∨ s.snapTime p.at_ = false ∨ s.inTurn 2 = false →
        exec (.snapshotStart c) s = .next s) ∧
      (p.startedAt = none → exec (.snapshotComplete c) s = .next s) ∧
      (∀ start, p.startedAt = some start → (∀ e ∈ s.unfenced, e.place ≠ .stack) →
        let steps := memRead s.stack (x.listAt + 8) 24
        let img := s.snapImage x p.id start steps (s.snapBody x (onChipSize x.teams.length))
        x.regionBase.toNat ≤ p.dest →
        (∀ i, i < img.length → s.offsetUsable x (p.dest - x.regionBase.toNat + i) = true) →
        ∃ w : State, exec (.snapshotComplete c) s = .next
            (w.finishRef p.cmd 0 ((s.postmark.toNat - start.toNat) / 1000) (ceilDiv img.length 1048576)) ∧
          memRead w.stack p.dest img.length = img ∧
          (∀ a, a < p.dest ∨ p.dest + img.length ≤ a → memGet w.stack a = memGet s.stack a) ∧
          (∃ r ∈ (w.fn (fnOf c)).snaps, r.id = p.id ∧ r.ctx = c ∧ r.dest = p.dest ∧ r.size = img.length ∧
            r.nextStep.toNat = fieldAt steps 0 8) ∧
          (x.preempting = none → w.ctx c = some { x with snapping := none, issueHeld := false }))) ∧
    (∀ n k r, mapGet x.tables n = some k → k.replacing = some r →
      let ready := r.flipped = none ∧ s.stagingOn c n = false ∧ s.migratingOn x n = false ∧ x.running = true ∧
        c.toNat ∉ s.journal.replaying
      (¬ ready → exec (.tableReplaceFlip c n) s = .next s) ∧
      (ready → ∃ v k1, exec (.tableReplaceFlip c n) s = .next v ∧ v.table c n = some k1 ∧ k1.version = r.version ∧
        k1.replacing = some { r with flipped := some (s.postmark.toNat - r.startedAt.toNat, s.queuedOn c n) } ∧
        (∀ b st, r.source = 0 → k.pending = some (b, st) → k1.base = b ∧ k1.stripes = st ∧ k1.pending = none) ∧
        (r.source ≠ 0 → k1.base = k.base ∧ k1.stripes = k.stripes) ∧ (r.source = 0 → v.stack = s.stack) ∧
        ∀ t ∈ x.teams, ∀ h ∈ (v.team t).rows.hot, h.table ≠ n))

/-- Roles and takeover (R376, R380, R381, R421 to R426, R430): an advertisement of a higher epoch
replaces the route, one under the same epoch gives the hops by its port, and one by the best way goes on, but not back to its
holder; a loss heard of a role that is held here marks it; a frame takes the
best way among the ports that are UP and that its source role permits; the same epoch elsewhere is a conflict; a loss marks the route and ends the
collectives with that role; a covering module takes a lost role under the next epoch, learns its join step, copies the
ranges, and has JOINED or FAILED. -/
def Obligations.RolesAndTakeover : Prop :=
  ∀ (s : State),
    (∀ (p : Nat) (a : Advert), (s.port p).state = .up → a.lost = false → a.covered = false →
      let heard : State := { s with fabric := { s.fabric with ports := mapPut s.fabric.ports p ((s.port p).hears a) } }
      let clear (v : State) (q : Nat) : Prop :=
        q ≠ p ∧ (a.hops = 0 → (s.port q).peerPostcode = 0xFFFF ∨ (s.port q).peerPostcode ≠ (v.port p).peerPostcode)
      (∀ r, s.role a.postcode = some r → r.epoch = a.epoch →
        (maskAllows r.mask p = true →
          ∃ v, exec (.roleAdvertisement p a) s = .next v ∧ 200 ∈ v.irq.pulses ∧ v.fabric = { heard.fabric with
            stats := { s.fabric.stats with conflicts := min 0xFF (s.fabric.stats.conflicts + 1) } }) ∧
        (maskAllows r.mask p = false → exec (.roleAdvertisement p a) s = .next heard)) ∧
      (∀ r, s.role a.postcode = some r → a.epoch.toNat < r.epoch.toNat → exec (.roleAdvertisement p a) s = .next heard) ∧
      (s.role a.postcode = none → s.route a.postcode = none →
        ∃ v, exec (.roleAdvertisement p a) s = .next v ∧ v.route a.postcode = some ⟨a.epoch, false, false, [(p, a.hops + 1)]⟩ ∧
          ∀ q ∈ s.upPorts, clear v q → .advert q { a with hops := a.hops + 1 } ∈ v.fabric.out) ∧
      (∀ r, s.role a.postcode = none → s.route a.postcode = some r →
        (a.epoch.toNat < r.epoch.toNat ∨ (r.epoch = a.epoch ∧ r.lost = true) →
          exec (.roleAdvertisement p a) s = .next heard) ∧
        (r.epoch.toNat < a.epoch.toNat → ∃ v, exec (.roleAdvertisement p a) s = .next v ∧
          v.route a.postcode = some ⟨a.epoch, false, false, [(p, a.hops + 1)]⟩) ∧
        (r.epoch = a.epoch → r.lost = false →
          let r1 : Route := { r with via := mapPut r.via p (a.hops + 1) }
          ∃ v, exec (.roleAdvertisement p a) s = .next v ∧ v.route a.postcode = some r1 ∧
            ((r1.best fun q => (s.port q).state == .up).map Prod.fst = some p →
              ∀ q ∈ s.upPorts, clear v q → (∀ h, mapGet r1.via q = some h → 1 < h) →
                .advert q { a with hops := a.hops + 1 } ∈ v.fabric.out)))) ∧
    (∀ (r : Route) (serves : Nat → Bool) (p h : Nat), r.best serves = some (p, h) →
      (p, h) ∈ r.via ∧ serves p = true ∧ ∀ v ∈ r.via, serves v.1 = true → h ≤ v.2) ∧
    (∀ (src dest : W16) (p : Nat), s.portFor src dest = some p →
      (s.port p).state = .up ∧ maskAllows (s.maskOf src) p = true ∧ s.faults.selfFenced = false) ∧
    (∀ (p : Nat) (a : Advert), (s.port p).state = .up → a.lost = true →
      (∀ r, s.role a.postcode = some r →
        (r.epoch.toNat ≤ a.epoch.toNat → exec (.roleAdvertisement p a) s = .next { s with
          fabric := { s.fabric with roles := mapPut s.fabric.roles a.postcode.toNat { r with lost := true } } }) ∧
        (a.epoch.toNat < r.epoch.toNat → exec (.roleAdvertisement p a) s = .next s)) ∧
      (∀ r, s.role a.postcode = none → s.route a.postcode = some r → r.epoch.toNat ≤ a.epoch.toNat →
        ¬ (r.lost = true ∧ r.epoch = a.epoch) →
        ∃ v, exec (.roleAdvertisement p a) s = .next v ∧ (∀ c ∈ v.fabric.colls, a.postcode ∈ c.peers → c.status ≠ 0) ∧
          v.route a.postcode = some { r with
            epoch := a.epoch, lost := true, covered := a.covered || r.covered || s.covers a.postcode })) ∧
    (∀ (pc : W16) (r : Route), s.route pc = some r →
      (r.lost = true ∨ (∀ v ∈ r.via, 1 < v.2) → exec (.roleLossTimeout pc) s = .next s) ∧
      (∀ w ∈ r.via, w.2 ≤ 1 → r.lost = false → ∃ v, exec (.roleLossTimeout pc) s = .next v ∧
        v.route pc = some { r with lost := true, covered := r.covered || s.covers pc } ∧
        ∀ c ∈ v.fabric.colls, pc ∈ c.peers → c.status ≠ 0)) ∧
    (∀ (pc : W16),
      (s.time.state ≠ .locked ∨ s.faults.selfFenced = true ∨ s.taking = true → exec (.autoTakeover pc) s = .next s) ∧
      (∀ r c, s.time.state = .locked → s.faults.selfFenced = false → s.taking = false →
        mapGet s.faults.retake pc.toNat = none →
        s.route pc = some r → r.lost = true → s.covers pc = true → s.spareCtx = some c →
        ∃ v, exec (.autoTakeover pc) s = .next v ∧ v.role pc = some ⟨r.epoch + 1, 0, c, 0, false⟩ ∧ v.faults.take = .holding ∧
          v.faults.takePostcode = pc ∧ v.faults.takeEpoch = r.epoch + 1 ∧ v.faults.armed = [] ∧ 204 ∈ v.irq.pulses ∧
          ∀ i o, mapGet s.hub i = some o → o.owner = c → o.barrier = true →
            ∃ o1, mapGet v.hub i = some o1 ∧ o1.relay = some (s.postmark + 100000)) ∧
      (∀ r x, s.time.state = .locked → s.faults.selfFenced = false → s.taking = false →
        mapGet s.faults.retake pc.toNat = some r →
        s.ctx r.ctx = some x → (∀ t ∈ x.teams, t ∉ s.faults.auditing) →
        ∃ v, exec (.autoTakeover pc) s = .next v ∧ v.role pc = some ⟨r.epoch + 1, r.mask, r.ctx, 0, false⟩ ∧
          v.faults.take = .holding ∧ mapGet v.faults.retake pc.toNat = none)) ∧
    (∀ (pc : W16) (rel : Release),
      (s.faults.take ≠ .holding ∨ s.faults.takePostcode ≠ pc → exec (.joinReleaseReceived pc rel) s = .next s) ∧
      (∀ c x, s.faults.take = .holding → s.faults.takePostcode = pc → s.takenCtx = some (c, x) →
        mapGet s.faults.records pc.toNat = none →
        let ranges := s.listRanges x
        let sound := ∀ r ∈ ranges, r.source ≠ 0xFFFF ∧ r.source ≠ pc
        ∃ v, exec (.joinReleaseReceived pc rel) s = .next v ∧ v.faults.joinStep = some (rel.step + 1) ∧ 204 ∈ v.irq.pulses ∧
          v.stack = s.stack ∧
          (sound → v.faults.take = .copying ∧
            v.fabric.out = s.fabric.out ++ ranges.map fun r => .copyRequest r.source rel.step r.srcOff r.bytes none) ∧
          (¬ sound → v.faults.take = .failed ∧ v.faults.takeCmd = none))) ∧
    (∀ (copies : List (List Byte)) (c : W32) (x : Ctx) (j : W64), s.faults.take = .copying → s.takenCtx = some (c, x) →
      s.faults.joinStep = some j →
      (∃ v, exec (.takeoverCopyComplete copies true) s = .next v ∧ v.faults.take = .failed ∧ v.faults.takeCmd = none ∧
        v.stack = s.stack) ∧
      (copies.map List.length ≠ (s.listRanges x).map (fun r => r.bytes) →
        exec (.takeoverCopyComplete copies false) s = .next s) ∧
      (copies.map List.length = (s.listRanges x).map (fun r => r.bytes) →
        ∃ v, exec (.takeoverCopyComplete copies false) s = .next v ∧ v.faults.take = .joined ∧ v.faults.takeCmd = none ∧
          v.faults.takeStep = j ∧ v.faults.takeCursor = s.cursorJ x j ∧
          ∀ r b, s.listRanges x = [r] → copies = [b] → (∀ e ∈ s.unfenced, e.place ≠ .stack) →
            (∀ i, i < b.length → s.offsetUsable x (r.offset + i) = true) →
            memRead v.stack (x.regionBase.toNat + r.offset) b.length = b)) ∧
    (∀ (pc : W16) (header streams : List Byte),
      (pc ∈ s.faults.armed → exec (.snapshotRecordReceived pc header streams) s = .next { s with
        faults := { s.faults with records := mapPut s.faults.records pc.toNat (header, streams) } }) ∧
      (pc ∉ s.faults.armed → exec (.snapshotRecordReceived pc header streams) s = .next s))

/-! ### Faults, spares, ports and light -/

/-- Faults and what contains them (R36 to R39, R97, R100, R374 to R377, R412 to R416, R422, R487, R495): each is recorded by
class; a first core fault starts the spare's audit and a second takes the cluster out; a first pseudo-channel fault fills
the spare and a second takes the stack out; a journal copy is rebuilt elsewhere; the last postmaster core, a die link, the
light, a trip, a rail and FAULT_IN_N held for 1 µs fence the module. A port trains, but not to a port of its own module,
swaps its spare lane, goes DOWN, OUT or DARK, and the frame that it could not deliver goes another way. What does not apply
changes nothing. (A second failed training as class 6, and whether a cluster fault is one of an accumulation-store row, are
the model's choices: notes/assumptions/58.md and 62.md.) -/
def Obligations.FaultsAndPorts : Prop :=
  ∀ (s : State), contextsListed s →
    let changed (v : State) : Prop := v.faults.changes = min 0xFFFF (s.faults.changes + 1) ∧ 192 ∈ v.irq.pulses
    (∀ t q,
      (s.teamServes t = false ∨ 16 ≤ q → exec (.coreFault t q) s = .next s) ∧
      (s.teamServes t = true → q < 16 → t ∉ s.faults.spareUsed → t ∉ s.faults.auditing →
        ∃ v, exec (.coreFault t q) s = .next v ∧ recorded s v 1 t ∧ v.retired = s.retired ++ [.core t q] ∧
          t ∈ v.faults.auditing ∧ (v.core t q).mem = [] ∧ v.faults.clusterOut = s.faults.clusterOut) ∧
      (s.teamServes t = true → q < 16 → t ∈ s.faults.spareUsed ∨ t ∈ s.faults.auditing →
        ∃ v, exec (.coreFault t q) s = .next v ∧ recorded s v 2 t ∧ v.retired = s.retired ++ [.core t q] ∧
          t ∈ v.faults.clusterOut ∧ changed v)) ∧
    (∀ t, (s.teamServes t = false → exec (.clusterFault t) s = .next s) ∧
      (s.teamServes t = true →
        ∃ v, exec (.clusterFault t) s = .next v ∧ recorded s v 2 t ∧ t ∈ v.faults.clusterOut ∧ changed v ∧
          (faultedCtx s v fun c x => s.holder t = some (c, x)) ∧
          (v.regs = s.regs ∨
            v.regs = { s.regs with acsFaults := min 0xFFFF (s.regs.acsFaults + 1), acsLastTeam := t }))) ∧
    (∀ t, (t ∈ s.faults.auditing →
        (∃ v, exec (.recoveryAuditComplete t true) s = .next v ∧ t ∉ v.faults.auditing ∧ t ∈ v.faults.spareUsed ∧ changed v) ∧
        ∃ v, exec (.recoveryAuditComplete t false) s = .next v ∧ recorded s v 2 t ∧ v.retired = s.retired ++ [.core t 16] ∧
          (t ∉ s.faults.clusterOut → t ∈ v.faults.clusterOut ∧ t ∉ v.faults.auditing)) ∧
      (∀ pc cmd left, t ∉ s.faults.auditing → s.faults.arming = some (pc, cmd, left) → t ∈ left →
        (∀ u ∈ left, u = t) →
        (∃ w : State, exec (.recoveryAuditComplete t true) s = .next (w.finishRef cmd 0 1 0) ∧ pc ∈ w.faults.armed ∧
          w.faults.arming = none ∧ 204 ∈ w.irq.pulses) ∧
        exec (.recoveryAuditComplete t false) s =
          .next (State.finishRef { s with faults := { s.faults with arming := none } } cmd 0 0 0)) ∧
      (∀ b, t ∉ s.faults.auditing → s.faults.arming = none → exec (.recoveryAuditComplete t b) s = .next s)) ∧
    (∀ k, (12 ≤ k ∨ k ∈ s.faults.stackOut → exec (.pseudoChannelFault k) s = .next s) ∧
      (k < 12 → k ∉ s.faults.stackOut → k ∉ s.faults.pchFailed →
        ∃ v, exec (.pseudoChannelFault k) s = .next v ∧ recorded s v 3 k ∧ k ∈ v.faults.pchFailed ∧ k ∈ v.faults.filling ∧
          min 0xFFFF s.faults.stackCorrected ≤ v.faults.stackCorrected ∧ v.retired = s.retired ++ [.channel k]) ∧
      (k < 12 → k ∉ s.faults.stackOut → k ∈ s.faults.pchFailed →
        exec (.pseudoChannelFault k) s = exec (.stackFault k .secondChannel) s) ∧
      (k < 12 → k ∉ s.faults.stackOut → ∀ cause, cause = .interface ∨ k ∈ s.faults.pchFailed →
        ∃ v, exec (.stackFault k cause) s = .next v ∧ recorded s v 4 k ∧ k ∈ v.faults.stackOut ∧ k ∉ v.faults.filling ∧
          changed v ∧ v.retired = s.retired ++ [.stack k] ∧ (faultedCtx s v fun _ x => x.inStack k = true) ∧
          ((∀ t, (s.team t).upd.queue = []) → ∀ a, a / stackSize ≠ k → memGet v.stack a = memGet s.stack a) ∧
          (k ∈ s.journal.copies → (∃ j ∈ s.journal.copies, j ≠ k) →
            v.journal.copies = (s.journal.copies.filter fun c => c != k) ∧ v.journal.rebuilding = true)) ∧
      (k ∈ s.faults.filling →
        ∃ v, exec (.spareFillComplete k) s = .next v ∧ k ∉ v.faults.filling ∧ k ∈ v.faults.pchUsed ∧ changed v) ∧
      (k ∉ s.faults.filling → exec (.spareFillComplete k) s = .next s)) ∧
    (s.journal.rebuilding = false → exec .journalRebuildComplete s = .next s) ∧
    (∀ k, s.journal.rebuilding = true → s.standby = some k →
      k ∉ s.journal.copies ∧ k ∉ s.faults.stackOut ∧ (∀ c ∈ s.journal.copies, c / 3 ≠ k / 3) ∧
      exec .journalRebuildComplete s = .next { s with
        free := s.free + 1
        journal := { s.journal with copies := s.journal.copies ++ [k]
                                    rebuilding := decide ((s.journal.copies ++ [k]).length < 2), touched := [] } }) ∧
    (∀ m, (m ∉ s.faults.cores → exec (.mcHeartbeatMiss m) s = .next s) ∧
      (m ∈ s.faults.cores → m < 6 →
        ∃ v, exec (.mcHeartbeatMiss m) s = .next v ∧ recorded s v 8 m ∧ v.faults.cores = s.faults.cores.filter (· != m)) ∧
      (m ∈ s.faults.cores → 6 ≤ m → (∃ n ∈ s.faults.cores, n ≠ m ∧ (n = 6 ∨ n = 7)) →
        ∃ v, exec (.mcHeartbeatMiss m) s = .next v ∧ recorded s v 9 m ∧ v.faults.cores = s.faults.cores.filter (· != m)) ∧
      (m ∈ s.faults.cores → 6 ≤ m → (∀ n ∈ s.faults.cores, n ≠ m → n < 6) → s.faults.selfFenced = false →
        ∃ v, exec (.mcHeartbeatMiss m) s = .next v ∧ fencedNow v)) ∧
    (∀ c x, s.ctx c = some x → c.toNat ∈ s.journal.replaying → s.power.boot = .running → s.journal.copies ≠ [] →
      (∀ t ∈ x.teams, t ∉ s.faults.auditing) → x.restoreDue = false →
      ∃ v, exec (.journalReplay c) s = .next v ∧ c.toNat ∉ v.journal.replaying ∧
        (∀ y, v.ctx c = some y → ∀ l ∈ y.launches, l.interrupted = false) ∧
        let sources : Prop := ∀ l ∈ x.launches, l.interrupted = true → ∀ b ∈ l.wrote, b.mark = .begun →
          s.hasSource c x b = true
        (sources → ∀ l ∈ x.launches, l.interrupted = true → ∀ y, s.cmd c l.seq = some y → y.over = false →
          ∃ z, v.cmd c l.seq = some z ∧ z.phase = .accepted ∧ z.replayed = true) ∧
        (¬ sources → ∃ y, v.ctx c = some y ∧ y.faulted = true)) ∧
    (∀ c, c.toNat ∉ s.journal.replaying → exec (.journalReplay c) s = .next s) ∧
    (∀ ns, s.power.boot = .noSupply → exec (.faultInAssert ns) s = .next s) ∧
    (∀ ns, s.power.boot ≠ .noSupply →
      let seen : State := { s with free := s.free + 1, faults := { s.faults with faultIn := true } }
      (ns < 10 → exec (.faultInAssert ns) s = .next s.bumpFree) ∧
      (ns < 20 → exec (.faultInAssert ns) s = .next s.bumpFree ∨ exec (.faultInAssert ns) s = .next seen) ∧
      (20 ≤ ns → ns < 1000 → exec (.faultInAssert ns) s = .next seen) ∧
      (1000 ≤ ns → s.faults.selfFenced = false →
        ∃ v, exec (.faultInAssert ns) s = .next v ∧ fencedNow v ∧ v.faults.faultIn = true)) ∧
    exec .faultInRelease s = .next { s with faults := { s.faults with faultIn := false } } ∧
    (s.powered = true → s.faults.selfFenced = false →
      (∀ d, ∃ v, exec (.dieLinkFault d) s = .next v ∧ fencedNow v) ∧
      ∃ v, exec .railFault s = .next v ∧ fencedNow v ∧ v.power.pwrGood = false ∧
        (s.power.boot = .starting → v.power.failedStep = s.power.bootStep + 1)) ∧
    (s.powered = false → exec .railFault s = .next s ∧ ∀ d, exec (.dieLinkFault d) s = .next s) ∧
    (∀ d, s.powered = true → s.power.clocksStopped = false → d < 5 →
      ∃ v, exec (.thermalTrip d) s = .next v ∧ v.power.tripped = true ∧ v.power.clocksStopped = true ∧
        v.power.thermTrips = min 0xFF (s.power.thermTrips + 1) ∧ 110 ≤ v.junction d ∧
        (s.faults.selfFenced = false → fencedNow v)) ∧
    (∀ d, s.powered = false ∨ s.power.clocksStopped = true ∨ 5 ≤ d → exec (.thermalTrip d) s = .next s) ∧
    (∀ p,
      let x := s.port p
      let put (y : Port) : State := { s with fabric := { s.fabric with ports := mapPut s.fabric.ports p y } }
      (p < 32 → x.state = .down → s.faults.selfFenced = false → s.portsRun = true → exec (.portPartnerDetect p) s =
        .next (put { x with state := .training, retrains := min 0xFF (x.retrains + 1) })) ∧
      (x.state ≠ .down ∨ s.portsRun = false → exec (.portPartnerDetect p) s = .next s) ∧
      (∀ res, x.state ≠ .training ∨ s.portsRun = false → exec (.trainingComplete p res) s = .next s) ∧
      (∀ d pc peer, x.state = .training → s.portsRun = true →
        ∃ v, exec (.trainingComplete p (.up d pc peer false)) s = .next v ∧ 197 ∈ v.irq.pulses ∧
          v.port p = { x with
            state := .up, delay := d, asymmetry := (v.port p).asymmetry, peerPostcode := pc, peerPort := peer
            laneMap := upLanes x.retired, attempts := 0, failures := 0, adverts := if pc = 0xFFFF then [] else [pc] }) ∧
      (∀ res, x.state = .training → s.portsRun = true → (res = .down ∨ ∃ d pc peer, res = .up d pc peer true) →
        ∃ v, exec (.trainingComplete p res) s = .next v ∧
          v.port p = { x with
            peerPostcode := 0xFFFF, peerPort := 0xFF, peerVersion := none, peerHops := none, state := .down, laneMap := 0
            attempts := 0, failures := min 0xFF (x.failures + 1), adverts := [] } ∧
          (x.failures = 0 → v.faults = s.faults) ∧ (1 ≤ x.failures → recorded s v 6 p)) ∧
      (x.state = .up ∨ x.state = .training ∨ x.state = .swapping → ∃ v, exec (.portPartnerLoss p) s = .next v ∧
        v.port p = { x with peerPostcode := 0xFFFF, peerPort := 0xFF, peerVersion := none, peerHops := none
                            state := .down, laneMap := 0, attempts := 0, adverts := [] } ∧
        (x.state = .up → 197 ∈ v.irq.pulses)) ∧
      (∀ pc r, s.route pc = some r →
        (x.state = .up → (mapGet r.via p).isSome = true → exec (.routeChange pc p) s = .next s.flushWaiting) ∧
        (x.state ≠ .up ∨ mapGet r.via p = none → exec (.routeChange pc p) s = .next s)) ∧
      (∀ f, x.state = .up → 6 ≤ x.attempts → (s.framesOn p).getLast? = some f →
        ∃ v, exec (.linkLevelResend p true) s = .next v ∧ ((∃ q, q ≠ p ∧ .frame q f ∈ v.fabric.out) ∨ f ∈ v.fabric.waiting)) ∧
      (∀ l, s.portServes p = true → l < 9 → x.state ≠ .dark → l ∉ x.retired → (l = 8 → x.retired ≠ []) →
        ∃ v, exec (.laneRetire p l) s = .next v ∧ v.retired = s.retired ++ [.lane p l] ∧ (v.port p).retired = l :: x.retired ∧
          197 ∈ v.irq.pulses ∧
          (x.retired = [] → x.state = .up → recorded s v 5 p ∧
            v.port p = { x with state := .swapping, retired := [l], laneMap := 0, attempts := 0 }) ∧
          (x.retired = [] → x.state ≠ .up → recorded s v 5 p ∧ v.port p = { x with retired := [l] }) ∧
          (x.retired ≠ [] → recorded s v 6 p ∧ (v.port p).state = .out ∧ (v.port p).laneMap = 0 ∧
            p ∈ v.faults.portOut ∧ changed v)) ∧
      (x.state ≠ .swapping → exec (.swapComplete p) s = .next s) ∧
      (x.state = .swapping → ∃ v, exec (.swapComplete p) s = .next v ∧
        v.port p = { x with state := .up, laneMap := upLanes x.retired, attempts := 0 } ∧
        (x.retired ≠ [] → p ∈ v.faults.laneUsed) ∧ (x.retired ≠ [] → p ∉ s.faults.laneUsed → changed v)) ∧
      (∀ b, x.state ≠ .up → exec (.linkLevelResend p b) s = .next s) ∧
      (∀ b, x.state = .up → ∃ v, exec (.linkLevelResend p b) s = .next v ∧
        v.fabric.stats = { s.fabric.stats with hopRetries := s.fabric.stats.hopRetries + 1 } ∧
        (b = false → v.port p = { x with attempts := 0 }) ∧
        (b = true → x.attempts < 6 → v.port p = { x with attempts := x.attempts + 1 }) ∧
        (b = true → 6 ≤ x.attempts → v.port p = { x with
          peerPostcode := 0xFFFF, peerPort := 0xFF, peerVersion := none, peerHops := none, state := .down, laneMap := 0
          attempts := 0, adverts := [] }))) ∧
    (∀ n, n < 2 → s.powered = false →
      exec (.cartridgeInsert n) s = .next s ∧ exec (.cartridgeReady n) s = .next s ∧
      ∃ v, exec (.cartridgeFail n) s = .next v ∧ v.cartOk n = false ∧ v.cartOk (1 - n) = s.cartOk (1 - n) ∧
        v.faults = s.faults) ∧
    (∀ n, n < 2 → s.powered = true →
      let turns := min 0xFF (s.fabric.stats.cartChanges + 1)
      let turned : State := { s with fabric := { s.fabric with stats := { s.fabric.stats with cartChanges := turns } } }
      (s.cartOk n = true → exec (.cartridgeInsert n) s = .next s ∧ exec (.cartridgeReady n) s = .next s ∧
        ∃ v, exec (.cartridgeFail n) s = .next v ∧ v.cartOk n = false ∧ 198 ∈ v.irq.pulses ∧ v.fabric.stats.cartChanges = turns ∧
          (s.cartOk (1 - n) = true → recorded s v 7 n ∧ v.cartOk (1 - n) = true) ∧
          (s.cartOk (1 - n) = false → s.faults.selfFenced = false → fencedNow v ∧
            ∀ p < 32, (s.port p).state ≠ .out → (v.port p).state = .dark)) ∧
      (s.cartOk n = false → exec (.cartridgeFail n) s = .next s ∧ exec (.cartridgeInsert n) s = .next (turned.pulse 198) ∧
        ∃ v, exec (.cartridgeReady n) s = .next v ∧ v.cartOk n = true ∧ 198 ∈ v.irq.pulses ∧ v.fabric.stats.cartChanges = turns ∧
          ∀ p < 32, (s.port p).state = .dark → s.part9620 = false ∨ p < 16 → (v.port p).state = .down))

/-! ### Supply, clocks, idle states and start-up -/

/-- Supply, contacts, start-up, clocks and idle states (R481, R484 to R496, R498, R499): SUPPLY asserts outside VIN_MIN to
VIN_MAX; a loss of supply leaves what flash and fuses hold; a reset is orderly unless the module is fenced; start-up ends
step by step in READY; a die's clock and junction follow their events; DOZE and SLEEP are entered when idle, and WAKE
returns to ACTIVE with what came meanwhile. What does not apply changes nothing. -/
def Obligations.PowerAndStartUp : Prop :=
  ∀ (s : State), contextsListed s →
    let power (p : Power) : State := { s with power := p }
    let bad (vin : W16) : Bool := decide (vin.toNat < 10 * s.pm.vinMin) || decide (10 * s.pm.vinMax < vin.toNat)
    let dead := s.power.boot = .noSupply
    let resettable := s.power.boot = .running ∨ (s.power.boot = .starting ∧ 2 ≤ s.power.bootStep)
    (∀ vin,
      (dead → exec (.supplyOutOfRange vin) s = .next s ∧ exec (.supplyInRange vin) s = .next s) ∧
      (¬ dead → exec (.supplyOutOfRange vin) s = .next (power { s.power with vin := vin.toNat, supplyBad := bad vin })) ∧
      (¬ dead → bad vin = true → exec (.supplyInRange vin) s = .next s) ∧
      (¬ dead → bad vin = false →
        exec (.supplyInRange vin) s = .next (power { s.power with vin := vin.toNat, supplyBad := false }))) ∧
    (dead → exec .supplyUndervoltage s = .next s ∧ exec .supplyOvervoltage s = .next s ∧
      ∃ v, exec .powerOn s = .next v ∧ lightPut s v ∧
        v = { power { s.power with
          boot := .starting, bootStep := 0, lastType := 1, journalKept := false, resets := 0, thermTrips := 0 } with
          fabric := { s.fabric with ports := v.fabric.ports } }) ∧
    (¬ dead → exec .powerOn s = .next s ∧ exec .supplyOvervoltage s = exec .supplyUndervoltage s ∧
      ∃ v, exec .supplyUndervoltage s = .next v ∧ v.power.boot = .noSupply ∧ v.power.ready = false ∧ v.stack = [] ∧
        v.teams = [] ∧ v.ctxs = [] ∧ v.cmds = [] ∧ v.hub = [] ∧ v.postmark = 0 ∧ v.time = { } ∧ v.retired = s.retired ∧
        v.pool = s.pool ∧ v.pm = { s.pm with ignored := 0, reqOk := 0, reqRefused := 0 } ∧ v.power.bankA = s.power.bankA ∧
        v.power.bankB = s.power.bankB ∧ v.hostMem = s.hostMem ∧
        (∀ p < 32, (v.port p).state = .dark ∨ (v.port p).state = .out) ∧
        ∀ f < 64, (v.fn f).periods = (s.fn f).periods ∧ (v.fn f).isoA = (s.fn f).isoA ∧ (v.fn f).sqOn = false ∧
          (v.fn f).frank.flags = 2) ∧
    (∀ i ∈ [Instr.pwrEnFall, Instr.modResetAssert],
      resettable → s.faults.selfFenced = false → ∃ v, exec i s = .next v ∧ orderlyReset s v) ∧
    (resettable → (∃ v, exec .pwrEnFall s = .next v ∧ v.power.boot = .off ∧ v.power.pwrGood = false ∧
        v.power.pwrEn = false ∧ ∀ p < 32, (v.port p).state = .dark ∨ (v.port p).state = .out) ∧
      ∃ v, exec .modResetAssert s = .next v ∧ v.power.boot = .resetHeld ∧ v.power.modResetN = false ∧
        v.power.pwrGood = false ∧
        v.power.lastType = (if s.faults.selfFenced = true then 4 else 3) ∧
        ((∀ t, (s.team t).upd.queue = []) → v.stack = s.stack) ∧ v.hub = [] ∧
        v.power.resets = min 0xFFFF (s.power.resets + 1) ∧ v.faults.selfFenced = false) ∧
    (¬ resettable → exec .modResetAssert s = .next (power { s.power with modResetN := false }) ∧
      (s.power.boot ≠ .resetHeld → exec .pwrEnFall s = .next (power { s.power with pwrEn := false })) ∧
      (s.power.boot = .resetHeld → ∃ v, exec .pwrEnFall s = .next v ∧
        (∀ p < 32, v.port p = { s.port p with state := if (s.port p).state = .out then .out else .dark }) ∧
        v = { power { s.power with pwrEn := false, boot := .off, pwrGood := false } with
          fabric := { s.fabric with ports := v.fabric.ports } })) ∧
    (s.power.boot ≠ .off → exec .pwrEnRise s = .next (power { s.power with pwrEn := true })) ∧
    (s.power.boot = .off → ∃ v, exec .pwrEnRise s = .next v ∧ v.power.boot = .starting ∧ v.power.lastType = 2 ∧
      v.power.pwrEn = true ∧ v.power.resets = min 0xFFFF (s.power.resets + 1) ∧ v.time = loadedTime s ∧ lightPut s v ∧
      v = { power v.power with time := v.time, fabric := { s.fabric with ports := v.fabric.ports } }) ∧
    (s.power.boot ≠ .resetHeld → exec .modResetRelease s = .next (power { s.power with modResetN := true })) ∧
    (s.power.boot = .resetHeld → exec .modResetRelease s = .next { power { s.power with
      modResetN := true, boot := .starting } with time := loadedTime s }) ∧
    (∀ l b, s.stepMayEnd = false → exec (.startupStepComplete l b) s = .next s) ∧
    (∀ l, s.stepMayEnd = true → s.faults.selfFenced = false → ∃ v, exec (.startupStepComplete l true) s = .next v ∧
      fencedNow v ∧ v.power.failedStep = s.power.bootStep + 1 ∧ v.power.bootStep = s.power.bootStep) ∧
    (∀ r, s.stepMayEnd = true → r ∉ s.retired → s.exposes r = true → ∃ v, exec (.startupStepComplete [r] false) s = .next v ∧
      (unitOut s r = false →
        v.retired = s.retired ++ [match r with
          | .channel k => if k ∈ s.faults.pchFailed then .stack k else r
          | _ => r] ∧
        v.faults.changes = min 0xFFFF (s.faults.changes + 1) ∧ (∀ p l, r = .lane p l → 197 ∈ v.irq.pulses) ∧
        (∀ c x k, r = .stack k → s.ctx c = some x → x.inStack k = true → x.span ≠ 1 →
          ∃ y, v.ctx c = some y ∧ y.faulted = true)) ∧
      (unitOut s r = true → v.faults.changes = s.faults.changes) ∧
      v.power.bootStep = s.power.bootStep + 1 ∧ v.power.boot = if s.power.bootStep = 9 then .running else .starting) ∧
    (s.stepMayEnd = true →
      let n := s.power.bootStep + 1
      (n = 3 → ∃ v, exec (.startupStepComplete [] false) s = .next v ∧
        v = { power { s.power with bootStep := 3, pwrGood := true, dies := v.power.dies } with free := v.free } ∧
        ∀ d, d < 4 → v.die d = { s.die d with mv := (v.die d).mv } ∧ 650 ≤ (v.die d).mv ∧ (v.die d).mv ≤ 900) ∧
      (n = 10 → ∃ v, exec (.startupStepComplete [] false) s = .next v ∧
        v = { power { s.power with bootStep := 10, boot := .running, ready := true } with
          hub := v.hub, ctxs := v.ctxs
          faults := { s.faults with
            take := if s.faults.take = .none ∧ s.faults.armed ≠ [] then .armed else s.faults.take } } ∧
        (∀ y ∈ v.ctxs, y.2.savedHub = []) ∧
        (∀ x ∈ s.ctxs, ∀ o ∈ x.2.savedHub, (x.2.savedHub.map Prod.fst).Nodup →
          (∀ z ∈ s.ctxs, z = x ∨ o.1 ∉ z.2.savedHub.map Prod.fst) → mapGet v.hub o.1 = some o.2) ∧
        ((∀ x ∈ s.ctxs, x.2.savedHub = []) → v.hub = s.hub ∧ v.ctxs = s.ctxs)) ∧
      (n = 1 ∨ n = 4 ∨ n = 5 ∨ n = 8 ∨ n = 9 ∨
          (n = 7 ∧ ¬ (s.time.role = 1 ∧ s.time.source = 0 ∧ s.time.state = .slewing)) →
        exec (.startupStepComplete [] false) s = .next (power { s.power with bootStep := n })) ∧
      (n = 7 → s.time.role = 1 → s.time.source = 0 → s.time.state = .slewing →
        ∃ v, exec (.startupStepComplete [] false) s = .next v ∧ v.power.bootStep = 7 ∧ v.time.state = .locked ∧
          v.postmark = s.postmark ∧ v.stack = s.stack) ∧
      (n = 2 → s.power.lastType = 1 → ∃ v, exec (.startupStepComplete [] false) s = .next v ∧ v.time.role = s.pm.role ∧
        v.time.source = s.pm.source ∧ v.power.bootStep = 2 ∧ v.pm.secondNext = none ∧ v.stack = s.stack ∧
        v.power.fwVersion = (if s.power.bankB.valid = true ∧
          (s.power.bankA.valid = false ∨ s.power.bankA.version < s.power.bankB.version) then s.power.bankB.version
          else s.power.bankA.version)) ∧
      (n = 6 → ∃ v, exec (.startupStepComplete [] false) s = .next v ∧ v.power.bootStep = 6 ∧ v.postmark = s.postmark ∧
        (s.time.role = 1 → s.time.source = 0 → s.time.state = .unposted → v.time.state = .locked ∧ v.time.lockAt = s.postmark) ∧
        (s.time.role = 1 → s.time.source = 0 ∨ s.time.refPresent = true ∧ s.time.source = 1 → s.time.state = .holdover →
          v.time = { s.time with edges := 0, state := .slewing }) ∧
        (s.time.role ≠ 1 → v.time = { s.time with edges := 0 }))) ∧
    (∀ d tj,
      (s.powered = false ∨ 5 ≤ d ∨ 256 ≤ tj → exec (.tjLimitCrossing d tj) s = .next s) ∧
      (s.powered = true → d < 5 → tj < 256 → ∃ v, exec (.tjLimitCrossing d tj) s = .next v ∧
        v = power { s.power with dies := v.power.dies, hubTj := v.power.hubTj, hot := v.power.hot, tjMax := v.power.tjMax } ∧
        (∀ i < 4, v.die i = { s.die i with tj := if i = d then tj else (s.die i).tj }) ∧ measured s v ∧
        ∀ i < 5, v.junction i = if i = d then tj else s.junction i)) ∧
    (∀ d mhz mv tj,
      let x := s.die d
      let sound := s.powered = true ∧ s.power.clocksStopped = false ∧ d < 4 ∧ tj < 256 ∧ 1200 ≤ mhz ∧
        mhz ≤ 1200 + 25 * s.power.fCeil ∧ mhz % 25 = 0 ∧ (tj ≤ s.pm.tjLimit ∨ mhz = 1200) ∧ 650 ≤ mv ∧ mv ≤ 900 ∧
        (x.mhz < mhz → x.mv ≤ mv) ∧ (mhz < x.mhz → mv ≤ x.mv)
      (¬ sound → exec (.frequencyAdjust d mhz mv tj) s = .next s) ∧
      (sound → ∃ v, exec (.frequencyAdjust d mhz mv tj) s = .next v ∧ measured s v ∧
        v = power { s.power with
          dies := mapPut s.power.dies d { x with mhz := mhz, mv := mv, tj := tj }
          hot := v.power.hot, tjMax := v.power.tjMax })) ∧
    (∀ d,
      (s.powered = true → s.power.clocksStopped = false → d < 4 → (s.die d).stretched = false →
        exec (.droopDetect d) s = .next (power { s.power with
          dies := mapPut s.power.dies d { s.die d with stretched := true, stretches := (s.die d).stretches + 1 } })) ∧
      (s.power.clocksStopped = true → exec (.droopDetect d) s = .next s) ∧
      ((s.die d).stretched = true → exec (.droopDetect d) s = .next s ∧ exec (.stretchEnd d) s = .next (power { s.power with
        dies := mapPut s.power.dies d { s.die d with stretched := false } })) ∧
      ((s.die d).stretched = false → exec (.stretchEnd d) s = .next s)) ∧
    (let may := s.power.boot = .running ∧ s.power.state = .active ∧ s.power.autoDoze = true ∧
       (∀ t ∈ s.teams, t.2.idle = true) ∧ s.fabric.colls = []
     (may → exec .dozeEntry s = .next (power { s.power with
       state := .doze, dozeEntries := min 0xFFFF (s.power.dozeEntries + 1) })) ∧
     (¬ may → exec .dozeEntry s = .next s)) ∧
    (let may := s.power.boot = .running ∧ s.power.state ≠ .sleep ∧ s.power.sleepReq = true ∧
       (∀ x ∈ s.ctxs, x.2.running = false) ∧ s.executing = false
     (¬ may → exec .sleepEntry s = .next s) ∧
     (may → exec .sleepRefusal s = .next s ∧
       ∃ v, exec .sleepEntry s = .next v ∧ v.power = { s.power with
         state := .sleep, waking := false, sleepEntries := min 0xFFFF (s.power.sleepEntries + 1) } ∧
         (∀ f, (v.fn f).bank.latched = []) ∧ v.irq.edges = [] ∧ v.irq.storm = [] ∧ v.irq.stuck = [] ∧ v.stack = s.stack) ∧
     (¬ may → s.power.sleepReq = true → s.power.state ≠ .sleep →
       exec .sleepRefusal s = .next (power { s.power with sleepReq := false, sleepRefused := true })) ∧
     (s.power.sleepReq = false ∨ s.power.state = .sleep → exec .sleepRefusal s = .next s)) ∧
    (s.power.state ≠ .sleep ∨ s.power.waking = false → exec .wake s = .next s) ∧
    (s.power.state = .sleep → s.power.waking = true →
      ∃ v, exec .wake s = .next v ∧ v.power = { s.power with state := .active, waking := false, sleepReq := false } ∧
        v.irq.caught = [] ∧ v.fabric.asleep = [] ∧
        ∀ src ∈ s.irq.caught, src < 192 → s.fnExists (src % 64) = true →
          ((v.fn (src % 64)).bank.pendOf (src / 32) &&& srcBit src) ≠ 0)
end

