-- ==== Sys2Proof/Laws/Maps.lean ====
section
/-! SUPPORT. Laws of sparse tables and byte memories: read after write, and the canonical form kept. -/

namespace Sys2Proof.Machine

open Sys2Proof

@[simp] theorem mapGet_nil {α : Type} (j : Nat) : mapGet ([] : SMap α) j = none := rfl

/-- A key reads as what was last written to it. -/
@[simp] theorem mapGet_mapPut_self {α : Type} (m : SMap α) (k : Nat) (v : α) : mapGet (mapPut m k v) k = some v := by
  induction m with
  | nil => simp [mapPut, mapGet]
  | cons x r ih =>
    obtain ⟨j, w⟩ := x
    simp only [mapPut]
    split
    · simp [mapGet]
    · split
      · simp [mapGet]
      · simp [mapGet, *]

/-- A write to one key leaves what any other key reads as. -/
theorem mapGet_mapPut_ne {α : Type} (m : SMap α) {j k : Nat} (h : j ≠ k) (v : α) :
    mapGet (mapPut m k v) j = mapGet m j := by
  induction m with
  | nil => simp [mapPut, mapGet, Ne.symm h]
  | cons x r ih =>
    obtain ⟨i, w⟩ := x
    simp only [mapPut]
    split
    · rename_i e; subst e; simp [mapGet, Ne.symm h]
    · split
      · simp [mapGet, Ne.symm h]
      · simp only [mapGet, ih]

@[simp] theorem mapGetD_mapPut_self {α : Type} (m : SMap α) (d : α) (k : Nat) (v : α) :
    mapGetD (mapPut m k v) d k = v := by simp [mapGetD]

theorem mapGetD_mapPut_ne {α : Type} (m : SMap α) (d : α) {j k : Nat} (h : j ≠ k) (v : α) :
    mapGetD (mapPut m k v) d j = mapGetD m d j := by simp [mapGetD, mapGet_mapPut_ne m h v]

/-- A dropped key is not listed. -/
@[simp] theorem mapGet_mapDrop_self {α : Type} (m : SMap α) (k : Nat) : mapGet (mapDrop m k) k = none := by
  induction m with
  | nil => rfl
  | cons x r ih =>
    obtain ⟨j, w⟩ := x
    by_cases e : j = k
    · subst e; simpa [mapDrop] using ih
    · have e' : (j != k) = true := by simp [e]
      simp only [mapDrop, List.filter, e', mapGet, if_neg e]
      exact ih

/-- Dropping one key leaves what any other key reads as. -/
theorem mapGet_mapDrop_ne {α : Type} (m : SMap α) {j k : Nat} (h : j ≠ k) : mapGet (mapDrop m k) j = mapGet m j := by
  induction m with
  | nil => rfl
  | cons x r ih =>
    obtain ⟨i, w⟩ := x
    by_cases e : i = k
    · subst e
      have : (i == j) = false := by simp [Ne.symm h]
      simpa [mapDrop, mapGet, Ne.symm h] using ih
    · have e' : (i != k) = true := by simp [e]
      simp only [mapDrop, List.filter, e', mapGet]
      simp only [mapDrop] at ih
      rw [ih]

/-- A byte reads as what was last written to it. -/
@[simp] theorem memGet_memSet_self (m : Memory) (a : Nat) (b : Byte) : memGet (memSet m a b) a = b := by
  by_cases h : b = 0
  · simp [memGet, memSet, h, mapGetD]
  · rw [memSet, if_neg h, memGet, mapGetD_mapPut_self]

/-- A write of one byte leaves every other byte alone. -/
theorem memGet_memSet_ne (m : Memory) {a c : Nat} (h : c ≠ a) (b : Byte) : memGet (memSet m a b) c = memGet m c := by
  by_cases e : b = 0
  · simp [memGet, memSet, e, mapGetD, mapGet_mapDrop_ne m h]
  · rw [memSet, if_neg e, memGet, mapGetD_mapPut_ne m _ h, memGet]

/-- A write of a list of bytes leaves every byte outside it alone. -/
theorem memGet_memWrite_outside (l : List Byte) : ∀ (m : Memory) (a c : Nat), (c < a ∨ a + l.length ≤ c) →
    memGet (memWrite m a l) c = memGet m c := by
  induction l with
  | nil => intro m a c _; rfl
  | cons b r ih =>
    intro m a c h
    simp only [List.length_cons] at h
    rw [memWrite, ih _ _ _ (by omega), memGet_memSet_ne m (by omega)]

/-- A byte inside a written list reads as the list's byte. -/
theorem memGet_memWrite_inside (l : List Byte) : ∀ (m : Memory) (a i : Nat) (h : i < l.length),
    memGet (memWrite m a l) (a + i) = l[i] := by
  induction l with
  | nil => intro m a i h; simp at h
  | cons b r ih =>
    intro m a i h
    cases i with
    | zero => simp [memWrite, memGet_memWrite_outside r _ (a + 1) a (by omega)]
    | succ i =>
      have := ih (memSet m a b) (a + 1) i (by simpa using h)
      simpa [memWrite, Nat.add_assoc, Nat.add_comm 1 i] using this

/-- Reading back what was written. -/
theorem memRead_memWrite (m : Memory) (a : Nat) (l : List Byte) : memRead (memWrite m a l) a l.length = l := by
  apply List.ext_getElem
  · simp [memRead]
  · intro i h1 h2
    simp [memRead, memGet_memWrite_inside l m a i h2]

/-! ### The canonical form -/

/-- The canonical form as two statements about a list: keys strictly rising, no zero byte. -/
theorem Memory.wf_iff (m : Memory) : Memory.wf m = true ↔ m.Pairwise (fun x y => x.1 < y.1) ∧ ∀ x ∈ m, x.2 ≠ 0 := by
  induction m with
  | nil => simp [Memory.wf]
  | cons x r ih =>
    obtain ⟨a, b⟩ := x
    cases r with
    | nil => simp [Memory.wf]
    | cons y r =>
      obtain ⟨a', b'⟩ := y
      simp only [Memory.wf, Bool.and_eq_true, bne_iff_ne, ne_eq, decide_eq_true_eq, ih, List.pairwise_cons,
        List.mem_cons, forall_eq_or_imp]
      have rises (h : a < a') (u : ∀ z ∈ r, a' < z.1) : ∀ z ∈ r, a < z.1 := fun z hz => Nat.lt_trans h (u z hz)
      exact ⟨fun h => ⟨⟨⟨h.1.2, rises h.1.2 h.2.1.1⟩, h.2.1⟩, h.1.1, h.2.2⟩,
        fun h => ⟨⟨h.2.1, h.1.1.1⟩, h.1.2, h.2.2⟩⟩

theorem mem_mapPut {α : Type} (m : SMap α) (k : Nat) (v : α) (x : Nat × α) (h : x ∈ mapPut m k v) :
    x = (k, v) ∨ x ∈ m := by
  induction m with
  | nil => simpa [mapPut] using h
  | cons y r ih =>
    obtain ⟨j, w⟩ := y
    simp only [mapPut] at h
    split at h
    · simp only [List.mem_cons] at h ⊢
      rcases h with h | h
      · exact .inl h
      · exact .inr (.inr h)
    · split at h
      · simpa [List.mem_cons] using h
      · simp only [List.mem_cons] at h ⊢
        rcases h with h | h
        · exact .inr (.inl h)
        · rcases ih h with h | h
          · exact .inl h
          · exact .inr (.inr h)

/-- Writing an entry keeps the keys rising. -/
theorem mapPut_rising {α : Type} (m : SMap α) (k : Nat) (v : α) (h : m.Pairwise fun x y => x.1 < y.1) :
    (mapPut m k v).Pairwise fun x y => x.1 < y.1 := by
  induction m with
  | nil => simp [mapPut]
  | cons y r ih =>
    obtain ⟨j, w⟩ := y
    simp only [List.pairwise_cons] at h
    simp only [mapPut]
    split
    · rename_i e; subst e; exact List.pairwise_cons.mpr ⟨h.1, h.2⟩
    · split
      · rename_i h1 h2
        refine List.pairwise_cons.mpr ⟨?_, List.pairwise_cons.mpr ⟨h.1, h.2⟩⟩
        intro z hz
        simp only [List.mem_cons] at hz
        rcases hz with hz | hz
        · subst hz; exact h2
        · exact Nat.lt_trans h2 (h.1 z hz)
      · rename_i h1 h2
        refine List.pairwise_cons.mpr ⟨?_, ih h.2⟩
        intro z hz
        rcases mem_mapPut r k v z hz with e | e
        · subst e; simp only; omega
        · exact h.1 z e

/-- A filtered memory keeps its form. -/
theorem Memory.wf_filter (m : Memory) (p : Nat × Byte → Bool) (h : Memory.wf m = true) :
    Memory.wf (m.filter p) = true := by
  rw [Memory.wf_iff] at h ⊢
  exact ⟨h.1.filter _, fun x hx => h.2 x (List.mem_filter.mp hx).1⟩

/-- Writing a byte keeps the canonical form. -/
theorem Memory.wf_memSet (m : Memory) (a : Nat) (b : Byte) (h : Memory.wf m = true) :
    Memory.wf (memSet m a b) = true := by
  unfold memSet
  split
  · exact Memory.wf_filter m _ h
  · rename_i e
    rw [Memory.wf_iff] at h ⊢
    refine ⟨mapPut_rising m a b h.1, ?_⟩
    intro x hx
    rcases mem_mapPut m a b x hx with hx | hx
    · subst hx; exact e
    · exact h.2 x hx

/-- Writing a list of bytes keeps the canonical form. -/
theorem Memory.wf_memWrite (l : List Byte) : ∀ (m : Memory) (a : Nat), Memory.wf m = true →
    Memory.wf (memWrite m a l) = true := by
  induction l with
  | nil => intro m a h; exact h
  | cons b r ih => intro m a h; exact ih _ _ (Memory.wf_memSet m a b h)

/-- Writing cells keeps the canonical form. -/
theorem Memory.wf_cells (l : List (Nat × Byte)) : ∀ (m : Memory), Memory.wf m = true →
    Memory.wf (l.foldl (fun m c => memSet m c.1 c.2) m) = true := by
  induction l with
  | nil => intro m h; exact h
  | cons c r ih => intro m h; exact ih _ (Memory.wf_memSet m c.1 c.2 h)

/-- Writing bytes at the addresses of a list keeps the canonical form. -/
theorem Memory.wf_cellsOf {α : Type} (l : List α) (a : α → Nat) (b : α → Byte) : ∀ (m : Memory), Memory.wf m = true →
    Memory.wf (l.foldl (fun m c => memSet m (a c) (b c)) m) = true := by
  induction l with
  | nil => intro m h; exact h
  | cons c r ih => intro m h; exact ih _ (Memory.wf_memSet m (a c) (b c) h)

/-- Clearing a range keeps the canonical form. -/
theorem Memory.wf_memZero (m : Memory) (a n : Nat) (h : Memory.wf m = true) : Memory.wf (memZero m a n) = true :=
  Memory.wf_filter m _ h

/-- The memory with nothing listed. -/
theorem Memory.wf_nil : Memory.wf [] = true := rfl

end Sys2Proof.Machine
end

