-- ==== Sys2Proof/Laws/State.lean ====
section
/-! SUPPORT. What each shared update of the state writes and what it leaves: one lemma for each field and update. -/

namespace Sys2Proof.Machine

open Sys2Proof

/-! ### State.modTeam -/

@[simp] theorem State.modTeam_postmark (s : State) (t : Nat) (f : Team → Team) : (s.modTeam t f).postmark = s.postmark := rfl
@[simp] theorem State.modTeam_part9620 (s : State) (t : Nat) (f : Team → Team) : (s.modTeam t f).part9620 = s.part9620 := rfl
@[simp] theorem State.modTeam_metal (s : State) (t : Nat) (f : Team → Team) : (s.modTeam t f).metal = s.metal := rfl
@[simp] theorem State.modTeam_time (s : State) (t : Nat) (f : Team → Team) : (s.modTeam t f).time = s.time := rfl
@[simp] theorem State.modTeam_fns (s : State) (t : Nat) (f : Team → Team) : (s.modTeam t f).fns = s.fns := rfl
@[simp] theorem State.modTeam_cmds (s : State) (t : Nat) (f : Team → Team) : (s.modTeam t f).cmds = s.cmds := rfl
@[simp] theorem State.modTeam_ctxs (s : State) (t : Nat) (f : Team → Team) : (s.modTeam t f).ctxs = s.ctxs := rfl
@[simp] theorem State.modTeam_uid (s : State) (t : Nat) (f : Team → Team) : (s.modTeam t f).uid = s.uid := rfl
@[simp] theorem State.modTeam_teams (s : State) (t : Nat) (f : Team → Team) : (s.modTeam t f).teams = mapPut s.teams t (f (s.team t)) := rfl
@[simp] theorem State.modTeam_stack (s : State) (t : Nat) (f : Team → Team) : (s.modTeam t f).stack = s.stack := rfl
@[simp] theorem State.modTeam_tags (s : State) (t : Nat) (f : Team → Team) : (s.modTeam t f).tags = s.tags := rfl
@[simp] theorem State.modTeam_stackLog (s : State) (t : Nat) (f : Team → Team) : (s.modTeam t f).stackLog = s.stackLog := rfl
@[simp] theorem State.modTeam_unfenced (s : State) (t : Nat) (f : Team → Team) : (s.modTeam t f).unfenced = s.unfenced := rfl
@[simp] theorem State.modTeam_pool (s : State) (t : Nat) (f : Team → Team) : (s.modTeam t f).pool = s.pool := rfl
@[simp] theorem State.modTeam_hub (s : State) (t : Nat) (f : Team → Team) : (s.modTeam t f).hub = s.hub := rfl
@[simp] theorem State.modTeam_hubWatches (s : State) (t : Nat) (f : Team → Team) : (s.modTeam t f).hubWatches = s.hubWatches := rfl
@[simp] theorem State.modTeam_hubWaiting (s : State) (t : Nat) (f : Team → Team) : (s.modTeam t f).hubWaiting = s.hubWaiting := rfl
@[simp] theorem State.modTeam_fabric (s : State) (t : Nat) (f : Team → Team) : (s.modTeam t f).fabric = s.fabric := rfl
@[simp] theorem State.modTeam_faults (s : State) (t : Nat) (f : Team → Team) : (s.modTeam t f).faults = s.faults := rfl
@[simp] theorem State.modTeam_irq (s : State) (t : Nat) (f : Team → Team) : (s.modTeam t f).irq = s.irq := rfl
@[simp] theorem State.modTeam_pm (s : State) (t : Nat) (f : Team → Team) : (s.modTeam t f).pm = s.pm := rfl
@[simp] theorem State.modTeam_power (s : State) (t : Nat) (f : Team → Team) : (s.modTeam t f).power = s.power := rfl
@[simp] theorem State.modTeam_regs (s : State) (t : Nat) (f : Team → Team) : (s.modTeam t f).regs = s.regs := rfl
@[simp] theorem State.modTeam_journal (s : State) (t : Nat) (f : Team → Team) : (s.modTeam t f).journal = s.journal := rfl
@[simp] theorem State.modTeam_cache (s : State) (t : Nat) (f : Team → Team) : (s.modTeam t f).cache = s.cache := rfl
@[simp] theorem State.modTeam_snapped (s : State) (t : Nat) (f : Team → Team) : (s.modTeam t f).snapped = s.snapped := rfl
@[simp] theorem State.modTeam_retired (s : State) (t : Nat) (f : Team → Team) : (s.modTeam t f).retired = s.retired := rfl
@[simp] theorem State.modTeam_hostMem (s : State) (t : Nat) (f : Team → Team) : (s.modTeam t f).hostMem = s.hostMem := rfl
@[simp] theorem State.modTeam_resp (s : State) (t : Nat) (f : Team → Team) : (s.modTeam t f).resp = s.resp := rfl
@[simp] theorem State.modTeam_meter (s : State) (t : Nat) (f : Team → Team) : (s.modTeam t f).meter = s.meter := rfl
@[simp] theorem State.modTeam_free (s : State) (t : Nat) (f : Team → Team) : (s.modTeam t f).free = s.free := rfl
@[simp] theorem State.modTeam_pending (s : State) (t : Nat) (f : Team → Team) : (s.modTeam t f).pending = s.pending := rfl

/-! ### State.modCore -/

@[simp] theorem State.modCore_postmark (s : State) (t q : Nat) (f : Core → Core) : (s.modCore t q f).postmark = s.postmark := rfl
@[simp] theorem State.modCore_part9620 (s : State) (t q : Nat) (f : Core → Core) : (s.modCore t q f).part9620 = s.part9620 := rfl
@[simp] theorem State.modCore_metal (s : State) (t q : Nat) (f : Core → Core) : (s.modCore t q f).metal = s.metal := rfl
@[simp] theorem State.modCore_time (s : State) (t q : Nat) (f : Core → Core) : (s.modCore t q f).time = s.time := rfl
@[simp] theorem State.modCore_fns (s : State) (t q : Nat) (f : Core → Core) : (s.modCore t q f).fns = s.fns := rfl
@[simp] theorem State.modCore_cmds (s : State) (t q : Nat) (f : Core → Core) : (s.modCore t q f).cmds = s.cmds := rfl
@[simp] theorem State.modCore_ctxs (s : State) (t q : Nat) (f : Core → Core) : (s.modCore t q f).ctxs = s.ctxs := rfl
@[simp] theorem State.modCore_uid (s : State) (t q : Nat) (f : Core → Core) : (s.modCore t q f).uid = s.uid := rfl
@[simp] theorem State.modCore_teams (s : State) (t q : Nat) (f : Core → Core) : (s.modCore t q f).teams = mapPut s.teams t ((s.team t).modCore q f) := rfl
@[simp] theorem State.modCore_stack (s : State) (t q : Nat) (f : Core → Core) : (s.modCore t q f).stack = s.stack := rfl
@[simp] theorem State.modCore_tags (s : State) (t q : Nat) (f : Core → Core) : (s.modCore t q f).tags = s.tags := rfl
@[simp] theorem State.modCore_stackLog (s : State) (t q : Nat) (f : Core → Core) : (s.modCore t q f).stackLog = s.stackLog := rfl
@[simp] theorem State.modCore_unfenced (s : State) (t q : Nat) (f : Core → Core) : (s.modCore t q f).unfenced = s.unfenced := rfl
@[simp] theorem State.modCore_pool (s : State) (t q : Nat) (f : Core → Core) : (s.modCore t q f).pool = s.pool := rfl
@[simp] theorem State.modCore_hub (s : State) (t q : Nat) (f : Core → Core) : (s.modCore t q f).hub = s.hub := rfl
@[simp] theorem State.modCore_hubWatches (s : State) (t q : Nat) (f : Core → Core) : (s.modCore t q f).hubWatches = s.hubWatches := rfl
@[simp] theorem State.modCore_hubWaiting (s : State) (t q : Nat) (f : Core → Core) : (s.modCore t q f).hubWaiting = s.hubWaiting := rfl
@[simp] theorem State.modCore_fabric (s : State) (t q : Nat) (f : Core → Core) : (s.modCore t q f).fabric = s.fabric := rfl
@[simp] theorem State.modCore_faults (s : State) (t q : Nat) (f : Core → Core) : (s.modCore t q f).faults = s.faults := rfl
@[simp] theorem State.modCore_irq (s : State) (t q : Nat) (f : Core → Core) : (s.modCore t q f).irq = s.irq := rfl
@[simp] theorem State.modCore_pm (s : State) (t q : Nat) (f : Core → Core) : (s.modCore t q f).pm = s.pm := rfl
@[simp] theorem State.modCore_power (s : State) (t q : Nat) (f : Core → Core) : (s.modCore t q f).power = s.power := rfl
@[simp] theorem State.modCore_regs (s : State) (t q : Nat) (f : Core → Core) : (s.modCore t q f).regs = s.regs := rfl
@[simp] theorem State.modCore_journal (s : State) (t q : Nat) (f : Core → Core) : (s.modCore t q f).journal = s.journal := rfl
@[simp] theorem State.modCore_cache (s : State) (t q : Nat) (f : Core → Core) : (s.modCore t q f).cache = s.cache := rfl
@[simp] theorem State.modCore_snapped (s : State) (t q : Nat) (f : Core → Core) : (s.modCore t q f).snapped = s.snapped := rfl
@[simp] theorem State.modCore_retired (s : State) (t q : Nat) (f : Core → Core) : (s.modCore t q f).retired = s.retired := rfl
@[simp] theorem State.modCore_hostMem (s : State) (t q : Nat) (f : Core → Core) : (s.modCore t q f).hostMem = s.hostMem := rfl
@[simp] theorem State.modCore_resp (s : State) (t q : Nat) (f : Core → Core) : (s.modCore t q f).resp = s.resp := rfl
@[simp] theorem State.modCore_meter (s : State) (t q : Nat) (f : Core → Core) : (s.modCore t q f).meter = s.meter := rfl
@[simp] theorem State.modCore_free (s : State) (t q : Nat) (f : Core → Core) : (s.modCore t q f).free = s.free := rfl
@[simp] theorem State.modCore_pending (s : State) (t q : Nat) (f : Core → Core) : (s.modCore t q f).pending = s.pending := rfl

/-! ### State.modKernel -/

@[simp] theorem State.modKernel_postmark (s : State) (t : Nat) (f : Kernel → Kernel) : (s.modKernel t f).postmark = s.postmark := rfl
@[simp] theorem State.modKernel_part9620 (s : State) (t : Nat) (f : Kernel → Kernel) : (s.modKernel t f).part9620 = s.part9620 := rfl
@[simp] theorem State.modKernel_metal (s : State) (t : Nat) (f : Kernel → Kernel) : (s.modKernel t f).metal = s.metal := rfl
@[simp] theorem State.modKernel_time (s : State) (t : Nat) (f : Kernel → Kernel) : (s.modKernel t f).time = s.time := rfl
@[simp] theorem State.modKernel_fns (s : State) (t : Nat) (f : Kernel → Kernel) : (s.modKernel t f).fns = s.fns := rfl
@[simp] theorem State.modKernel_cmds (s : State) (t : Nat) (f : Kernel → Kernel) : (s.modKernel t f).cmds = s.cmds := rfl
@[simp] theorem State.modKernel_ctxs (s : State) (t : Nat) (f : Kernel → Kernel) : (s.modKernel t f).ctxs = s.ctxs := rfl
@[simp] theorem State.modKernel_uid (s : State) (t : Nat) (f : Kernel → Kernel) : (s.modKernel t f).uid = s.uid := rfl
@[simp] theorem State.modKernel_stack (s : State) (t : Nat) (f : Kernel → Kernel) : (s.modKernel t f).stack = s.stack := rfl
@[simp] theorem State.modKernel_tags (s : State) (t : Nat) (f : Kernel → Kernel) : (s.modKernel t f).tags = s.tags := rfl
@[simp] theorem State.modKernel_stackLog (s : State) (t : Nat) (f : Kernel → Kernel) : (s.modKernel t f).stackLog = s.stackLog := rfl
@[simp] theorem State.modKernel_unfenced (s : State) (t : Nat) (f : Kernel → Kernel) : (s.modKernel t f).unfenced = s.unfenced := rfl
@[simp] theorem State.modKernel_pool (s : State) (t : Nat) (f : Kernel → Kernel) : (s.modKernel t f).pool = s.pool := rfl
@[simp] theorem State.modKernel_hub (s : State) (t : Nat) (f : Kernel → Kernel) : (s.modKernel t f).hub = s.hub := rfl
@[simp] theorem State.modKernel_hubWatches (s : State) (t : Nat) (f : Kernel → Kernel) : (s.modKernel t f).hubWatches = s.hubWatches := rfl
@[simp] theorem State.modKernel_hubWaiting (s : State) (t : Nat) (f : Kernel → Kernel) : (s.modKernel t f).hubWaiting = s.hubWaiting := rfl
@[simp] theorem State.modKernel_fabric (s : State) (t : Nat) (f : Kernel → Kernel) : (s.modKernel t f).fabric = s.fabric := rfl
@[simp] theorem State.modKernel_faults (s : State) (t : Nat) (f : Kernel → Kernel) : (s.modKernel t f).faults = s.faults := rfl
@[simp] theorem State.modKernel_irq (s : State) (t : Nat) (f : Kernel → Kernel) : (s.modKernel t f).irq = s.irq := rfl
@[simp] theorem State.modKernel_pm (s : State) (t : Nat) (f : Kernel → Kernel) : (s.modKernel t f).pm = s.pm := rfl
@[simp] theorem State.modKernel_power (s : State) (t : Nat) (f : Kernel → Kernel) : (s.modKernel t f).power = s.power := rfl
@[simp] theorem State.modKernel_regs (s : State) (t : Nat) (f : Kernel → Kernel) : (s.modKernel t f).regs = s.regs := rfl
@[simp] theorem State.modKernel_journal (s : State) (t : Nat) (f : Kernel → Kernel) : (s.modKernel t f).journal = s.journal := rfl
@[simp] theorem State.modKernel_cache (s : State) (t : Nat) (f : Kernel → Kernel) : (s.modKernel t f).cache = s.cache := rfl
@[simp] theorem State.modKernel_snapped (s : State) (t : Nat) (f : Kernel → Kernel) : (s.modKernel t f).snapped = s.snapped := rfl
@[simp] theorem State.modKernel_retired (s : State) (t : Nat) (f : Kernel → Kernel) : (s.modKernel t f).retired = s.retired := rfl
@[simp] theorem State.modKernel_hostMem (s : State) (t : Nat) (f : Kernel → Kernel) : (s.modKernel t f).hostMem = s.hostMem := rfl
@[simp] theorem State.modKernel_resp (s : State) (t : Nat) (f : Kernel → Kernel) : (s.modKernel t f).resp = s.resp := rfl
@[simp] theorem State.modKernel_meter (s : State) (t : Nat) (f : Kernel → Kernel) : (s.modKernel t f).meter = s.meter := rfl
@[simp] theorem State.modKernel_free (s : State) (t : Nat) (f : Kernel → Kernel) : (s.modKernel t f).free = s.free := rfl
@[simp] theorem State.modKernel_pending (s : State) (t : Nat) (f : Kernel → Kernel) : (s.modKernel t f).pending = s.pending := rfl

/-! ### State.modFn -/

@[simp] theorem State.modFn_postmark (s : State) (f : Nat) (g : Fn → Fn) : (s.modFn f g).postmark = s.postmark := rfl
@[simp] theorem State.modFn_part9620 (s : State) (f : Nat) (g : Fn → Fn) : (s.modFn f g).part9620 = s.part9620 := rfl
@[simp] theorem State.modFn_metal (s : State) (f : Nat) (g : Fn → Fn) : (s.modFn f g).metal = s.metal := rfl
@[simp] theorem State.modFn_time (s : State) (f : Nat) (g : Fn → Fn) : (s.modFn f g).time = s.time := rfl
@[simp] theorem State.modFn_fns (s : State) (f : Nat) (g : Fn → Fn) : (s.modFn f g).fns = mapPut s.fns f (g (s.fn f)) := rfl
@[simp] theorem State.modFn_cmds (s : State) (f : Nat) (g : Fn → Fn) : (s.modFn f g).cmds = s.cmds := rfl
@[simp] theorem State.modFn_ctxs (s : State) (f : Nat) (g : Fn → Fn) : (s.modFn f g).ctxs = s.ctxs := rfl
@[simp] theorem State.modFn_uid (s : State) (f : Nat) (g : Fn → Fn) : (s.modFn f g).uid = s.uid := rfl
@[simp] theorem State.modFn_teams (s : State) (f : Nat) (g : Fn → Fn) : (s.modFn f g).teams = s.teams := rfl
@[simp] theorem State.modFn_stack (s : State) (f : Nat) (g : Fn → Fn) : (s.modFn f g).stack = s.stack := rfl
@[simp] theorem State.modFn_tags (s : State) (f : Nat) (g : Fn → Fn) : (s.modFn f g).tags = s.tags := rfl
@[simp] theorem State.modFn_stackLog (s : State) (f : Nat) (g : Fn → Fn) : (s.modFn f g).stackLog = s.stackLog := rfl
@[simp] theorem State.modFn_unfenced (s : State) (f : Nat) (g : Fn → Fn) : (s.modFn f g).unfenced = s.unfenced := rfl
@[simp] theorem State.modFn_pool (s : State) (f : Nat) (g : Fn → Fn) : (s.modFn f g).pool = s.pool := rfl
@[simp] theorem State.modFn_hub (s : State) (f : Nat) (g : Fn → Fn) : (s.modFn f g).hub = s.hub := rfl
@[simp] theorem State.modFn_hubWatches (s : State) (f : Nat) (g : Fn → Fn) : (s.modFn f g).hubWatches = s.hubWatches := rfl
@[simp] theorem State.modFn_hubWaiting (s : State) (f : Nat) (g : Fn → Fn) : (s.modFn f g).hubWaiting = s.hubWaiting := rfl
@[simp] theorem State.modFn_fabric (s : State) (f : Nat) (g : Fn → Fn) : (s.modFn f g).fabric = s.fabric := rfl
@[simp] theorem State.modFn_faults (s : State) (f : Nat) (g : Fn → Fn) : (s.modFn f g).faults = s.faults := rfl
@[simp] theorem State.modFn_irq (s : State) (f : Nat) (g : Fn → Fn) : (s.modFn f g).irq = s.irq := rfl
@[simp] theorem State.modFn_pm (s : State) (f : Nat) (g : Fn → Fn) : (s.modFn f g).pm = s.pm := rfl
@[simp] theorem State.modFn_power (s : State) (f : Nat) (g : Fn → Fn) : (s.modFn f g).power = s.power := rfl
@[simp] theorem State.modFn_regs (s : State) (f : Nat) (g : Fn → Fn) : (s.modFn f g).regs = s.regs := rfl
@[simp] theorem State.modFn_journal (s : State) (f : Nat) (g : Fn → Fn) : (s.modFn f g).journal = s.journal := rfl
@[simp] theorem State.modFn_cache (s : State) (f : Nat) (g : Fn → Fn) : (s.modFn f g).cache = s.cache := rfl
@[simp] theorem State.modFn_snapped (s : State) (f : Nat) (g : Fn → Fn) : (s.modFn f g).snapped = s.snapped := rfl
@[simp] theorem State.modFn_retired (s : State) (f : Nat) (g : Fn → Fn) : (s.modFn f g).retired = s.retired := rfl
@[simp] theorem State.modFn_hostMem (s : State) (f : Nat) (g : Fn → Fn) : (s.modFn f g).hostMem = s.hostMem := rfl
@[simp] theorem State.modFn_resp (s : State) (f : Nat) (g : Fn → Fn) : (s.modFn f g).resp = s.resp := rfl
@[simp] theorem State.modFn_meter (s : State) (f : Nat) (g : Fn → Fn) : (s.modFn f g).meter = s.meter := rfl
@[simp] theorem State.modFn_free (s : State) (f : Nat) (g : Fn → Fn) : (s.modFn f g).free = s.free := rfl
@[simp] theorem State.modFn_pending (s : State) (f : Nat) (g : Fn → Fn) : (s.modFn f g).pending = s.pending := rfl

/-! ### State.modCmds -/

@[simp] theorem State.modCmds_postmark (s : State) (c : W32) (f : CmdState → CmdState) : (s.modCmds c f).postmark = s.postmark := rfl
@[simp] theorem State.modCmds_part9620 (s : State) (c : W32) (f : CmdState → CmdState) : (s.modCmds c f).part9620 = s.part9620 := rfl
@[simp] theorem State.modCmds_metal (s : State) (c : W32) (f : CmdState → CmdState) : (s.modCmds c f).metal = s.metal := rfl
@[simp] theorem State.modCmds_time (s : State) (c : W32) (f : CmdState → CmdState) : (s.modCmds c f).time = s.time := rfl
@[simp] theorem State.modCmds_fns (s : State) (c : W32) (f : CmdState → CmdState) : (s.modCmds c f).fns = s.fns := rfl
@[simp] theorem State.modCmds_cmds (s : State) (c : W32) (f : CmdState → CmdState) : (s.modCmds c f).cmds = mapPut s.cmds c.toNat (f (s.cmdsOf c)) := rfl
@[simp] theorem State.modCmds_ctxs (s : State) (c : W32) (f : CmdState → CmdState) : (s.modCmds c f).ctxs = s.ctxs := rfl
@[simp] theorem State.modCmds_uid (s : State) (c : W32) (f : CmdState → CmdState) : (s.modCmds c f).uid = s.uid := rfl
@[simp] theorem State.modCmds_teams (s : State) (c : W32) (f : CmdState → CmdState) : (s.modCmds c f).teams = s.teams := rfl
@[simp] theorem State.modCmds_stack (s : State) (c : W32) (f : CmdState → CmdState) : (s.modCmds c f).stack = s.stack := rfl
@[simp] theorem State.modCmds_tags (s : State) (c : W32) (f : CmdState → CmdState) : (s.modCmds c f).tags = s.tags := rfl
@[simp] theorem State.modCmds_stackLog (s : State) (c : W32) (f : CmdState → CmdState) : (s.modCmds c f).stackLog = s.stackLog := rfl
@[simp] theorem State.modCmds_unfenced (s : State) (c : W32) (f : CmdState → CmdState) : (s.modCmds c f).unfenced = s.unfenced := rfl
@[simp] theorem State.modCmds_pool (s : State) (c : W32) (f : CmdState → CmdState) : (s.modCmds c f).pool = s.pool := rfl
@[simp] theorem State.modCmds_hub (s : State) (c : W32) (f : CmdState → CmdState) : (s.modCmds c f).hub = s.hub := rfl
@[simp] theorem State.modCmds_hubWatches (s : State) (c : W32) (f : CmdState → CmdState) : (s.modCmds c f).hubWatches = s.hubWatches := rfl
@[simp] theorem State.modCmds_hubWaiting (s : State) (c : W32) (f : CmdState → CmdState) : (s.modCmds c f).hubWaiting = s.hubWaiting := rfl
@[simp] theorem State.modCmds_fabric (s : State) (c : W32) (f : CmdState → CmdState) : (s.modCmds c f).fabric = s.fabric := rfl
@[simp] theorem State.modCmds_faults (s : State) (c : W32) (f : CmdState → CmdState) : (s.modCmds c f).faults = s.faults := rfl
@[simp] theorem State.modCmds_irq (s : State) (c : W32) (f : CmdState → CmdState) : (s.modCmds c f).irq = s.irq := rfl
@[simp] theorem State.modCmds_pm (s : State) (c : W32) (f : CmdState → CmdState) : (s.modCmds c f).pm = s.pm := rfl
@[simp] theorem State.modCmds_power (s : State) (c : W32) (f : CmdState → CmdState) : (s.modCmds c f).power = s.power := rfl
@[simp] theorem State.modCmds_regs (s : State) (c : W32) (f : CmdState → CmdState) : (s.modCmds c f).regs = s.regs := rfl
@[simp] theorem State.modCmds_journal (s : State) (c : W32) (f : CmdState → CmdState) : (s.modCmds c f).journal = s.journal := rfl
@[simp] theorem State.modCmds_cache (s : State) (c : W32) (f : CmdState → CmdState) : (s.modCmds c f).cache = s.cache := rfl
@[simp] theorem State.modCmds_snapped (s : State) (c : W32) (f : CmdState → CmdState) : (s.modCmds c f).snapped = s.snapped := rfl
@[simp] theorem State.modCmds_retired (s : State) (c : W32) (f : CmdState → CmdState) : (s.modCmds c f).retired = s.retired := rfl
@[simp] theorem State.modCmds_hostMem (s : State) (c : W32) (f : CmdState → CmdState) : (s.modCmds c f).hostMem = s.hostMem := rfl
@[simp] theorem State.modCmds_resp (s : State) (c : W32) (f : CmdState → CmdState) : (s.modCmds c f).resp = s.resp := rfl
@[simp] theorem State.modCmds_meter (s : State) (c : W32) (f : CmdState → CmdState) : (s.modCmds c f).meter = s.meter := rfl
@[simp] theorem State.modCmds_free (s : State) (c : W32) (f : CmdState → CmdState) : (s.modCmds c f).free = s.free := rfl
@[simp] theorem State.modCmds_pending (s : State) (c : W32) (f : CmdState → CmdState) : (s.modCmds c f).pending = s.pending := rfl

/-! ### State.modFabric -/

@[simp] theorem State.modFabric_postmark (s : State) (f : Fabric → Fabric) : (s.modFabric f).postmark = s.postmark := rfl
@[simp] theorem State.modFabric_part9620 (s : State) (f : Fabric → Fabric) : (s.modFabric f).part9620 = s.part9620 := rfl
@[simp] theorem State.modFabric_metal (s : State) (f : Fabric → Fabric) : (s.modFabric f).metal = s.metal := rfl
@[simp] theorem State.modFabric_time (s : State) (f : Fabric → Fabric) : (s.modFabric f).time = s.time := rfl
@[simp] theorem State.modFabric_fns (s : State) (f : Fabric → Fabric) : (s.modFabric f).fns = s.fns := rfl
@[simp] theorem State.modFabric_cmds (s : State) (f : Fabric → Fabric) : (s.modFabric f).cmds = s.cmds := rfl
@[simp] theorem State.modFabric_ctxs (s : State) (f : Fabric → Fabric) : (s.modFabric f).ctxs = s.ctxs := rfl
@[simp] theorem State.modFabric_uid (s : State) (f : Fabric → Fabric) : (s.modFabric f).uid = s.uid := rfl
@[simp] theorem State.modFabric_teams (s : State) (f : Fabric → Fabric) : (s.modFabric f).teams = s.teams := rfl
@[simp] theorem State.modFabric_stack (s : State) (f : Fabric → Fabric) : (s.modFabric f).stack = s.stack := rfl
@[simp] theorem State.modFabric_tags (s : State) (f : Fabric → Fabric) : (s.modFabric f).tags = s.tags := rfl
@[simp] theorem State.modFabric_stackLog (s : State) (f : Fabric → Fabric) : (s.modFabric f).stackLog = s.stackLog := rfl
@[simp] theorem State.modFabric_unfenced (s : State) (f : Fabric → Fabric) : (s.modFabric f).unfenced = s.unfenced := rfl
@[simp] theorem State.modFabric_pool (s : State) (f : Fabric → Fabric) : (s.modFabric f).pool = s.pool := rfl
@[simp] theorem State.modFabric_hub (s : State) (f : Fabric → Fabric) : (s.modFabric f).hub = s.hub := rfl
@[simp] theorem State.modFabric_hubWatches (s : State) (f : Fabric → Fabric) : (s.modFabric f).hubWatches = s.hubWatches := rfl
@[simp] theorem State.modFabric_hubWaiting (s : State) (f : Fabric → Fabric) : (s.modFabric f).hubWaiting = s.hubWaiting := rfl
@[simp] theorem State.modFabric_fabric (s : State) (f : Fabric → Fabric) : (s.modFabric f).fabric = f s.fabric := rfl
@[simp] theorem State.modFabric_faults (s : State) (f : Fabric → Fabric) : (s.modFabric f).faults = s.faults := rfl
@[simp] theorem State.modFabric_irq (s : State) (f : Fabric → Fabric) : (s.modFabric f).irq = s.irq := rfl
@[simp] theorem State.modFabric_pm (s : State) (f : Fabric → Fabric) : (s.modFabric f).pm = s.pm := rfl
@[simp] theorem State.modFabric_power (s : State) (f : Fabric → Fabric) : (s.modFabric f).power = s.power := rfl
@[simp] theorem State.modFabric_regs (s : State) (f : Fabric → Fabric) : (s.modFabric f).regs = s.regs := rfl
@[simp] theorem State.modFabric_journal (s : State) (f : Fabric → Fabric) : (s.modFabric f).journal = s.journal := rfl
@[simp] theorem State.modFabric_cache (s : State) (f : Fabric → Fabric) : (s.modFabric f).cache = s.cache := rfl
@[simp] theorem State.modFabric_snapped (s : State) (f : Fabric → Fabric) : (s.modFabric f).snapped = s.snapped := rfl
@[simp] theorem State.modFabric_retired (s : State) (f : Fabric → Fabric) : (s.modFabric f).retired = s.retired := rfl
@[simp] theorem State.modFabric_hostMem (s : State) (f : Fabric → Fabric) : (s.modFabric f).hostMem = s.hostMem := rfl
@[simp] theorem State.modFabric_resp (s : State) (f : Fabric → Fabric) : (s.modFabric f).resp = s.resp := rfl
@[simp] theorem State.modFabric_meter (s : State) (f : Fabric → Fabric) : (s.modFabric f).meter = s.meter := rfl
@[simp] theorem State.modFabric_free (s : State) (f : Fabric → Fabric) : (s.modFabric f).free = s.free := rfl
@[simp] theorem State.modFabric_pending (s : State) (f : Fabric → Fabric) : (s.modFabric f).pending = s.pending := rfl

/-! ### State.modPower -/

@[simp] theorem State.modPower_postmark (s : State) (f : Power → Power) : (s.modPower f).postmark = s.postmark := rfl
@[simp] theorem State.modPower_part9620 (s : State) (f : Power → Power) : (s.modPower f).part9620 = s.part9620 := rfl
@[simp] theorem State.modPower_metal (s : State) (f : Power → Power) : (s.modPower f).metal = s.metal := rfl
@[simp] theorem State.modPower_time (s : State) (f : Power → Power) : (s.modPower f).time = s.time := rfl
@[simp] theorem State.modPower_fns (s : State) (f : Power → Power) : (s.modPower f).fns = s.fns := rfl
@[simp] theorem State.modPower_cmds (s : State) (f : Power → Power) : (s.modPower f).cmds = s.cmds := rfl
@[simp] theorem State.modPower_ctxs (s : State) (f : Power → Power) : (s.modPower f).ctxs = s.ctxs := rfl
@[simp] theorem State.modPower_uid (s : State) (f : Power → Power) : (s.modPower f).uid = s.uid := rfl
@[simp] theorem State.modPower_teams (s : State) (f : Power → Power) : (s.modPower f).teams = s.teams := rfl
@[simp] theorem State.modPower_stack (s : State) (f : Power → Power) : (s.modPower f).stack = s.stack := rfl
@[simp] theorem State.modPower_tags (s : State) (f : Power → Power) : (s.modPower f).tags = s.tags := rfl
@[simp] theorem State.modPower_stackLog (s : State) (f : Power → Power) : (s.modPower f).stackLog = s.stackLog := rfl
@[simp] theorem State.modPower_unfenced (s : State) (f : Power → Power) : (s.modPower f).unfenced = s.unfenced := rfl
@[simp] theorem State.modPower_pool (s : State) (f : Power → Power) : (s.modPower f).pool = s.pool := rfl
@[simp] theorem State.modPower_hub (s : State) (f : Power → Power) : (s.modPower f).hub = s.hub := rfl
@[simp] theorem State.modPower_hubWatches (s : State) (f : Power → Power) : (s.modPower f).hubWatches = s.hubWatches := rfl
@[simp] theorem State.modPower_hubWaiting (s : State) (f : Power → Power) : (s.modPower f).hubWaiting = s.hubWaiting := rfl
@[simp] theorem State.modPower_fabric (s : State) (f : Power → Power) : (s.modPower f).fabric = s.fabric := rfl
@[simp] theorem State.modPower_faults (s : State) (f : Power → Power) : (s.modPower f).faults = s.faults := rfl
@[simp] theorem State.modPower_irq (s : State) (f : Power → Power) : (s.modPower f).irq = s.irq := rfl
@[simp] theorem State.modPower_pm (s : State) (f : Power → Power) : (s.modPower f).pm = s.pm := rfl
@[simp] theorem State.modPower_power (s : State) (f : Power → Power) : (s.modPower f).power = f s.power := rfl
@[simp] theorem State.modPower_regs (s : State) (f : Power → Power) : (s.modPower f).regs = s.regs := rfl
@[simp] theorem State.modPower_journal (s : State) (f : Power → Power) : (s.modPower f).journal = s.journal := rfl
@[simp] theorem State.modPower_cache (s : State) (f : Power → Power) : (s.modPower f).cache = s.cache := rfl
@[simp] theorem State.modPower_snapped (s : State) (f : Power → Power) : (s.modPower f).snapped = s.snapped := rfl
@[simp] theorem State.modPower_retired (s : State) (f : Power → Power) : (s.modPower f).retired = s.retired := rfl
@[simp] theorem State.modPower_hostMem (s : State) (f : Power → Power) : (s.modPower f).hostMem = s.hostMem := rfl
@[simp] theorem State.modPower_resp (s : State) (f : Power → Power) : (s.modPower f).resp = s.resp := rfl
@[simp] theorem State.modPower_meter (s : State) (f : Power → Power) : (s.modPower f).meter = s.meter := rfl
@[simp] theorem State.modPower_free (s : State) (f : Power → Power) : (s.modPower f).free = s.free := rfl
@[simp] theorem State.modPower_pending (s : State) (f : Power → Power) : (s.modPower f).pending = s.pending := rfl

/-! ### State.modPm -/

@[simp] theorem State.modPm_postmark (s : State) (f : Postmaster → Postmaster) : (s.modPm f).postmark = s.postmark := rfl
@[simp] theorem State.modPm_part9620 (s : State) (f : Postmaster → Postmaster) : (s.modPm f).part9620 = s.part9620 := rfl
@[simp] theorem State.modPm_metal (s : State) (f : Postmaster → Postmaster) : (s.modPm f).metal = s.metal := rfl
@[simp] theorem State.modPm_time (s : State) (f : Postmaster → Postmaster) : (s.modPm f).time = s.time := rfl
@[simp] theorem State.modPm_fns (s : State) (f : Postmaster → Postmaster) : (s.modPm f).fns = s.fns := rfl
@[simp] theorem State.modPm_cmds (s : State) (f : Postmaster → Postmaster) : (s.modPm f).cmds = s.cmds := rfl
@[simp] theorem State.modPm_ctxs (s : State) (f : Postmaster → Postmaster) : (s.modPm f).ctxs = s.ctxs := rfl
@[simp] theorem State.modPm_uid (s : State) (f : Postmaster → Postmaster) : (s.modPm f).uid = s.uid := rfl
@[simp] theorem State.modPm_teams (s : State) (f : Postmaster → Postmaster) : (s.modPm f).teams = s.teams := rfl
@[simp] theorem State.modPm_stack (s : State) (f : Postmaster → Postmaster) : (s.modPm f).stack = s.stack := rfl
@[simp] theorem State.modPm_tags (s : State) (f : Postmaster → Postmaster) : (s.modPm f).tags = s.tags := rfl
@[simp] theorem State.modPm_stackLog (s : State) (f : Postmaster → Postmaster) : (s.modPm f).stackLog = s.stackLog := rfl
@[simp] theorem State.modPm_unfenced (s : State) (f : Postmaster → Postmaster) : (s.modPm f).unfenced = s.unfenced := rfl
@[simp] theorem State.modPm_pool (s : State) (f : Postmaster → Postmaster) : (s.modPm f).pool = s.pool := rfl
@[simp] theorem State.modPm_hub (s : State) (f : Postmaster → Postmaster) : (s.modPm f).hub = s.hub := rfl
@[simp] theorem State.modPm_hubWatches (s : State) (f : Postmaster → Postmaster) : (s.modPm f).hubWatches = s.hubWatches := rfl
@[simp] theorem State.modPm_hubWaiting (s : State) (f : Postmaster → Postmaster) : (s.modPm f).hubWaiting = s.hubWaiting := rfl
@[simp] theorem State.modPm_fabric (s : State) (f : Postmaster → Postmaster) : (s.modPm f).fabric = s.fabric := rfl
@[simp] theorem State.modPm_faults (s : State) (f : Postmaster → Postmaster) : (s.modPm f).faults = s.faults := rfl
@[simp] theorem State.modPm_irq (s : State) (f : Postmaster → Postmaster) : (s.modPm f).irq = s.irq := rfl
@[simp] theorem State.modPm_pm (s : State) (f : Postmaster → Postmaster) : (s.modPm f).pm = f s.pm := rfl
@[simp] theorem State.modPm_power (s : State) (f : Postmaster → Postmaster) : (s.modPm f).power = s.power := rfl
@[simp] theorem State.modPm_regs (s : State) (f : Postmaster → Postmaster) : (s.modPm f).regs = s.regs := rfl
@[simp] theorem State.modPm_journal (s : State) (f : Postmaster → Postmaster) : (s.modPm f).journal = s.journal := rfl
@[simp] theorem State.modPm_cache (s : State) (f : Postmaster → Postmaster) : (s.modPm f).cache = s.cache := rfl
@[simp] theorem State.modPm_snapped (s : State) (f : Postmaster → Postmaster) : (s.modPm f).snapped = s.snapped := rfl
@[simp] theorem State.modPm_retired (s : State) (f : Postmaster → Postmaster) : (s.modPm f).retired = s.retired := rfl
@[simp] theorem State.modPm_hostMem (s : State) (f : Postmaster → Postmaster) : (s.modPm f).hostMem = s.hostMem := rfl
@[simp] theorem State.modPm_resp (s : State) (f : Postmaster → Postmaster) : (s.modPm f).resp = s.resp := rfl
@[simp] theorem State.modPm_meter (s : State) (f : Postmaster → Postmaster) : (s.modPm f).meter = s.meter := rfl
@[simp] theorem State.modPm_free (s : State) (f : Postmaster → Postmaster) : (s.modPm f).free = s.free := rfl
@[simp] theorem State.modPm_pending (s : State) (f : Postmaster → Postmaster) : (s.modPm f).pending = s.pending := rfl

/-! ### State.modFaults -/

@[simp] theorem State.modFaults_postmark (s : State) (f : Faults → Faults) : (s.modFaults f).postmark = s.postmark := rfl
@[simp] theorem State.modFaults_part9620 (s : State) (f : Faults → Faults) : (s.modFaults f).part9620 = s.part9620 := rfl
@[simp] theorem State.modFaults_metal (s : State) (f : Faults → Faults) : (s.modFaults f).metal = s.metal := rfl
@[simp] theorem State.modFaults_time (s : State) (f : Faults → Faults) : (s.modFaults f).time = s.time := rfl
@[simp] theorem State.modFaults_fns (s : State) (f : Faults → Faults) : (s.modFaults f).fns = s.fns := rfl
@[simp] theorem State.modFaults_cmds (s : State) (f : Faults → Faults) : (s.modFaults f).cmds = s.cmds := rfl
@[simp] theorem State.modFaults_ctxs (s : State) (f : Faults → Faults) : (s.modFaults f).ctxs = s.ctxs := rfl
@[simp] theorem State.modFaults_uid (s : State) (f : Faults → Faults) : (s.modFaults f).uid = s.uid := rfl
@[simp] theorem State.modFaults_teams (s : State) (f : Faults → Faults) : (s.modFaults f).teams = s.teams := rfl
@[simp] theorem State.modFaults_stack (s : State) (f : Faults → Faults) : (s.modFaults f).stack = s.stack := rfl
@[simp] theorem State.modFaults_tags (s : State) (f : Faults → Faults) : (s.modFaults f).tags = s.tags := rfl
@[simp] theorem State.modFaults_stackLog (s : State) (f : Faults → Faults) : (s.modFaults f).stackLog = s.stackLog := rfl
@[simp] theorem State.modFaults_unfenced (s : State) (f : Faults → Faults) : (s.modFaults f).unfenced = s.unfenced := rfl
@[simp] theorem State.modFaults_pool (s : State) (f : Faults → Faults) : (s.modFaults f).pool = s.pool := rfl
@[simp] theorem State.modFaults_hub (s : State) (f : Faults → Faults) : (s.modFaults f).hub = s.hub := rfl
@[simp] theorem State.modFaults_hubWatches (s : State) (f : Faults → Faults) : (s.modFaults f).hubWatches = s.hubWatches := rfl
@[simp] theorem State.modFaults_hubWaiting (s : State) (f : Faults → Faults) : (s.modFaults f).hubWaiting = s.hubWaiting := rfl
@[simp] theorem State.modFaults_fabric (s : State) (f : Faults → Faults) : (s.modFaults f).fabric = s.fabric := rfl
@[simp] theorem State.modFaults_faults (s : State) (f : Faults → Faults) : (s.modFaults f).faults = f s.faults := rfl
@[simp] theorem State.modFaults_irq (s : State) (f : Faults → Faults) : (s.modFaults f).irq = s.irq := rfl
@[simp] theorem State.modFaults_pm (s : State) (f : Faults → Faults) : (s.modFaults f).pm = s.pm := rfl
@[simp] theorem State.modFaults_power (s : State) (f : Faults → Faults) : (s.modFaults f).power = s.power := rfl
@[simp] theorem State.modFaults_regs (s : State) (f : Faults → Faults) : (s.modFaults f).regs = s.regs := rfl
@[simp] theorem State.modFaults_journal (s : State) (f : Faults → Faults) : (s.modFaults f).journal = s.journal := rfl
@[simp] theorem State.modFaults_cache (s : State) (f : Faults → Faults) : (s.modFaults f).cache = s.cache := rfl
@[simp] theorem State.modFaults_snapped (s : State) (f : Faults → Faults) : (s.modFaults f).snapped = s.snapped := rfl
@[simp] theorem State.modFaults_retired (s : State) (f : Faults → Faults) : (s.modFaults f).retired = s.retired := rfl
@[simp] theorem State.modFaults_hostMem (s : State) (f : Faults → Faults) : (s.modFaults f).hostMem = s.hostMem := rfl
@[simp] theorem State.modFaults_resp (s : State) (f : Faults → Faults) : (s.modFaults f).resp = s.resp := rfl
@[simp] theorem State.modFaults_meter (s : State) (f : Faults → Faults) : (s.modFaults f).meter = s.meter := rfl
@[simp] theorem State.modFaults_free (s : State) (f : Faults → Faults) : (s.modFaults f).free = s.free := rfl
@[simp] theorem State.modFaults_pending (s : State) (f : Faults → Faults) : (s.modFaults f).pending = s.pending := rfl

/-! ### State.modTime -/

@[simp] theorem State.modTime_postmark (s : State) (f : TimeUnit → TimeUnit) : (s.modTime f).postmark = s.postmark := rfl
@[simp] theorem State.modTime_part9620 (s : State) (f : TimeUnit → TimeUnit) : (s.modTime f).part9620 = s.part9620 := rfl
@[simp] theorem State.modTime_metal (s : State) (f : TimeUnit → TimeUnit) : (s.modTime f).metal = s.metal := rfl
@[simp] theorem State.modTime_time (s : State) (f : TimeUnit → TimeUnit) : (s.modTime f).time = f s.time := rfl
@[simp] theorem State.modTime_fns (s : State) (f : TimeUnit → TimeUnit) : (s.modTime f).fns = s.fns := rfl
@[simp] theorem State.modTime_cmds (s : State) (f : TimeUnit → TimeUnit) : (s.modTime f).cmds = s.cmds := rfl
@[simp] theorem State.modTime_ctxs (s : State) (f : TimeUnit → TimeUnit) : (s.modTime f).ctxs = s.ctxs := rfl
@[simp] theorem State.modTime_uid (s : State) (f : TimeUnit → TimeUnit) : (s.modTime f).uid = s.uid := rfl
@[simp] theorem State.modTime_teams (s : State) (f : TimeUnit → TimeUnit) : (s.modTime f).teams = s.teams := rfl
@[simp] theorem State.modTime_stack (s : State) (f : TimeUnit → TimeUnit) : (s.modTime f).stack = s.stack := rfl
@[simp] theorem State.modTime_tags (s : State) (f : TimeUnit → TimeUnit) : (s.modTime f).tags = s.tags := rfl
@[simp] theorem State.modTime_stackLog (s : State) (f : TimeUnit → TimeUnit) : (s.modTime f).stackLog = s.stackLog := rfl
@[simp] theorem State.modTime_unfenced (s : State) (f : TimeUnit → TimeUnit) : (s.modTime f).unfenced = s.unfenced := rfl
@[simp] theorem State.modTime_pool (s : State) (f : TimeUnit → TimeUnit) : (s.modTime f).pool = s.pool := rfl
@[simp] theorem State.modTime_hub (s : State) (f : TimeUnit → TimeUnit) : (s.modTime f).hub = s.hub := rfl
@[simp] theorem State.modTime_hubWatches (s : State) (f : TimeUnit → TimeUnit) : (s.modTime f).hubWatches = s.hubWatches := rfl
@[simp] theorem State.modTime_hubWaiting (s : State) (f : TimeUnit → TimeUnit) : (s.modTime f).hubWaiting = s.hubWaiting := rfl
@[simp] theorem State.modTime_fabric (s : State) (f : TimeUnit → TimeUnit) : (s.modTime f).fabric = s.fabric := rfl
@[simp] theorem State.modTime_faults (s : State) (f : TimeUnit → TimeUnit) : (s.modTime f).faults = s.faults := rfl
@[simp] theorem State.modTime_irq (s : State) (f : TimeUnit → TimeUnit) : (s.modTime f).irq = s.irq := rfl
@[simp] theorem State.modTime_pm (s : State) (f : TimeUnit → TimeUnit) : (s.modTime f).pm = s.pm := rfl
@[simp] theorem State.modTime_power (s : State) (f : TimeUnit → TimeUnit) : (s.modTime f).power = s.power := rfl
@[simp] theorem State.modTime_regs (s : State) (f : TimeUnit → TimeUnit) : (s.modTime f).regs = s.regs := rfl
@[simp] theorem State.modTime_journal (s : State) (f : TimeUnit → TimeUnit) : (s.modTime f).journal = s.journal := rfl
@[simp] theorem State.modTime_cache (s : State) (f : TimeUnit → TimeUnit) : (s.modTime f).cache = s.cache := rfl
@[simp] theorem State.modTime_snapped (s : State) (f : TimeUnit → TimeUnit) : (s.modTime f).snapped = s.snapped := rfl
@[simp] theorem State.modTime_retired (s : State) (f : TimeUnit → TimeUnit) : (s.modTime f).retired = s.retired := rfl
@[simp] theorem State.modTime_hostMem (s : State) (f : TimeUnit → TimeUnit) : (s.modTime f).hostMem = s.hostMem := rfl
@[simp] theorem State.modTime_resp (s : State) (f : TimeUnit → TimeUnit) : (s.modTime f).resp = s.resp := rfl
@[simp] theorem State.modTime_meter (s : State) (f : TimeUnit → TimeUnit) : (s.modTime f).meter = s.meter := rfl
@[simp] theorem State.modTime_free (s : State) (f : TimeUnit → TimeUnit) : (s.modTime f).free = s.free := rfl
@[simp] theorem State.modTime_pending (s : State) (f : TimeUnit → TimeUnit) : (s.modTime f).pending = s.pending := rfl

/-! ### State.bumpFree -/

@[simp] theorem State.bumpFree_postmark (s : State) : (s.bumpFree).postmark = s.postmark := rfl
@[simp] theorem State.bumpFree_part9620 (s : State) : (s.bumpFree).part9620 = s.part9620 := rfl
@[simp] theorem State.bumpFree_metal (s : State) : (s.bumpFree).metal = s.metal := rfl
@[simp] theorem State.bumpFree_time (s : State) : (s.bumpFree).time = s.time := rfl
@[simp] theorem State.bumpFree_fns (s : State) : (s.bumpFree).fns = s.fns := rfl
@[simp] theorem State.bumpFree_cmds (s : State) : (s.bumpFree).cmds = s.cmds := rfl
@[simp] theorem State.bumpFree_ctxs (s : State) : (s.bumpFree).ctxs = s.ctxs := rfl
@[simp] theorem State.bumpFree_uid (s : State) : (s.bumpFree).uid = s.uid := rfl
@[simp] theorem State.bumpFree_teams (s : State) : (s.bumpFree).teams = s.teams := rfl
@[simp] theorem State.bumpFree_stack (s : State) : (s.bumpFree).stack = s.stack := rfl
@[simp] theorem State.bumpFree_tags (s : State) : (s.bumpFree).tags = s.tags := rfl
@[simp] theorem State.bumpFree_stackLog (s : State) : (s.bumpFree).stackLog = s.stackLog := rfl
@[simp] theorem State.bumpFree_unfenced (s : State) : (s.bumpFree).unfenced = s.unfenced := rfl
@[simp] theorem State.bumpFree_pool (s : State) : (s.bumpFree).pool = s.pool := rfl
@[simp] theorem State.bumpFree_hub (s : State) : (s.bumpFree).hub = s.hub := rfl
@[simp] theorem State.bumpFree_hubWatches (s : State) : (s.bumpFree).hubWatches = s.hubWatches := rfl
@[simp] theorem State.bumpFree_hubWaiting (s : State) : (s.bumpFree).hubWaiting = s.hubWaiting := rfl
@[simp] theorem State.bumpFree_fabric (s : State) : (s.bumpFree).fabric = s.fabric := rfl
@[simp] theorem State.bumpFree_faults (s : State) : (s.bumpFree).faults = s.faults := rfl
@[simp] theorem State.bumpFree_irq (s : State) : (s.bumpFree).irq = s.irq := rfl
@[simp] theorem State.bumpFree_pm (s : State) : (s.bumpFree).pm = s.pm := rfl
@[simp] theorem State.bumpFree_power (s : State) : (s.bumpFree).power = s.power := rfl
@[simp] theorem State.bumpFree_regs (s : State) : (s.bumpFree).regs = s.regs := rfl
@[simp] theorem State.bumpFree_journal (s : State) : (s.bumpFree).journal = s.journal := rfl
@[simp] theorem State.bumpFree_cache (s : State) : (s.bumpFree).cache = s.cache := rfl
@[simp] theorem State.bumpFree_snapped (s : State) : (s.bumpFree).snapped = s.snapped := rfl
@[simp] theorem State.bumpFree_retired (s : State) : (s.bumpFree).retired = s.retired := rfl
@[simp] theorem State.bumpFree_hostMem (s : State) : (s.bumpFree).hostMem = s.hostMem := rfl
@[simp] theorem State.bumpFree_resp (s : State) : (s.bumpFree).resp = s.resp := rfl
@[simp] theorem State.bumpFree_meter (s : State) : (s.bumpFree).meter = s.meter := rfl
@[simp] theorem State.bumpFree_free (s : State) : (s.bumpFree).free = s.free + 1 := rfl
@[simp] theorem State.bumpFree_pending (s : State) : (s.bumpFree).pending = s.pending := rfl

/-! ### State.answer -/

@[simp] theorem State.answer_postmark (s : State) (who status : Nat) (data : List Byte) : (s.answer who status data).postmark = s.postmark := rfl
@[simp] theorem State.answer_part9620 (s : State) (who status : Nat) (data : List Byte) : (s.answer who status data).part9620 = s.part9620 := rfl
@[simp] theorem State.answer_metal (s : State) (who status : Nat) (data : List Byte) : (s.answer who status data).metal = s.metal := rfl
@[simp] theorem State.answer_time (s : State) (who status : Nat) (data : List Byte) : (s.answer who status data).time = s.time := rfl
@[simp] theorem State.answer_fns (s : State) (who status : Nat) (data : List Byte) : (s.answer who status data).fns = s.fns := rfl
@[simp] theorem State.answer_cmds (s : State) (who status : Nat) (data : List Byte) : (s.answer who status data).cmds = s.cmds := rfl
@[simp] theorem State.answer_ctxs (s : State) (who status : Nat) (data : List Byte) : (s.answer who status data).ctxs = s.ctxs := rfl
@[simp] theorem State.answer_uid (s : State) (who status : Nat) (data : List Byte) : (s.answer who status data).uid = s.uid := rfl
@[simp] theorem State.answer_teams (s : State) (who status : Nat) (data : List Byte) : (s.answer who status data).teams = s.teams := rfl
@[simp] theorem State.answer_stack (s : State) (who status : Nat) (data : List Byte) : (s.answer who status data).stack = s.stack := rfl
@[simp] theorem State.answer_tags (s : State) (who status : Nat) (data : List Byte) : (s.answer who status data).tags = s.tags := rfl
@[simp] theorem State.answer_stackLog (s : State) (who status : Nat) (data : List Byte) : (s.answer who status data).stackLog = s.stackLog := rfl
@[simp] theorem State.answer_unfenced (s : State) (who status : Nat) (data : List Byte) : (s.answer who status data).unfenced = s.unfenced := rfl
@[simp] theorem State.answer_pool (s : State) (who status : Nat) (data : List Byte) : (s.answer who status data).pool = s.pool := rfl
@[simp] theorem State.answer_hub (s : State) (who status : Nat) (data : List Byte) : (s.answer who status data).hub = s.hub := rfl
@[simp] theorem State.answer_hubWatches (s : State) (who status : Nat) (data : List Byte) : (s.answer who status data).hubWatches = s.hubWatches := rfl
@[simp] theorem State.answer_hubWaiting (s : State) (who status : Nat) (data : List Byte) : (s.answer who status data).hubWaiting = s.hubWaiting := rfl
@[simp] theorem State.answer_fabric (s : State) (who status : Nat) (data : List Byte) : (s.answer who status data).fabric = s.fabric := rfl
@[simp] theorem State.answer_faults (s : State) (who status : Nat) (data : List Byte) : (s.answer who status data).faults = s.faults := rfl
@[simp] theorem State.answer_irq (s : State) (who status : Nat) (data : List Byte) : (s.answer who status data).irq = s.irq := rfl
@[simp] theorem State.answer_pm (s : State) (who status : Nat) (data : List Byte) : (s.answer who status data).pm = s.pm := rfl
@[simp] theorem State.answer_power (s : State) (who status : Nat) (data : List Byte) : (s.answer who status data).power = s.power := rfl
@[simp] theorem State.answer_regs (s : State) (who status : Nat) (data : List Byte) : (s.answer who status data).regs = s.regs := rfl
@[simp] theorem State.answer_journal (s : State) (who status : Nat) (data : List Byte) : (s.answer who status data).journal = s.journal := rfl
@[simp] theorem State.answer_cache (s : State) (who status : Nat) (data : List Byte) : (s.answer who status data).cache = s.cache := rfl
@[simp] theorem State.answer_snapped (s : State) (who status : Nat) (data : List Byte) : (s.answer who status data).snapped = s.snapped := rfl
@[simp] theorem State.answer_retired (s : State) (who status : Nat) (data : List Byte) : (s.answer who status data).retired = s.retired := rfl
@[simp] theorem State.answer_hostMem (s : State) (who status : Nat) (data : List Byte) : (s.answer who status data).hostMem = s.hostMem := rfl
@[simp] theorem State.answer_resp (s : State) (who status : Nat) (data : List Byte) : (s.answer who status data).resp = some ⟨who, status, data⟩ := rfl
@[simp] theorem State.answer_meter (s : State) (who status : Nat) (data : List Byte) : (s.answer who status data).meter = s.meter := rfl
@[simp] theorem State.answer_free (s : State) (who status : Nat) (data : List Byte) : (s.answer who status data).free = s.free := rfl
@[simp] theorem State.answer_pending (s : State) (who status : Nat) (data : List Byte) : (s.answer who status data).pending = s.pending := rfl

/-! ### State.setHub -/

@[simp] theorem State.setHub_postmark (s : State) (i : Nat) (o : HubObj) : (s.setHub i o).postmark = s.postmark := rfl
@[simp] theorem State.setHub_part9620 (s : State) (i : Nat) (o : HubObj) : (s.setHub i o).part9620 = s.part9620 := rfl
@[simp] theorem State.setHub_metal (s : State) (i : Nat) (o : HubObj) : (s.setHub i o).metal = s.metal := rfl
@[simp] theorem State.setHub_time (s : State) (i : Nat) (o : HubObj) : (s.setHub i o).time = s.time := rfl
@[simp] theorem State.setHub_fns (s : State) (i : Nat) (o : HubObj) : (s.setHub i o).fns = s.fns := rfl
@[simp] theorem State.setHub_cmds (s : State) (i : Nat) (o : HubObj) : (s.setHub i o).cmds = s.cmds := rfl
@[simp] theorem State.setHub_ctxs (s : State) (i : Nat) (o : HubObj) : (s.setHub i o).ctxs = s.ctxs := rfl
@[simp] theorem State.setHub_uid (s : State) (i : Nat) (o : HubObj) : (s.setHub i o).uid = s.uid := rfl
@[simp] theorem State.setHub_teams (s : State) (i : Nat) (o : HubObj) : (s.setHub i o).teams = s.teams := rfl
@[simp] theorem State.setHub_stack (s : State) (i : Nat) (o : HubObj) : (s.setHub i o).stack = s.stack := rfl
@[simp] theorem State.setHub_tags (s : State) (i : Nat) (o : HubObj) : (s.setHub i o).tags = s.tags := rfl
@[simp] theorem State.setHub_stackLog (s : State) (i : Nat) (o : HubObj) : (s.setHub i o).stackLog = s.stackLog := rfl
@[simp] theorem State.setHub_unfenced (s : State) (i : Nat) (o : HubObj) : (s.setHub i o).unfenced = s.unfenced := rfl
@[simp] theorem State.setHub_pool (s : State) (i : Nat) (o : HubObj) : (s.setHub i o).pool = s.pool := rfl
@[simp] theorem State.setHub_hub (s : State) (i : Nat) (o : HubObj) : (s.setHub i o).hub = mapPut s.hub i o := rfl
@[simp] theorem State.setHub_hubWatches (s : State) (i : Nat) (o : HubObj) : (s.setHub i o).hubWatches = s.hubWatches := rfl
@[simp] theorem State.setHub_hubWaiting (s : State) (i : Nat) (o : HubObj) : (s.setHub i o).hubWaiting = s.hubWaiting := rfl
@[simp] theorem State.setHub_fabric (s : State) (i : Nat) (o : HubObj) : (s.setHub i o).fabric = s.fabric := rfl
@[simp] theorem State.setHub_faults (s : State) (i : Nat) (o : HubObj) : (s.setHub i o).faults = s.faults := rfl
@[simp] theorem State.setHub_irq (s : State) (i : Nat) (o : HubObj) : (s.setHub i o).irq = s.irq := rfl
@[simp] theorem State.setHub_pm (s : State) (i : Nat) (o : HubObj) : (s.setHub i o).pm = s.pm := rfl
@[simp] theorem State.setHub_power (s : State) (i : Nat) (o : HubObj) : (s.setHub i o).power = s.power := rfl
@[simp] theorem State.setHub_regs (s : State) (i : Nat) (o : HubObj) : (s.setHub i o).regs = s.regs := rfl
@[simp] theorem State.setHub_journal (s : State) (i : Nat) (o : HubObj) : (s.setHub i o).journal = s.journal := rfl
@[simp] theorem State.setHub_cache (s : State) (i : Nat) (o : HubObj) : (s.setHub i o).cache = s.cache := rfl
@[simp] theorem State.setHub_snapped (s : State) (i : Nat) (o : HubObj) : (s.setHub i o).snapped = s.snapped := rfl
@[simp] theorem State.setHub_retired (s : State) (i : Nat) (o : HubObj) : (s.setHub i o).retired = s.retired := rfl
@[simp] theorem State.setHub_hostMem (s : State) (i : Nat) (o : HubObj) : (s.setHub i o).hostMem = s.hostMem := rfl
@[simp] theorem State.setHub_resp (s : State) (i : Nat) (o : HubObj) : (s.setHub i o).resp = s.resp := rfl
@[simp] theorem State.setHub_meter (s : State) (i : Nat) (o : HubObj) : (s.setHub i o).meter = s.meter := rfl
@[simp] theorem State.setHub_free (s : State) (i : Nat) (o : HubObj) : (s.setHub i o).free = s.free := rfl
@[simp] theorem State.setHub_pending (s : State) (i : Nat) (o : HubObj) : (s.setHub i o).pending = s.pending := rfl

/-! ### State.writeStack -/

@[simp] theorem State.writeStack_postmark (s : State) (cells : List (Nat × Byte)) : (s.writeStack cells).postmark = s.postmark := rfl
@[simp] theorem State.writeStack_part9620 (s : State) (cells : List (Nat × Byte)) : (s.writeStack cells).part9620 = s.part9620 := rfl
@[simp] theorem State.writeStack_metal (s : State) (cells : List (Nat × Byte)) : (s.writeStack cells).metal = s.metal := rfl
@[simp] theorem State.writeStack_time (s : State) (cells : List (Nat × Byte)) : (s.writeStack cells).time = s.time := rfl
@[simp] theorem State.writeStack_fns (s : State) (cells : List (Nat × Byte)) : (s.writeStack cells).fns = s.fns := rfl
@[simp] theorem State.writeStack_cmds (s : State) (cells : List (Nat × Byte)) : (s.writeStack cells).cmds = s.cmds := rfl
@[simp] theorem State.writeStack_ctxs (s : State) (cells : List (Nat × Byte)) : (s.writeStack cells).ctxs = s.ctxs := rfl
@[simp] theorem State.writeStack_uid (s : State) (cells : List (Nat × Byte)) : (s.writeStack cells).uid = s.uid := rfl
@[simp] theorem State.writeStack_teams (s : State) (cells : List (Nat × Byte)) : (s.writeStack cells).teams = s.teams := rfl
@[simp] theorem State.writeStack_stack (s : State) (cells : List (Nat × Byte)) : (s.writeStack cells).stack = cells.foldl (fun m c => memSet m c.1 c.2) s.stack := rfl
@[simp] theorem State.writeStack_tags (s : State) (cells : List (Nat × Byte)) : (s.writeStack cells).tags = tagsAfter s.tags cells := rfl
@[simp] theorem State.writeStack_stackLog (s : State) (cells : List (Nat × Byte)) : (s.writeStack cells).stackLog =
      (if s.streaming then (cells.map fun c => (s.stackLog.length, c.1, memGet s.stack c.1)).reverse ++ s.stackLog
       else []) := rfl
@[simp] theorem State.writeStack_unfenced (s : State) (cells : List (Nat × Byte)) : (s.writeStack cells).unfenced = s.unfenced := rfl
@[simp] theorem State.writeStack_pool (s : State) (cells : List (Nat × Byte)) : (s.writeStack cells).pool = s.pool := rfl
@[simp] theorem State.writeStack_hub (s : State) (cells : List (Nat × Byte)) : (s.writeStack cells).hub = s.hub := rfl
@[simp] theorem State.writeStack_hubWatches (s : State) (cells : List (Nat × Byte)) : (s.writeStack cells).hubWatches = s.hubWatches := rfl
@[simp] theorem State.writeStack_hubWaiting (s : State) (cells : List (Nat × Byte)) : (s.writeStack cells).hubWaiting = s.hubWaiting := rfl
@[simp] theorem State.writeStack_fabric (s : State) (cells : List (Nat × Byte)) : (s.writeStack cells).fabric = s.fabric := rfl
@[simp] theorem State.writeStack_faults (s : State) (cells : List (Nat × Byte)) : (s.writeStack cells).faults = s.faults := rfl
@[simp] theorem State.writeStack_irq (s : State) (cells : List (Nat × Byte)) : (s.writeStack cells).irq = s.irq := rfl
@[simp] theorem State.writeStack_pm (s : State) (cells : List (Nat × Byte)) : (s.writeStack cells).pm = s.pm := rfl
@[simp] theorem State.writeStack_power (s : State) (cells : List (Nat × Byte)) : (s.writeStack cells).power = s.power := rfl
@[simp] theorem State.writeStack_regs (s : State) (cells : List (Nat × Byte)) : (s.writeStack cells).regs = s.regs := rfl
@[simp] theorem State.writeStack_journal (s : State) (cells : List (Nat × Byte)) : (s.writeStack cells).journal = s.journal := rfl
@[simp] theorem State.writeStack_cache (s : State) (cells : List (Nat × Byte)) : (s.writeStack cells).cache = s.cache := rfl
@[simp] theorem State.writeStack_snapped (s : State) (cells : List (Nat × Byte)) : (s.writeStack cells).snapped = s.snapped := rfl
@[simp] theorem State.writeStack_retired (s : State) (cells : List (Nat × Byte)) : (s.writeStack cells).retired = s.retired := rfl
@[simp] theorem State.writeStack_hostMem (s : State) (cells : List (Nat × Byte)) : (s.writeStack cells).hostMem = s.hostMem := rfl
@[simp] theorem State.writeStack_resp (s : State) (cells : List (Nat × Byte)) : (s.writeStack cells).resp = s.resp := rfl
@[simp] theorem State.writeStack_meter (s : State) (cells : List (Nat × Byte)) : (s.writeStack cells).meter = s.meter := rfl
@[simp] theorem State.writeStack_free (s : State) (cells : List (Nat × Byte)) : (s.writeStack cells).free = s.free := rfl
@[simp] theorem State.writeStack_pending (s : State) (cells : List (Nat × Byte)) : (s.writeStack cells).pending = s.pending := rfl

/-! ### State.drop -/

@[simp] theorem State.drop_postmark (s : State) (f : Nat) (b : Bool) (off : Nat) : (s.drop f b off).postmark = s.postmark := rfl
@[simp] theorem State.drop_part9620 (s : State) (f : Nat) (b : Bool) (off : Nat) : (s.drop f b off).part9620 = s.part9620 := rfl
@[simp] theorem State.drop_metal (s : State) (f : Nat) (b : Bool) (off : Nat) : (s.drop f b off).metal = s.metal := rfl
@[simp] theorem State.drop_time (s : State) (f : Nat) (b : Bool) (off : Nat) : (s.drop f b off).time = s.time := rfl
@[simp] theorem State.drop_fns (s : State) (f : Nat) (b : Bool) (off : Nat) : (s.drop f b off).fns = s.fns := rfl
@[simp] theorem State.drop_cmds (s : State) (f : Nat) (b : Bool) (off : Nat) : (s.drop f b off).cmds = s.cmds := rfl
@[simp] theorem State.drop_ctxs (s : State) (f : Nat) (b : Bool) (off : Nat) : (s.drop f b off).ctxs = s.ctxs := rfl
@[simp] theorem State.drop_uid (s : State) (f : Nat) (b : Bool) (off : Nat) : (s.drop f b off).uid = s.uid := rfl
@[simp] theorem State.drop_teams (s : State) (f : Nat) (b : Bool) (off : Nat) : (s.drop f b off).teams = s.teams := rfl
@[simp] theorem State.drop_stack (s : State) (f : Nat) (b : Bool) (off : Nat) : (s.drop f b off).stack = s.stack := rfl
@[simp] theorem State.drop_tags (s : State) (f : Nat) (b : Bool) (off : Nat) : (s.drop f b off).tags = s.tags := rfl
@[simp] theorem State.drop_stackLog (s : State) (f : Nat) (b : Bool) (off : Nat) : (s.drop f b off).stackLog = s.stackLog := rfl
@[simp] theorem State.drop_unfenced (s : State) (f : Nat) (b : Bool) (off : Nat) : (s.drop f b off).unfenced = s.unfenced := rfl
@[simp] theorem State.drop_pool (s : State) (f : Nat) (b : Bool) (off : Nat) : (s.drop f b off).pool = s.pool := rfl
@[simp] theorem State.drop_hub (s : State) (f : Nat) (b : Bool) (off : Nat) : (s.drop f b off).hub = s.hub := rfl
@[simp] theorem State.drop_hubWatches (s : State) (f : Nat) (b : Bool) (off : Nat) : (s.drop f b off).hubWatches = s.hubWatches := rfl
@[simp] theorem State.drop_hubWaiting (s : State) (f : Nat) (b : Bool) (off : Nat) : (s.drop f b off).hubWaiting = s.hubWaiting := rfl
@[simp] theorem State.drop_fabric (s : State) (f : Nat) (b : Bool) (off : Nat) : (s.drop f b off).fabric = s.fabric := rfl
@[simp] theorem State.drop_faults (s : State) (f : Nat) (b : Bool) (off : Nat) : (s.drop f b off).faults = s.faults := rfl
@[simp] theorem State.drop_irq (s : State) (f : Nat) (b : Bool) (off : Nat) : (s.drop f b off).irq = s.irq := rfl
@[simp] theorem State.drop_pm (s : State) (f : Nat) (b : Bool) (off : Nat) : (s.drop f b off).pm = s.pm := rfl
@[simp] theorem State.drop_power (s : State) (f : Nat) (b : Bool) (off : Nat) : (s.drop f b off).power = s.power := rfl
@[simp] theorem State.drop_journal (s : State) (f : Nat) (b : Bool) (off : Nat) : (s.drop f b off).journal = s.journal := rfl
@[simp] theorem State.drop_cache (s : State) (f : Nat) (b : Bool) (off : Nat) : (s.drop f b off).cache = s.cache := rfl
@[simp] theorem State.drop_snapped (s : State) (f : Nat) (b : Bool) (off : Nat) : (s.drop f b off).snapped = s.snapped := rfl
@[simp] theorem State.drop_retired (s : State) (f : Nat) (b : Bool) (off : Nat) : (s.drop f b off).retired = s.retired := rfl
@[simp] theorem State.drop_hostMem (s : State) (f : Nat) (b : Bool) (off : Nat) : (s.drop f b off).hostMem = s.hostMem := rfl
@[simp] theorem State.drop_resp (s : State) (f : Nat) (b : Bool) (off : Nat) : (s.drop f b off).resp = s.resp := rfl
@[simp] theorem State.drop_meter (s : State) (f : Nat) (b : Bool) (off : Nat) : (s.drop f b off).meter = s.meter := rfl
@[simp] theorem State.drop_free (s : State) (f : Nat) (b : Bool) (off : Nat) : (s.drop f b off).free = s.free := rfl
@[simp] theorem State.drop_pending (s : State) (f : Nat) (b : Bool) (off : Nat) : (s.drop f b off).pending = s.pending := rfl

/-! ### Reading back what an update wrote -/

@[simp] theorem State.team_modTeam_self (s : State) (t : Nat) (f : Team → Team) : (s.modTeam t f).team t = f (s.team t) := by
  simp [State.team]

theorem State.team_modTeam_ne (s : State) {t u : Nat} (h : u ≠ t) (f : Team → Team) :
    (s.modTeam t f).team u = s.team u := by
  simp [State.team, mapGetD_mapPut_ne _ _ h]

@[simp] theorem Team.core_modCore_self (k : Team) (q : Nat) (f : Core → Core) : (k.modCore q f).core q = f (k.core q) := by
  simp [Team.core, Team.modCore]

theorem Team.core_modCore_ne (k : Team) {q r : Nat} (h : r ≠ q) (f : Core → Core) :
    (k.modCore q f).core r = k.core r := by
  simp [Team.core, Team.modCore, mapGetD_mapPut_ne _ _ h]

@[simp] theorem Team.modCore_kernel (k : Team) (q : Nat) (f : Core → Core) : (k.modCore q f).kernel = k.kernel := rfl

@[simp] theorem State.core_modCore_self (s : State) (t q : Nat) (f : Core → Core) :
    (s.modCore t q f).core t q = f (s.core t q) := by
  simp [State.core, State.modCore]

theorem State.core_modCore_ne (s : State) (t : Nat) {q r : Nat} (h : r ≠ q) (f : Core → Core) :
    (s.modCore t q f).core t r = s.core t r := by
  simp [State.core, State.modCore, Team.core_modCore_ne _ h]

@[simp] theorem State.kernel_modCore (s : State) (t q u : Nat) (f : Core → Core) :
    ((s.modCore t q f).team u).kernel = (s.team u).kernel := by
  by_cases h : u = t
  · subst h; simp [State.modCore]
  · simp [State.modCore, State.team_modTeam_ne s h]

@[simp] theorem State.fn_modFn_self (s : State) (f : Nat) (g : Fn → Fn) : (s.modFn f g).fn f = g (s.fn f) := by
  simp [State.fn]

theorem State.fn_modFn_ne (s : State) {f h : Nat} (e : h ≠ f) (g : Fn → Fn) : (s.modFn f g).fn h = s.fn h := by
  simp [State.fn, mapGetD_mapPut_ne _ _ e]

@[simp] theorem State.cmdsOf_modCmds_self (s : State) (c : W32) (f : CmdState → CmdState) :
    (s.modCmds c f).cmdsOf c = f (s.cmdsOf c) := by
  simp [State.cmdsOf]

theorem State.cmdsOf_modCmds_ne (s : State) {c d : W32} (h : d ≠ c) (f : CmdState → CmdState) :
    (s.modCmds c f).cmdsOf d = s.cmdsOf d := by
  have : d.toNat ≠ c.toNat := fun e => h (BitVec.eq_of_toNat_eq e)
  simp [State.cmdsOf, mapGetD_mapPut_ne _ _ this]

@[simp] theorem Core.getS_setS_self (k : Core) (n : Nat) (v : W64) : (k.setS n v).getS n = v := by
  simp [Core.getS, Core.setS]

theorem Core.getS_setS_ne (k : Core) {m n : Nat} (h : m ≠ n) (v : W64) : (k.setS n v).getS m = k.getS m := by
  simp [Core.getS, Core.setS, mapGetD_mapPut_ne _ _ h]

@[simp] theorem Core.getT_setT_self (k : Core) (n : Nat) (v : TileDesc) : (k.setT n v).getT n = v := by
  simp [Core.getT, Core.setT]

theorem Core.getT_setT_ne (k : Core) {m n : Nat} (h : m ≠ n) (v : TileDesc) : (k.setT n v).getT m = k.getT m := by
  simp [Core.getT, Core.setT, mapGetD_mapPut_ne _ _ h]

@[simp] theorem Core.getC_setC_self (k : Core) (n : Nat) (v : W32) : (k.setC n v).getC n = v := by
  simp [Core.getC, Core.setC]

theorem Core.getC_setC_ne (k : Core) {m n : Nat} (h : m ≠ n) (v : W32) : (k.setC n v).getC m = k.getC m := by
  simp [Core.getC, Core.setC, mapGetD_mapPut_ne _ _ h]

/-- p0 is true in every core, whatever is written (R107). -/
@[simp] theorem Core.getP_zero (k : Core) : k.getP 0 = true := rfl

@[simp] theorem Core.setP_zero (k : Core) (v : Bool) : k.setP 0 v = k := rfl

@[simp] theorem Core.setS_mem (k : Core) (n : Nat) (v : W64) : (k.setS n v).mem = k.mem := rfl
@[simp] theorem Core.setT_mem (k : Core) (n : Nat) (v : TileDesc) : (k.setT n v).mem = k.mem := rfl
@[simp] theorem Core.setC_mem (k : Core) (n : Nat) (v : W32) : (k.setC n v).mem = k.mem := rfl

@[simp] theorem Core.setP_mem (k : Core) (n : Nat) (v : Bool) : (k.setP n v).mem = k.mem := by
  unfold Core.setP; split <;> rfl

@[simp] theorem Core.putD_mem (k : Core) (x : Args) (v : W64) : (k.putD x v).mem = k.mem := by
  unfold Core.putD; split <;> rfl

@[simp] theorem Core.putPD_mem (k : Core) (x : Args) (v : Bool) : (k.putPD x v).mem = k.mem := by
  unfold Core.putPD; split <;> simp

end Sys2Proof.Machine
end

