-- ==== Sys2Proof/Laws/Keeps.lean ====
section
/-! SUPPORT. What every command leaves: the queue, the part and its revision, and the canonical form of every memory.
Here the relation and its rules; Laws/KeepsOps.lean holds one lemma per operation, cited by those that call it. -/

namespace Sys2Proof.Machine

open Sys2Proof

/-- What a command keeps. -/
structure Keeps (s t : State) : Prop where
  pending : t.pending = s.pending
  part : t.part9620 = s.part9620
  metal : t.metal = s.metal
  mem : s.MemOk → t.MemOk

theorem Keeps.rfl' (s : State) : Keeps s s := ⟨rfl, rfl, rfl, id⟩

/-- A change of the other fields alone. -/
theorem Keeps.upd {s0 : State} (s : State) (h : Keeps s0 s) (a1 a4 a5 a6 a8 a11 a12 a13 a14 a15 a16 a17 a18 a19 a20
    a21 a22 a23 a24 a25 a26 a28 a30 a31) :
    Keeps s0 ⟨a1, s.part9620, s.metal, a4, a5, a6, s.ctxs, a8, s.teams, s.stack, a11, a12, a13, a14, a15, a16, a17, a18,
      a19, a20, a21, a22, a23, a24, a25, a26, s.snapped, a28, s.hostMem, a30, a31, s.pending⟩ :=
  ⟨h.pending, h.part, h.metal, fun m => ⟨(h.mem m).stack, (h.mem m).host, (h.mem m).teams, (h.mem m).ctxs, (h.mem m).snaps⟩⟩

/-- A change of memories too, each with the reason why its form is kept. -/
theorem Keeps.updMem {s0 : State} (s : State) (h : Keeps s0 s) (a1 a4 a5 a6 ctxs a8 teams stack a11 a12 a13 a14 a15 a16
    a17 a18 a19 a20 a21 a22 a23 a24 a25 a26 snapped a28 host a30 a31)
    (h1 : s.MemOk → Memory.wf stack = true) (h2 : s.MemOk → Memory.wf host = true) (h3 : s.MemOk → teamsOk teams)
    (h4 : s.MemOk → ctxsOk ctxs) (h5 : s.MemOk → snapsOk snapped) :
    Keeps s0 ⟨a1, s.part9620, s.metal, a4, a5, a6, ctxs, a8, teams, stack, a11, a12, a13, a14, a15, a16, a17, a18,
      a19, a20, a21, a22, a23, a24, a25, a26, snapped, a28, host, a30, a31, s.pending⟩ :=
  ⟨h.pending, h.part, h.metal, fun m => ⟨h1 (h.mem m), h2 (h.mem m), h3 (h.mem m), h4 (h.mem m), h5 (h.mem m)⟩⟩

/-- A fold of operations that keep. -/
theorem Keeps.foldl {α : Type} {s0 : State} (l : List α) (f : State → α → State) (s : State) (h : Keeps s0 s)
    (hf : ∀ s x, Keeps s0 s → Keeps s0 (f s x)) : Keeps s0 (l.foldl f s) := by
  induction l generalizing s with
  | nil => exact h
  | cons x r ih => exact ih _ (hf s x h)

/-- A fold over a pair whose first part is the state. -/
theorem Keeps.foldl_fst {α β : Type} {s0 : State} (l : List α) (f : State × β → α → State × β) (a : State × β)
    (h : Keeps s0 a.1) (hf : ∀ a x, Keeps s0 a.1 → Keeps s0 (f a x).1) : Keeps s0 (l.foldl f a).1 := by
  induction l generalizing a with
  | nil => exact h
  | cons x r ih => exact ih _ (hf a x h)

theorem Keeps.of_fst {α : Type} {s0 a : State} {b : α} {p : State × α} (e : p = (a, b)) (h : Keeps s0 p.1) : Keeps s0 a := by
  rw [e] at h; exact h

theorem Keeps.ite {s0 a b : State} (c : Prop) [Decidable c] (ha : Keeps s0 a) (hb : Keeps s0 b) :
    Keeps s0 (if c then a else b) := by split <;> assumption

theorem Keeps.ite_fst {α : Type} {s0 : State} {a b : State × α} (c : Prop) [Decidable c] (ha : Keeps s0 a.1)
    (hb : Keeps s0 b.1) : Keeps s0 (if c then a else b).1 := by split <;> assumption

/-! ### Tables whose entries all satisfy a property -/

theorem forall_mapPut {α : Type} {p : α → Prop} (m : SMap α) (k : Nat) (v : α) (hm : ∀ x ∈ m, p x.2) (hv : p v) :
    ∀ x ∈ mapPut m k v, p x.2 := by
  intro x hx
  rcases mem_mapPut m k v x hx with e | e
  · subst e; exact hv
  · exact hm x e

theorem forall_mapGet {α : Type} {p : α → Prop} (m : SMap α) (k : Nat) (v : α) (hm : ∀ x ∈ m, p x.2)
    (h : mapGet m k = some v) : p v := by
  induction m with
  | nil => simp at h
  | cons x r ih =>
    obtain ⟨j, w⟩ := x
    simp only [mapGet] at h
    split at h
    · cases h; exact hm (j, v) (by simp)
    · exact ih (fun y hy => hm y (List.mem_cons_of_mem _ hy)) h

theorem forall_mapGetD {α : Type} {p : α → Prop} (m : SMap α) (d : α) (k : Nat) (hm : ∀ x ∈ m, p x.2) (hd : p d) :
    p (mapGetD m d k) := by
  unfold mapGetD
  cases h : mapGet m k with
  | none => exact hd
  | some v => exact forall_mapGet m k v hm h

theorem forall_filter {α : Type} {p : α → Prop} (m : SMap α) (f : Nat × α → Bool) (hm : ∀ x ∈ m, p x.2) :
    ∀ x ∈ m.filter f, p x.2 := fun x hx => hm x (List.mem_filter.mp hx).1

theorem forall_map {α β : Type} {p : α → Prop} {q : β → Prop} (m : SMap α) (g : Nat × α → Nat × β) (hm : ∀ x ∈ m, p x.2)
    (hg : ∀ x, p x.2 → q (g x).2) : ∀ x ∈ m.map g, q x.2 := by
  intro x hx
  obtain ⟨y, hy, e⟩ := List.mem_map.mp hx
  exact e ▸ hg y (hm y hy)

/-! ### Memories of teams, contexts and launches -/

theorem Core.memOk_reset : Core.memOk Core.reset := rfl

theorem Team.memOk_reset : Team.memOk Team.reset := ⟨rfl, fun _ h => absurd h (List.not_mem_nil)⟩

theorem State.MemOk.team {s : State} (h : s.MemOk) (t : Nat) : Team.memOk (s.team t) :=
  forall_mapGetD s.teams _ t h.teams Team.memOk_reset

theorem Team.memOk.core {k : Team} (h : Team.memOk k) (q : Nat) : Core.memOk (k.core q) :=
  forall_mapGetD k.cores _ q h.2 Core.memOk_reset

theorem State.MemOk.core {s : State} (h : s.MemOk) (t q : Nat) : Core.memOk (s.core t q) := (h.team t).core q

theorem State.MemOk.ctx {s : State} (h : s.MemOk) {c : W32} {x : Ctx} (e : s.ctx c = some x) : Ctx.memOk x :=
  forall_mapGet s.ctxs _ x h.ctxs e

theorem Team.memOk_modCore {k : Team} (h : Team.memOk k) (q : Nat) (f : Core → Core)
    (hf : ∀ c, Core.memOk c → Core.memOk (f c)) : Team.memOk (k.modCore q f) :=
  ⟨h.1, forall_mapPut k.cores q _ h.2 (hf _ (h.core q))⟩

theorem launchesOk_modWhere {l : List Launch} (h : launchesOk l) (p : Launch → Bool) (f : Launch → Launch)
    (hf : ∀ x, teamsOk x.startTeams → teamsOk (f x).startTeams) : launchesOk (modWhere p f l) := by
  intro x hx
  unfold modWhere at hx
  obtain ⟨y, hy, e⟩ := List.mem_map.mp hx
  subst e
  split
  · exact hf y (h y hy)
  · exact h y hy

theorem launchesOk_filter {l : List Launch} (h : launchesOk l) (p : Launch → Bool) : launchesOk (l.filter p) :=
  fun x hx => h x (List.mem_filter.mp hx).1

theorem launchesOk_map {l : List Launch} (h : launchesOk l) (f : Launch → Launch)
    (hf : ∀ x, teamsOk x.startTeams → teamsOk (f x).startTeams) : launchesOk (l.map f) := by
  intro x hx
  obtain ⟨y, hy, e⟩ := List.mem_map.mp hx
  exact e ▸ hf y (h y hy)

theorem launchesOk_cons {l : List Launch} {x : Launch} (hx : teamsOk x.startTeams) (h : launchesOk l) :
    launchesOk (x :: l) := by
  intro y hy
  rcases List.mem_cons.mp hy with e | e
  · exact e ▸ hx
  · exact h y e

theorem snapsOk_cons {l : List Snapped} {x : Snapped} (hx : teamsOk x.chip.teams) (h : snapsOk l) : snapsOk (x :: l) := by
  intro y hy
  rcases List.mem_cons.mp hy with e | e
  · exact e ▸ hx
  · exact h y e

theorem snapsOk_filter {l : List Snapped} (h : snapsOk l) (p : Snapped → Bool) : snapsOk (l.filter p) :=
  fun y hy => h y (List.mem_filter.mp hy).1

/-- A new list of snapshot images. -/
theorem Keeps.snapped {s0 s : State} (h : Keeps s0 s) (l : List Snapped) (hl : s0.MemOk → s.MemOk → snapsOk l) :
    Keeps s0 { s with snapped := l } :=
  ⟨h.pending, h.part, h.metal, fun m =>
    have g := h.mem m
    ⟨g.stack, g.host, g.teams, g.ctxs, hl m g⟩⟩

/-- The cores of a team changed one by one. -/
theorem coresOk_map {m : SMap Core} (h : coresOk m) (g : Nat × Core → Nat × Core)
    (hg : ∀ x, Core.memOk x.2 → Core.memOk (g x).2) : coresOk (m.map g) := forall_map m g h hg

/-- The teams of a table changed one by one. -/
theorem teamsOk_map {m : SMap Team} (h : teamsOk m) (g : Nat × Team → Nat × Team)
    (hg : ∀ x, Team.memOk x.2 → Team.memOk (g x).2) : teamsOk (m.map g) := forall_map m g h hg

theorem ctxsOk_map {m : SMap Ctx} (h : ctxsOk m) (g : Nat × Ctx → Nat × Ctx)
    (hg : ∀ x, Ctx.memOk x.2 → Ctx.memOk (g x).2) : ctxsOk (m.map g) := forall_map m g h hg

theorem teamsOk_put {m : SMap Team} (h : teamsOk m) (t : Nat) {k : Team} (hk : Team.memOk k) : teamsOk (mapPut m t k) :=
  forall_mapPut m t k h hk

theorem teamsOk_nil : teamsOk [] := fun _ h => absurd h List.not_mem_nil

/-- A table made of one team for each of some numbers. -/
theorem teamsOk_of {l : List Nat} (f : Nat → Team) (h : ∀ t, Team.memOk (f t)) : teamsOk (l.map fun t => (t, f t)) := by
  intro x hx
  obtain ⟨t, _, e⟩ := List.mem_map.mp hx
  exact e ▸ h t

theorem launchesOk_nil : launchesOk [] := fun _ h => absurd h List.not_mem_nil

theorem launchesOk_append {l m : List Launch} (h : launchesOk l) (g : launchesOk m) : launchesOk (l ++ m) := by
  intro x hx
  rcases List.mem_append.mp hx with e | e
  · exact h x e
  · exact g x e

theorem Team.memOk_acsFold {α : Type} (l : List α) (w : α → Nat) (v : α → BitVec 40) {k : Team} (h : Team.memOk k) :
    Team.memOk (l.foldl (fun k e => k.acsPut (w e) (v e)) k) := by
  induction l generalizing k with
  | nil => exact h
  | cons x r ih => exact ih ⟨h.1, h.2⟩

theorem Core.memOk_setS {k : Core} (h : Core.memOk k) (n : Nat) (v : W64) : Core.memOk (k.setS n v) := by
  unfold Core.memOk; rw [Core.setS_mem]; exact h
theorem Core.memOk_setT {k : Core} (h : Core.memOk k) (n : Nat) (v : TileDesc) : Core.memOk (k.setT n v) := h
theorem Core.memOk_setC {k : Core} (h : Core.memOk k) (n : Nat) (v : W32) : Core.memOk (k.setC n v) := h

theorem Core.memOk_putD {k : Core} (h : Core.memOk k) (x : Args) (v : W64) : Core.memOk (k.putD x v) := by
  unfold Core.memOk; rw [Core.putD_mem]; exact h

theorem Core.memOk_putPD {k : Core} (h : Core.memOk k) (x : Args) (v : Bool) : Core.memOk (k.putPD x v) := by
  unfold Core.memOk; rw [Core.putPD_mem]; exact h

theorem Core.memOk_useDraws {k : Core} (h : Core.memOk k) (x : Args) (m n : Nat) : Core.memOk (k.useDraws x m n) := by
  unfold Core.useDraws; split <;> exact h

theorem Core.memOk_dropDraws {k : Core} (h : Core.memOk k) (d : TileDesc) : Core.memOk (k.dropDraws d) := by
  unfold Core.dropDraws; split <;> exact h

/-- Completing what is ready writes scalar registers alone. -/
theorem Core.memOk_completeReady {k : Core} (h : Core.memOk k) : Core.memOk k.completeReady := by
  have one : ∀ (l : List Awaited) (a : Core), Core.memOk a → Core.memOk (l.foldl (fun (acc : Core) a =>
      let wait : Core := { acc with awaited := acc.awaited ++ [a] }
      match a.answer with
      | some v =>
        if acc.awaited.any fun y => y.unit == a.unit then wait
        else
          match a.dest with
          | .sreg n => acc.setS n v
          | _ => acc
      | none => wait) a) := by
    intro l
    induction l with
    | nil => exact fun _ h => h
    | cons x r ih =>
      refine fun a ha => ih _ ?_
      dsimp only
      split
      · split
        · exact ha
        · split
          · exact Core.memOk_setS ha _ _
          · exact ha
      · exact ha
  exact one _ _ h

theorem Core.memOk_answer {k : Core} (h : Core.memOk k) (tag : Nat) (v : W64) : Core.memOk (k.answer tag v) :=
  Core.memOk_completeReady (k := { k with awaited := _ }) h

theorem Core.memOk_dropExternal {k : Core} (h : Core.memOk k) : Core.memOk k.dropExternal :=
  Core.memOk_completeReady (k := { k with awaited := _ }) h

theorem Core.memOk_start {k : Core} (h : Core.memOk k) (regs : SMap W64) : Core.memOk (k.start regs) := h

theorem Team.memOk_acsPut {k : Team} (h : Team.memOk k) (w : Nat) (v : BitVec 40) : Team.memOk (k.acsPut w v) := ⟨h.1, h.2⟩

theorem Team.memOk_halt {k : Team} (h : Team.memOk k) : Team.memOk k.halt :=
  ⟨h.1, coresOk_map h.2 _ fun _ hx => hx⟩

theorem Team.memOk_poisonSaved {k : Team} (h : Team.memOk k) : Team.memOk k.poisonSaved := by
  unfold Team.poisonSaved
  generalize clusterObjects = l
  exact h

theorem Team.memOk_clear {k : Team} (h : Team.memOk k) : Team.memOk k.clear := Team.memOk_halt h

theorem Team.memOk_toSave {k : Team} (h : Team.memOk k) (fabric : Bool) : Team.memOk (k.toSave fabric) := by
  unfold Team.toSave; dsimp only; split <;> exact h

theorem Team.memOk_load {k : Team} (h : Team.memOk k) (bank : Nat) (i : Bank) : Team.memOk (k.load bank i) := by
  unfold Team.load; dsimp only; split <;> exact h

theorem Team.memOk_refuse {k : Team} (h : Team.memOk k) (bank : Nat) : Team.memOk (k.refuse bank) := h

theorem Team.memOk_restoreRows {k : Team} (h : Team.memOk k) : Team.memOk k.restoreRows := h

theorem Team.memOk_rerun {k : Team} (h : Team.memOk k) (old : Team) (rows : SMap (List (BitVec 40))) (log : Nat) :
    Team.memOk (k.rerun old rows log) :=
  Team.memOk_restoreRows (k := { k.restoreRows with acsRows := rows }) (Team.memOk_restoreRows h)

theorem Team.memOk_tested {k : Team} (_ : Team.memOk k) : Team.memOk k.tested :=
  ⟨rfl, fun x hx => by obtain ⟨y, _, e⟩ := List.mem_map.mp hx; exact e ▸ rfl⟩

theorem Team.memOk_shift {k : Team} (h : Team.memOk k) (d : W64) : Team.memOk (k.shift d) := h

theorem Ctx.memOk_shift {x : Ctx} (h : Ctx.memOk x) (d : W64) : Ctx.memOk (x.shift d) :=
  ⟨teamsOk_map h.1 _ fun _ hx => Team.memOk_shift hx d, launchesOk_map h.2 _ fun _ hx => hx⟩

theorem Ctx.memOk_still {x : Ctx} (h : Ctx.memOk x) : Ctx.memOk x.still := h

end Sys2Proof.Machine
end

