-- ==== Sys2Proof/Laws/KeepsKernel.lean ====
section
/-! SUPPORT. What is kept (Laws/Keeps.lean) by the shared operations of kernels, frames and synchronisation, and the instructions over them: one lemma for each operation. -/

namespace Sys2Proof.Machine

open Sys2Proof

/-! ### Ops -/

theorem State.modTeam_keeps' {s0 : State} (s : State) (t : Nat) (f : Team → Team) (hs : Keeps s0 s)
    (hf : s.MemOk → ∀ k, Team.memOk k → Team.memOk (f k)) : Keeps s0 (State.modTeam s t f) :=
  ⟨hs.pending, hs.part, hs.metal, fun m =>
    have h := hs.mem m
    ⟨h.stack, h.host, forall_mapPut _ _ _ h.teams (hf h _ (h.team t)), h.ctxs, h.snaps⟩⟩

theorem State.modTeam_keeps {s0 : State} (s : State) (t : Nat) (f : Team → Team) (hs : Keeps s0 s)
    (hf : ∀ k, Team.memOk k → Team.memOk (f k)) : Keeps s0 (State.modTeam s t f) :=
  State.modTeam_keeps' s t f hs fun _ => hf

theorem State.modCore_keeps' {s0 : State} (s : State) (t q : Nat) (f : Core → Core) (hs : Keeps s0 s)
    (hf : s.MemOk → ∀ k, Core.memOk k → Core.memOk (f k)) : Keeps s0 (State.modCore s t q f) :=
  State.modTeam_keeps' s t _ hs fun h _ hk => Team.memOk_modCore hk q f (hf h)

theorem State.modCore_keeps {s0 : State} (s : State) (t q : Nat) (f : Core → Core) (hs : Keeps s0 s)
    (hf : ∀ k, Core.memOk k → Core.memOk (f k)) : Keeps s0 (State.modCore s t q f) :=
  State.modCore_keeps' s t q f hs fun _ => hf

theorem State.modKernel_keeps {s0 : State} (s : State) (t : Nat) (f : Kernel → Kernel) (hs : Keeps s0 s) :
    Keeps s0 (State.modKernel s t f) := State.modTeam_keeps s t _ hs fun _ h => h

theorem State.modCtx_keeps' {s0 : State} (s : State) (c : W32) (f : Ctx → Ctx) (hs : Keeps s0 s)
    (hf : s0.MemOk → s.MemOk → ∀ x, Ctx.memOk x → Ctx.memOk (f x)) : Keeps s0 (State.modCtx s c f) := by
  unfold State.modCtx
  split
  · rename_i x e
    exact ⟨hs.pending, hs.part, hs.metal, fun m =>
      have h := hs.mem m
      ⟨h.stack, h.host, h.teams, forall_mapPut _ _ _ h.ctxs (hf m h x (h.ctx e)), h.snaps⟩⟩
  · exact hs

theorem State.modCtx_keeps {s0 : State} (s : State) (c : W32) (f : Ctx → Ctx) (hs : Keeps s0 s)
    (hf : ∀ x, Ctx.memOk x → Ctx.memOk (f x)) : Keeps s0 (State.modCtx s c f) :=
  State.modCtx_keeps' s c f hs fun _ _ => hf

theorem State.bumpFree_keeps {s0 : State} (s : State) (hs : Keeps s0 s) :
    Keeps s0 (State.bumpFree s) := by
  unfold State.bumpFree
  with_reducible repeat' (first
    | assumption | (apply Keeps.upd; first | assumption) | dsimp only)

theorem State.launchFault_keeps {s0 : State} (s : State) (t q : Nat) (kind : FaultKind) (hs : Keeps s0 s) :
    Keeps s0 (State.launchFault s t q kind) := by
  unfold State.launchFault
  split
  · exact hs
  · refine Keeps.updMem _ (State.modCtx_keeps _ _ _ hs ?_) (h1 := State.MemOk.stack) (h2 := State.MemOk.host)
      (h3 := ?_) (h4 := State.MemOk.ctxs) (h5 := State.MemOk.snaps) ..
    · exact fun x h => ⟨h.1, launchesOk_modWhere h.2 _ _ fun _ hl => hl⟩
    · exact fun m => teamsOk_map m.teams _ fun _ hx => hx

theorem State.nextPc_keeps {s0 : State} (s : State) (t : Nat) (hs : Keeps s0 s) :
    Keeps s0 (State.nextPc s t) := by
  unfold State.nextPc
  with_reducible repeat' (first
    | assumption | apply State.modKernel_keeps)

theorem State.writeStack_keeps {s0 : State} (s : State) (cells : List (Nat × Byte)) (hs : Keeps s0 s) :
    Keeps s0 (State.writeStack s cells) :=
  ⟨hs.pending, hs.part, hs.metal, fun m =>
    have h := hs.mem m
    ⟨Memory.wf_cells cells _ h.stack, h.host, h.teams, h.ctxs, h.snaps⟩⟩

theorem State.writeStackAt_keeps {s0 : State} (s : State) (a : Nat) (bytes : List Byte) (hs : Keeps s0 s) :
    Keeps s0 (State.writeStackAt s a bytes) := by
  unfold State.writeStackAt
  with_reducible repeat' (first
    | assumption | apply State.writeStack_keeps)

theorem State.setMemAt_keeps {s0 : State} (s : State) (p : Place) (m : Memory) (hs : Keeps s0 s)
    (hm : s.MemOk → Memory.wf m = true) : Keeps s0 (State.setMemAt s p m) := by
  unfold State.setMemAt
  split
  · exact State.modCore_keeps' _ _ _ _ hs fun h _ _ => hm h
  · exact State.modTeam_keeps' _ _ _ hs fun h _ hk => ⟨hm h, hk.2⟩
  · exact ⟨hs.pending, hs.part, hs.metal, fun m =>
      have h := hs.mem m
      ⟨hm h, h.host, h.teams, h.ctxs, h.snaps⟩⟩

/-- What lies at a place is in canonical form. -/
theorem State.MemOk.memAt {s : State} (h : s.MemOk) (p : Place) : Memory.wf (s.memAt p) = true := by
  cases p with
  | core t q => exact h.core t q
  | cluster t => exact (h.team t).1
  | stack => exact h.stack

theorem State.store_keeps {s0 : State} (s : State) (a : Accessor) (p : Place) (cells : List (Nat × Byte)) (hs : Keeps s0 s) :
    Keeps s0 (State.store s a p cells) := by
  have hc : ∀ l : List (Nat × Byte), s.MemOk → Memory.wf (l.foldl (fun m c => memSet m c.1 c.2) (s.memAt p)) = true :=
    fun l h => Memory.wf_cells l _ (h.memAt p)
  cases p <;> unfold State.store <;> dsimp only <;> split
  · exact State.setMemAt_keeps _ _ _ hs (hc _)
  · exact Keeps.upd _ (State.setMemAt_keeps _ _ _ hs (hc _)) ..
  · exact State.setMemAt_keeps _ _ _ hs (hc _)
  · exact Keeps.upd _ (State.setMemAt_keeps _ _ _ hs (hc _)) ..
  · exact State.writeStack_keeps _ _ hs
  · exact Keeps.upd _ (State.writeStack_keeps _ _ hs) ..

theorem State.addEvents_keeps {s0 : State} (s : State) (t : Nat) (e : Events) (hs : Keeps s0 s) :
    Keeps s0 (State.addEvents s t e) := by
  unfold State.addEvents
  with_reducible repeat' (first
    | assumption | intro _ | apply State.modCtx_keeps
    | exact ⟨And.left (by assumption), launchesOk_modWhere (And.right (by assumption)) _ _ fun _ h => h⟩ | split
    | dsimp only)

theorem State.writeStatus_keeps {s0 : State} (s : State) (t q : Nat) (w : LumfyWord) (e : Events) (team : Bool)
    (hs : Keeps s0 s) :
    Keeps s0 (State.writeStatus s t q w e team) := by
  unfold State.writeStatus
  with_reducible repeat' (first
    | assumption | intro _ | apply State.modCore_keeps | apply State.store_keeps | apply Keeps.ite
    | apply Team.memOk_modCore | split | dsimp only)

theorem State.finish_keeps {s0 : State} (s : State) (t q : Nat) (w : LumfyWord) (e : Events) (team : Bool := false)
    (hs : Keeps s0 s) :
    Keeps s0 (State.finish s t q w e team) := by
  unfold State.finish
  with_reducible repeat' (first
    | assumption | apply State.addEvents_keeps | apply State.writeStatus_keeps)

theorem State.apply_keeps {s0 : State} (s : State) (t q : Nat) (w : LumfyWord) (reg : Option Nat) (fx : Fx) (hs : Keeps s0 s) :
    Keeps s0 (State.apply s t q w reg fx) := by
  have h : Keeps s0 (s.modCore t q fun _ => { fx.core with mem := (s.core t q).mem }) :=
    State.modCore_keeps' _ _ _ _ hs fun h _ _ => h.core t q
  unfold State.apply
  dsimp only
  split
  · exact State.launchFault_keeps _ _ _ _ (State.finish_keeps _ _ _ _ _ _ (State.store_keeps _ _ _ _ h))
  · exact State.finish_keeps _ _ _ _ _ _ (State.store_keeps _ _ _ _ h)

/-! ### Events -/

theorem State.modFn_keeps {s0 : State} (s : State) (f : Nat) (g : Fn → Fn) (hs : Keeps s0 s) :
    Keeps s0 (State.modFn s f g) := by
  unfold State.modFn
  with_reducible repeat' (first
    | assumption | (apply Keeps.upd; first | assumption) | dsimp only)

theorem State.pulse_keeps {s0 : State} (s : State) (src : Nat) (hs : Keeps s0 s) :
    Keeps s0 (State.pulse s src) := by
  unfold State.pulse
  with_reducible repeat' (first
    | assumption | apply Keeps.ite | split | (apply Keeps.upd; first | assumption) | dsimp only)

theorem State.sendMessage_keeps {s0 : State} (s : State) (f : Nat) (hs : Keeps s0 s) :
    Keeps s0 (State.sendMessage s f) := by
  unfold State.sendMessage
  with_reducible repeat' (first
    | assumption | intro _ | apply State.modFn_keeps | apply Keeps.ite | split
    | (apply Keeps.upd; first | assumption | apply State.modFn_keeps) | dsimp only)

theorem State.sendPending_keeps {s0 : State} (s : State) (f : Nat) (hs : Keeps s0 s) :
    Keeps s0 (State.sendPending s f) := by
  unfold State.sendPending
  with_reducible repeat' (first
    | assumption | intro _ | apply State.modFn_keeps | apply State.sendMessage_keeps | apply Keeps.ite | split
    | dsimp only)

theorem State.refresh_keeps {s0 : State} (s : State) (f : Nat) (hs : Keeps s0 s) :
    Keeps s0 (State.refresh s f) := by
  unfold State.refresh
  with_reducible repeat' (first
    | assumption | intro _ | apply State.modFn_keeps | apply State.sendMessage_keeps | apply Keeps.ite | split
    | dsimp only)

theorem State.evalFn_keeps {s0 : State} (s : State) (hits : List Nat) (f : Nat) (hs : Keeps s0 s) :
    Keeps s0 (State.evalFn s hits f) := by
  unfold State.evalFn
  with_reducible repeat' (first
    | assumption | intro _ | apply State.modFn_keeps | apply State.refresh_keeps | apply Keeps.ite | split
    | dsimp only)

theorem State.evalMc_keeps {s0 : State} (s : State) (hits : List Nat) (i : Nat) (hs : Keeps s0 s) :
    Keeps s0 (State.evalMc s hits i) := by
  unfold State.evalMc
  with_reducible repeat' (first
    | assumption | intro _ | apply Keeps.ite | split | (apply Keeps.upd; first | assumption) | dsimp only)

theorem State.endTick_keeps {s0 : State} (s : State) (hs : Keeps s0 s) :
    Keeps s0 (State.endTick s) := by
  unfold State.endTick
  with_reducible repeat' (first
    | assumption | intro _ | apply State.sendPending_keeps | apply Keeps.foldl
    | (apply Keeps.upd; first | assumption) | dsimp only)

theorem State.countEdges_keeps {s0 : State} (s : State) (rising : List Nat) (hs : Keeps s0 s) :
    Keeps s0 (State.countEdges s rising) := by
  unfold State.countEdges
  exact Keeps.upd _ hs ..

theorem State.evalIrq_keeps {s0 : State} (s : State) (hs : Keeps s0 s) :
    Keeps s0 (State.evalIrq s) := by
  unfold State.evalIrq
  with_reducible repeat' (first
    | assumption | intro _ | apply State.evalFn_keeps | apply State.evalMc_keeps | apply State.endTick_keeps
    | apply Keeps.foldl | apply Keeps.ite | split
    | (apply Keeps.upd; first | assumption | apply State.countEdges_keeps) | dsimp only)

theorem State.writeReply_keeps {s0 : State} (s : State) (f : Nat) (hs : Keeps s0 s) : Keeps s0 (State.writeReply s f) := by
  unfold State.writeReply
  extract_lets k
  split
  · exact hs
  · split
    · exact hs
    · refine Keeps.ite _ (State.pulse_keeps _ _ ?_) ?_
      all_goals
        refine State.modFn_keeps _ _ _ (Keeps.updMem _ hs (h1 := State.MemOk.stack)
          (h2 := fun m => Memory.wf_memWrite _ _ _ m.host) (h3 := State.MemOk.teams) (h4 := State.MemOk.ctxs)
          (h5 := State.MemOk.snaps) ..)

theorem State.flushReplies_keeps {s0 : State} (s : State) (f : Nat) (hs : Keeps s0 s) :
    Keeps s0 (State.flushReplies s f) := by
  unfold State.flushReplies
  with_reducible repeat' (first
    | assumption | intro _ | apply State.writeReply_keeps | apply Keeps.foldl | dsimp only)

theorem State.pushReply_keeps {s0 : State} (s : State) (f : Nat) (r : Reply) (hs : Keeps s0 s) :
    Keeps s0 (State.pushReply s f r) := by
  unfold State.pushReply
  with_reducible repeat' (first
    | assumption | apply State.modFn_keeps | apply State.flushReplies_keeps)

theorem State.answer_keeps {s0 : State} (s : State) (who status : Nat) (data : List Byte) (hs : Keeps s0 s) :
    Keeps s0 (State.answer s who status data) := by
  unfold State.answer
  with_reducible repeat' (first
    | assumption | (apply Keeps.upd; first | assumption) | dsimp only)

/-! ### Registers -/

theorem State.clearRc_keeps {s0 : State} (s : State) (who off : Nat) (lo hi : W32) (hs : Keeps s0 s) :
    Keeps s0 (State.clearRc s who off lo hi) := by
  unfold State.clearRc
  with_reducible repeat' (first
    | assumption | intro _ | apply State.modFn_keeps | apply Keeps.ite | split
    | (apply Keeps.upd; first | assumption) | dsimp only)

theorem State.readBank_keeps {s0 : State} (s : State) (who off : Nat) (hs : Keeps s0 s) :
    Keeps s0 (State.readBank s who off) := by
  unfold State.readBank
  with_reducible repeat' (first
    | assumption | intro _ | apply State.modFn_keeps | apply Keeps.ite | split | dsimp only)

theorem State.setShadow_keeps {s0 : State} (s : State) (who : Nat) (v : Option (Nat × W32)) (hs : Keeps s0 s) :
    Keeps s0 (State.setShadow s who v) := by
  unfold State.setShadow
  with_reducible repeat' (first
    | assumption | intro _ | apply State.modFn_keeps | apply Keeps.ite | split
    | (apply Keeps.upd; first | assumption) | dsimp only)

theorem State.read64Reg_keeps {s0 : State} (s : State) (who off : Nat) (v : W64) (hs : Keeps s0 s) :
    Keeps s0 (State.read64Reg s who off v) := by
  unfold State.read64Reg
  with_reducible repeat' (first
    | assumption | apply State.clearRc_keeps | apply State.readBank_keeps)

theorem State.readLow_keeps {s0 : State} (s : State) (who off : Nat) (v : W64) (hs : Keeps s0 s) :
    Keeps s0 (State.readLow s who off v) := by
  unfold State.readLow
  with_reducible repeat' (first
    | assumption | apply State.clearRc_keeps | apply State.readBank_keeps | apply State.setShadow_keeps)

theorem State.readHigh_keeps {s0 : State} (s : State) (who off : Nat) (v : W64) (hs : Keeps s0 s) :
    Keeps s0 (State.readHigh s who off v).2 := by
  unfold State.readHigh
  with_reducible repeat' (first
    | assumption | apply State.clearRc_keeps | apply State.setShadow_keeps | apply Keeps.ite | split | dsimp only)

theorem State.drop_keeps {s0 : State} (s : State) (f : Nat) (bar2 : Bool) (off : Nat) (hs : Keeps s0 s) :
    Keeps s0 (State.drop s f bar2 off) := by
  unfold State.drop
  with_reducible repeat' (first
    | assumption | apply Keeps.ite | split | (apply Keeps.upd; first | assumption) | dsimp only)

/-! ### FabricOps -/

theorem State.modFabric_keeps {s0 : State} (s : State) (f : Fabric → Fabric) (hs : Keeps s0 s) :
    Keeps s0 (State.modFabric s f) := by
  unfold State.modFabric
  with_reducible repeat' (first
    | assumption | (apply Keeps.upd; first | assumption) | dsimp only)

theorem State.modStats_keeps {s0 : State} (s : State) (f : FabricStats → FabricStats) (hs : Keeps s0 s) :
    Keeps s0 (State.modStats s f) := by
  unfold State.modStats
  with_reducible repeat' (first
    | assumption | apply State.modFabric_keeps)

theorem State.emitOut_keeps {s0 : State} (s : State) (o : Out) (hs : Keeps s0 s) :
    Keeps s0 (State.emitOut s o) := by
  unfold State.emitOut
  with_reducible repeat' (first
    | assumption | apply State.modFabric_keeps)

theorem State.park_keeps {s0 : State} (s : State) (header payload : List Byte) (reason : Nat) (port : W16)
    (hs : Keeps s0 s) :
    Keeps s0 (State.park s header payload reason port) := by
  unfold State.park
  with_reducible repeat' (first
    | assumption | intro _ | apply State.modStats_keeps | apply State.pulse_keeps | apply Keeps.ite | split
    | dsimp only)

theorem State.chargeLink_keeps {s0 : State} (s : State) (f n : Nat) (hs : Keeps s0 s) :
    Keeps s0 (State.chargeLink s f n) := by
  unfold State.chargeLink
  with_reducible repeat' (first
    | assumption | apply State.modFn_keeps)

theorem State.transmit_keeps {s0 : State} (s : State) (f : Frame) (hs : Keeps s0 s) :
    Keeps s0 (State.transmit s f) := by
  unfold State.transmit
  with_reducible repeat' (first
    | assumption | intro _ | apply State.emitOut_keeps | apply State.chargeLink_keeps | apply State.modFabric_keeps
    | split | dsimp only)

theorem State.newFrame_keeps {s0 : State} (s : State) (src dest : W16) (cls kind status : Nat) (c : W32)
    (payload : List Byte) (hs : Keeps s0 s) :
    Keeps s0 (State.newFrame s src dest cls kind status c payload).2 := by
  unfold State.newFrame
  with_reducible repeat' (first
    | assumption | apply State.modFabric_keeps)

theorem State.sendFrame_keeps {s0 : State} (s : State) (src dest : W16) (cls kind status : Nat) (c : W32)
    (payload : List Byte) (hs : Keeps s0 s) :
    Keeps s0 (State.sendFrame s src dest cls kind status c payload).1 := by
  unfold State.sendFrame
  with_reducible repeat' (first
    | assumption | apply State.newFrame_keeps | apply State.transmit_keeps | apply State.park_keeps
    | apply Keeps.ite | apply Keeps.ite_fst | refine Keeps.of_fst (by assumption) ?_ | split | dsimp only)

theorem State.returnFrame_keeps {s0 : State} (s : State) (f : Frame) (port : W16) (hs : Keeps s0 s) :
    Keeps s0 (State.returnFrame s f port) := by
  unfold State.returnFrame
  with_reducible repeat' (first
    | assumption | intro _ | apply State.modStats_keeps | apply State.transmit_keeps | apply State.park_keeps
    | apply Keeps.ite | split | dsimp only)

theorem State.forward_keeps {s0 : State} (s : State) (f : Frame) (port : W16) (hs : Keeps s0 s) :
    Keeps s0 (State.forward s f port) := by
  unfold State.forward
  with_reducible repeat' (first
    | assumption | apply State.park_keeps | apply State.transmit_keeps | apply Keeps.ite | split | dsimp only)

theorem State.holdAsleep_keeps {s0 : State} (s : State) (a : Asleep) (hs : Keeps s0 s) :
    Keeps s0 (State.holdAsleep s a) := by
  unfold State.holdAsleep
  with_reducible repeat' (first
    | assumption | intro _ | apply State.modFabric_keeps
    | (apply Keeps.upd; first | assumption | apply State.modFabric_keeps) | dsimp only)

/-! ### SyncOps -/

theorem State.modSaved_keeps {s0 : State} (s : State) (c : W32) (t : Nat) (f : Team → Team) (hs : Keeps s0 s)
    (hf : ∀ k, Team.memOk k → Team.memOk (f k)) : Keeps s0 (State.modSaved s c t f) := by
  refine State.modCtx_keeps _ _ _ hs fun x hx => ?_
  split
  · rename_i k e
    exact ⟨teamsOk_put hx.1 _ (hf _ (forall_mapGet _ _ _ hx.1 e)), hx.2⟩
  · exact hx

theorem State.deliver_keeps {s0 : State} (s : State) (t q tag : Nat) (v : W64) (hs : Keeps s0 s) :
    Keeps s0 (State.deliver s t q tag v) := by
  unfold State.deliver
  split
  · exact State.modCore_keeps _ _ _ _ hs fun _ h => Core.memOk_answer h _ _
  · split
    · exact State.modSaved_keeps _ _ _ _ hs fun _ h => Team.memOk_modCore h _ _ fun _ hc => Core.memOk_answer hc _ _
    · exact hs

theorem State.await_keeps {s0 : State} (s : State) (t q : Nat) (a : Awaited) (hs : Keeps s0 s) :
    Keeps s0 (State.await s t q a) := by
  unfold State.await
  with_reducible repeat' (first
    | assumption | intro _ | apply State.modCore_keeps | apply Team.memOk_modCore | dsimp only)

theorem State.withdrawRemote_keeps {s0 : State} (s : State) (mine : Remote → Bool) (hs : Keeps s0 s) :
    Keeps s0 (State.withdrawRemote s mine) := by
  unfold State.withdrawRemote
  with_reducible repeat' (first
    | assumption | intro _ | apply State.sendFrame_keeps | apply State.modFabric_keeps | apply Keeps.foldl
    | apply Keeps.foldl_fst | refine Keeps.of_fst (by assumption) ?_ | split | dsimp only)

theorem State.complete_keeps {s0 : State} (s : State) (t q : Nat) (w : LumfyWord) (v : W64) (hs : Keeps s0 s) :
    Keeps s0 (State.complete s t q w v) := by
  unfold State.complete
  with_reducible repeat' (first
    | assumption | intro _ | apply State.modCore_keeps | apply Keeps.ite | apply Core.memOk_putD
    | apply Team.memOk_modCore | split | dsimp only)

theorem State.settleTeam_keeps {s0 : State} (s : State) (t : Nat) (hs : Keeps s0 s) :
    Keeps s0 (State.settleTeam s t) := by
  unfold State.settleTeam
  split
  · exact hs
  · split
    · refine State.withdrawRemote_keeps _ _ (Keeps.updMem _ hs (h1 := State.MemOk.stack) (h2 := State.MemOk.host)
        (h3 := fun m => teamsOk_map m.teams _ fun x hx => ⟨hx.1, ?_⟩) (h4 := State.MemOk.ctxs)
        (h5 := State.MemOk.snaps) ..)
      dsimp only
      split
      · exact coresOk_map hx.2 _ fun _ hc => Core.memOk_dropExternal hc
      · exact hx.2
    · exact hs

theorem State.faultNow_keeps {s0 : State} (s : State) (t q : Nat) (kind : FaultKind) (hs : Keeps s0 s) :
    Keeps s0 (State.faultNow s t q kind) := by
  unfold State.faultNow
  with_reducible repeat' (first
    | assumption | apply State.launchFault_keeps | apply State.settleTeam_keeps)

theorem State.faultSaved_keeps {s0 : State} (s : State) (c : W32) (t q : Nat) (kind : FaultKind) (hs : Keeps s0 s) :
    Keeps s0 (State.faultSaved s c t q kind) := by
  refine State.modCtx_keeps _ _ _ hs fun x hx => ?_
  split
  · exact hx
  · refine ⟨teamsOk_map hx.1 _ fun y hy => ?_, launchesOk_modWhere hx.2 _ _ fun _ hl => hl⟩
    dsimp only
    split
    · exact ⟨hy.1, coresOk_map hy.2 _ fun _ hc => Core.memOk_dropExternal hc⟩
    · exact hy

theorem State.deliverFault_keeps {s0 : State} (s : State) (t q tag : Nat) (v : W64) (kind : FaultKind)
    (hs : Keeps s0 s) :
    Keeps s0 (State.deliverFault s t q tag v kind) := by
  unfold State.deliverFault
  with_reducible repeat' (first
    | assumption | apply State.deliver_keeps | apply State.faultNow_keeps | apply State.faultSaved_keeps
    | apply Keeps.ite | split | dsimp only)

theorem State.addEventsFor_keeps {s0 : State} (s : State) (c : W32) (t : Nat) (e : Events) (hs : Keeps s0 s) :
    Keeps s0 (State.addEventsFor s c t e) := by
  unfold State.addEventsFor
  with_reducible repeat' (first
    | assumption | intro _ | apply State.modCtx_keeps
    | exact ⟨And.left (by assumption), launchesOk_modWhere (And.right (by assumption)) _ _ fun _ h => h⟩
    | dsimp only)

theorem State.setWatches_keeps {s0 : State} (s : State) (u : SyncUnit) (l : List Watch) (hs : Keeps s0 s) :
    Keeps s0 (State.setWatches s u l) := by
  unfold State.setWatches
  with_reducible repeat' (first
    | assumption | intro _ | apply State.modTeam_keeps | split | (apply Keeps.upd; first | assumption) | dsimp only)

theorem State.setWaiting_keeps {s0 : State} (s : State) (u : SyncUnit) (l : List Watch) (hs : Keeps s0 s) :
    Keeps s0 (State.setWaiting s u l) := by
  unfold State.setWaiting
  with_reducible repeat' (first
    | assumption | intro _ | apply State.modTeam_keeps | split | (apply Keeps.upd; first | assumption) | dsimp only)

theorem State.setObj_keeps {s0 : State} (s : State) (u : SyncUnit) (i : Nat) (o : SyncObj) (hs : Keeps s0 s) :
    Keeps s0 (State.setObj s u i o) := by
  unfold State.setObj
  with_reducible repeat' (first
    | assumption | intro _ | apply State.modTeam_keeps | split | (apply Keeps.upd; first | assumption) | dsimp only)

theorem State.replyTo_keeps {s0 : State} (s : State) (whom : ReplyTo) (code : Nat) (v : W64) (hs : Keeps s0 s) :
    Keeps s0 (State.replyTo s whom code v) := by
  unfold State.replyTo
  with_reducible repeat' (first
    | assumption | apply State.deliver_keeps | apply State.sendFrame_keeps | refine Keeps.of_fst (by assumption) ?_
    | split | dsimp only)

theorem State.replyLost_keeps {s0 : State} (s : State) (whom : ReplyTo) (value : Nat) (hs : Keeps s0 s) :
    Keeps s0 (State.replyLost s whom value) := by
  unfold State.replyLost
  with_reducible repeat' (first
    | assumption | apply State.deliverFault_keeps | apply State.replyTo_keeps | split | dsimp only)

theorem State.evaluate_keeps {s0 : State} (s : State) (u : SyncUnit) (i : Nat) (hs : Keeps s0 s) :
    Keeps s0 (State.evaluate s u i) := by
  unfold State.evaluate
  with_reducible repeat' (first
    | assumption | intro _ | apply State.setObj_keeps | apply State.setWatches_keeps | apply State.replyTo_keeps
    | apply Keeps.foldl | dsimp only)

theorem State.enter_keeps {s0 : State} (s : State) (u : SyncUnit) (w : Watch) (hs : Keeps s0 s) :
    Keeps s0 (State.enter s u w) := by
  unfold State.enter
  with_reducible repeat' (first
    | assumption | apply State.replyLost_keeps | apply State.setWatches_keeps | apply State.evaluate_keeps
    | apply Keeps.ite | split | dsimp only)

theorem State.admitWaiting_keeps {s0 : State} : ∀ (n : Nat) (a : SyncUnit) (s : State), Keeps s0 s → Keeps s0 (State.admitWaiting n a s) := by
  intro n
  induction n with
  | zero => intro a s h; exact h
  | succ n ih =>
    intro a s h
    unfold State.admitWaiting
    with_reducible repeat' (first
      | assumption | apply ih | apply State.setWaiting_keeps | apply State.enter_keeps | apply Keeps.ite | split
      | dsimp only)

theorem State.admit_keeps {s0 : State} : ∀ (n : Nat) (a : SyncUnit) (s : State), Keeps s0 s → Keeps s0 (State.admitWaiting n a s) := by
  intro n
  induction n with
  | zero => intro a s h; exact h
  | succ n ih =>
    intro a s h
    unfold State.admitWaiting
    with_reducible repeat' (first
      | assumption | intro _ | apply ih | apply State.setWaiting_keeps | apply State.enter_keeps | apply Keeps.ite
      | apply Keeps.ite_fst | split | dsimp only)

theorem State.admitAll_keeps {s0 : State} (s : State) (u : SyncUnit) (hs : Keeps s0 s) :
    Keeps s0 (State.admitAll s u) := by
  unfold State.admitAll
  with_reducible repeat' (first
    | assumption | apply State.admit_keeps)

theorem State.admitOnce_keeps {s0 : State} (s : State) (hs : Keeps s0 s) :
    Keeps s0 (State.admitOnce s) := by
  unfold State.admitOnce
  with_reducible repeat' (first
    | assumption | intro _ | apply State.admitAll_keeps | apply Keeps.foldl | dsimp only)

theorem State.admitUnits_keeps {s0 : State} (s : State) (hs : Keeps s0 s) :
    Keeps s0 (State.admitUnits s) :=
  Keeps.foldl _ _ _ hs fun s _ h => State.admitOnce_keeps s h

theorem State.settle_keeps {s0 : State} (s : State) (t : Nat) (hs : Keeps s0 s) :
    Keeps s0 (State.settle s t) := by
  unfold State.settle
  with_reducible repeat' (first
    | assumption | apply State.settleTeam_keeps | apply State.admitUnits_keeps | apply Keeps.ite | split
    | dsimp only)

theorem State.register_keeps {s0 : State} (s : State) (u : SyncUnit) (w : Watch) (hs : Keeps s0 s) :
    Keeps s0 (State.register s u w) := by
  unfold State.register
  with_reducible repeat' (first
    | assumption | apply State.enter_keeps | apply State.setWaiting_keeps | apply Keeps.ite | split | dsimp only)

theorem State.signal_keeps {s0 : State} (s : State) (u : SyncUnit) (i : Nat) (n : Int) (hs : Keeps s0 s) :
    Keeps s0 (State.signal s u i n).1 := by
  unfold State.signal
  with_reducible repeat' (first
    | assumption | apply State.setObj_keeps | apply State.evaluate_keeps | apply State.admitUnits_keeps
    | apply Keeps.ite | apply Keeps.ite_fst | split | dsimp only)

theorem State.initCounter_keeps {s0 : State} (s : State) (u : SyncUnit) (i v : Nat) (hs : Keeps s0 s) :
    Keeps s0 (State.initCounter s u i v) := by
  unfold State.initCounter
  with_reducible repeat' (first
    | assumption | apply State.setObj_keeps | apply State.evaluate_keeps | apply State.admitUnits_keeps)

theorem State.poison_keeps {s0 : State} (s : State) (u : SyncUnit) (i : Nat) (hs : Keeps s0 s) :
    Keeps s0 (State.poison s u i).1 := by
  unfold State.poison
  with_reducible repeat' (first
    | assumption | intro _ | apply State.setObj_keeps | apply State.setWatches_keeps | apply State.replyLost_keeps
    | apply State.admitUnits_keeps | apply Keeps.foldl | apply Keeps.foldl_fst
    | (apply Keeps.upd; first | assumption | apply State.setObj_keeps | apply State.setWatches_keeps | apply State.replyLost_keeps | apply State.admitUnits_keeps)
    | dsimp only)

theorem State.issue_keeps {s0 : State} (s : State) (t : Nat) (w : LumfyWord) (f : State → Nat → State)
    (hs : Keeps s0 s) (hf : ∀ s' x0, Keeps s0 s' → Keeps s0 (f s' x0)) :
    Keeps s0 (State.issue s t w f) := by
  unfold State.issue
  with_reducible repeat' (first
    | assumption | intro _ | apply hf | apply State.bumpFree_keeps | apply State.nextPc_keeps
    | apply State.settle_keeps | apply Keeps.foldl | apply Keeps.ite | split | dsimp only)

theorem State.issueRegs_keeps {s0 : State} (s : State) (t : Nat) (w : LumfyWord) (f : Core → Core) (hs : Keeps s0 s)
    (hf : ∀ k, Core.memOk k → Core.memOk (f k)) : Keeps s0 (State.issueRegs s t w f) :=
  State.issue_keeps s t w _ hs fun s' q h => State.modCore_keeps s' t q f h hf

theorem State.notActed_keeps {s0 : State} (s : State) (t q : Nat) (w : LumfyWord) (hs : Keeps s0 s) :
    Keeps s0 (State.notActed s t q w) := by
  unfold State.notActed
  with_reducible repeat' (first
    | assumption | apply State.finish_keeps)

theorem State.zeroD_keeps {s0 : State} (s : State) (t q : Nat) (w : LumfyWord) (hs : Keeps s0 s) :
    Keeps s0 (State.zeroD s t q w) := by
  unfold State.zeroD
  with_reducible repeat' (first
    | assumption | apply State.complete_keeps | apply State.notActed_keeps)

theorem State.markExternal_keeps {s0 : State} (s : State) (t : Nat) (hs : Keeps s0 s) :
    Keeps s0 (State.markExternal s t) := by
  unfold State.markExternal
  with_reducible repeat' (first
    | assumption | intro _ | apply State.modCtx_keeps
    | exact ⟨And.left (by assumption), launchesOk_modWhere (And.right (by assumption)) _ _ fun _ h => h⟩ | split
    | dsimp only)

theorem State.sendOp_keeps {s0 : State} (s : State) (c : W32) (t q : Nat) (dest : W16) (kind : Nat)
    (payload : List Byte) (work : RemoteWork) (onFail : State → State) (hs : Keeps s0 s)
    (honFail : ∀ s' , Keeps s0 s' → Keeps s0 (onFail s' )) :
    Keeps s0 (State.sendOp s c t q dest kind payload work onFail) := by
  unfold State.sendOp
  with_reducible repeat' (first
    | assumption | intro _ | apply honFail | apply State.markExternal_keeps | apply State.sendFrame_keeps
    | apply State.modFabric_keeps | apply Keeps.ite | apply Keeps.ite_fst | refine Keeps.of_fst (by assumption) ?_
    | split | dsimp only)

theorem State.faultLaunch_keeps {s0 : State} (s : State) (c : W32) (seq : W64) (t : Nat) (kind : FaultKind)
    (hs : Keeps s0 s) : Keeps s0 (State.faultLaunch s c seq t kind) := by
  unfold State.faultLaunch
  extract_lets f first mine stop quiet s1
  have hstop : ∀ k, Team.memOk k → Team.memOk (stop k) := fun k h => by
    show Team.memOk (if mine k then _ else k); split <;> exact h
  have hquiet : ∀ k, Team.memOk k → Team.memOk (quiet k) := fun k h => by
    show Team.memOk (if mine k then _ else k)
    split
    · exact ⟨h.1, coresOk_map h.2 _ fun _ hc => Core.memOk_dropExternal hc⟩
    · exact h
  have h1 : Keeps s0 s1 := State.modCtx_keeps _ _ _ hs fun x h =>
    ⟨teamsOk_map h.1 _ fun k hk => hquiet _ (hstop _ hk), launchesOk_modWhere h.2 _ _ fun _ h => h⟩
  exact Keeps.updMem _ h1 (h1 := State.MemOk.stack) (h2 := State.MemOk.host)
    (h3 := fun m => teamsOk_map m.teams _ fun k hk => hstop _ hk) (h4 := State.MemOk.ctxs) (h5 := State.MemOk.snaps) ..

theorem State.unitFault_keeps {s0 : State} (s : State) (t : Nat) (c : W32) (kind : FaultKind) (hs : Keeps s0 s) :
    Keeps s0 (State.unitFault s t c kind) := by
  unfold State.unitFault
  with_reducible repeat' (first
    | assumption | intro _ | apply State.faultNow_keeps | apply State.faultSaved_keeps | apply State.faultLaunch_keeps
    | apply State.admitUnits_keeps | apply State.settleTeam_keeps | apply State.modTeam_keeps
    | apply State.modSaved_keeps | apply Keeps.foldl | apply Keeps.ite | split | dsimp only)

theorem State.signalDone_keeps {s0 : State} (s : State) (t : Nat) (c : W32) (h : W64) (hs : Keeps s0 s) :
    Keeps s0 (State.signalDone s t c h) := by
  unfold State.signalDone
  with_reducible repeat' (first
    | assumption | intro _ | apply State.signal_keeps | apply State.unitFault_keeps | apply State.sendOp_keeps
    | apply State.addEventsFor_keeps | refine Keeps.of_fst (by assumption) ?_ | split | dsimp only)

/-! ### Scalar -/

theorem State.control_keeps {s0 : State} (s : State) (t : Nat) (w : LumfyWord) (f : Kernel → Kernel)
    (hs : Keeps s0 s) :
    Keeps s0 (State.control s t w f) := by
  unfold State.control
  with_reducible repeat' (first
    | assumption | apply State.bumpFree_keeps | apply State.modKernel_keeps | apply Keeps.ite | split | dsimp only)

theorem execNopInstruction_keeps (team : Nat) (x : Args) (s : State) (t : State)
    (h : execNopInstruction team x s = .next t) : Keeps s t := by
  cases h
  with_reducible repeat' (first
    | assumption | exact Keeps.rfl' _ | intro _ | apply State.issueRegs_keeps | dsimp only)

theorem execEndI_keeps (team : Nat) (x : Args) (s : State) (t : State)
    (h : execEndI team x s = .next t) : Keeps s t := by
  cases h
  with_reducible repeat' (first
    | assumption | exact Keeps.rfl' _ | apply State.control_keeps)

theorem execBr_keeps (team : Nat) (x : Args) (s : State) (t : State)
    (h : execBr team x s = .next t) : Keeps s t := by
  cases h
  with_reducible repeat' (first
    | assumption | exact Keeps.rfl' _ | apply State.control_keeps)

theorem execBrAny_keeps (team : Nat) (x : Args) (s : State) (t : State)
    (h : execBrAny team x s = .next t) : Keeps s t := by
  cases h
  with_reducible repeat' (first
    | assumption | exact Keeps.rfl' _ | apply State.control_keeps)

theorem execBrAll_keeps (team : Nat) (x : Args) (s : State) (t : State)
    (h : execBrAll team x s = .next t) : Keeps s t := by
  cases h
  with_reducible repeat' (first
    | assumption | exact Keeps.rfl' _ | apply State.control_keeps)

theorem execLoop_keeps (team : Nat) (x : Args) (s : State) (t : State)
    (h : execLoop team x s = .next t) : Keeps s t := by
  cases h
  with_reducible repeat' (first
    | assumption | exact Keeps.rfl' _ | apply State.control_keeps)

theorem execEndloop_keeps (team : Nat) (x : Args) (s : State) (t : State)
    (h : execEndloop team x s = .next t) : Keeps s t := by
  cases h
  with_reducible repeat' (first
    | assumption | exact Keeps.rfl' _ | apply State.control_keeps)

theorem execStatptr_keeps (team : Nat) (x : Args) (s : State) (t : State)
    (h : execStatptr team x s = .next t) : Keeps s t := by
  cases h
  with_reducible repeat' (first
    | assumption | exact Keeps.rfl' _ | intro _ | apply State.issue_keeps | apply State.modCore_keeps
    | apply State.finish_keeps | apply Keeps.ite | apply Team.memOk_modCore | split | dsimp only)

theorem execPmread_keeps (team : Nat) (x : Args) (s : State) (t : State)
    (h : execPmread team x s = .next t) : Keeps s t := by
  cases h
  with_reducible repeat' (first
    | assumption | exact Keeps.rfl' _ | intro _ | apply State.issueRegs_keeps | apply Core.memOk_putD | dsimp only)

theorem execMov_keeps (team : Nat) (x : Args) (s : State) (t : State)
    (h : execMov team x s = .next t) : Keeps s t := by
  cases h
  with_reducible repeat' (first
    | assumption | exact Keeps.rfl' _ | intro _ | apply State.issueRegs_keeps | apply Core.memOk_putD | dsimp only)

theorem execMovhi_keeps (team : Nat) (x : Args) (s : State) (t : State)
    (h : execMovhi team x s = .next t) : Keeps s t := by
  cases h
  with_reducible repeat' (first
    | assumption | exact Keeps.rfl' _ | intro _ | apply State.issueRegs_keeps | apply Core.memOk_putD | dsimp only)

theorem execLdc_keeps (team : Nat) (x : Args) (s : State) (t : State)
    (h : execLdc team x s = .next t) : Keeps s t := by
  cases h
  with_reducible repeat' (first
    | assumption | exact Keeps.rfl' _ | intro _ | apply State.issueRegs_keeps | apply Core.memOk_putD | split
    | dsimp only)

theorem execLd_keeps (team : Nat) (x : Args) (s : State) (t : State)
    (h : execLd team x s = .next t) : Keeps s t := by
  cases h
  with_reducible repeat' (first
    | assumption | exact Keeps.rfl' _ | intro _ | apply State.issue_keeps | apply State.modCore_keeps
    | apply State.finish_keeps | apply Keeps.ite | apply Core.memOk_putD | apply Team.memOk_modCore | split
    | dsimp only)

theorem execSt_keeps (team : Nat) (x : Args) (s : State) (t : State)
    (h : execSt team x s = .next t) : Keeps s t := by
  cases h
  with_reducible repeat' (first
    | assumption | exact Keeps.rfl' _ | intro _ | apply State.issue_keeps | apply State.store_keeps
    | apply State.finish_keeps | split | dsimp only)

theorem execAdd_keeps (team : Nat) (x : Args) (s : State) (t : State)
    (h : execAdd team x s = .next t) : Keeps s t := by
  cases h
  with_reducible repeat' (first
    | assumption | exact Keeps.rfl' _ | intro _ | apply State.issueRegs_keeps | apply Core.memOk_putD | dsimp only)

theorem execSub_keeps (team : Nat) (x : Args) (s : State) (t : State)
    (h : execSub team x s = .next t) : Keeps s t := by
  cases h
  with_reducible repeat' (first
    | assumption | exact Keeps.rfl' _ | intro _ | apply State.issueRegs_keeps | apply Core.memOk_putD | dsimp only)

theorem execMul_keeps (team : Nat) (x : Args) (s : State) (t : State)
    (h : execMul team x s = .next t) : Keeps s t := by
  cases h
  with_reducible repeat' (first
    | assumption | exact Keeps.rfl' _ | intro _ | apply State.issueRegs_keeps | apply Core.memOk_putD | dsimp only)

theorem execMulhiS_keeps (team : Nat) (x : Args) (s : State) (t : State)
    (h : execMulhiS team x s = .next t) : Keeps s t := by
  cases h
  with_reducible repeat' (first
    | assumption | exact Keeps.rfl' _ | intro _ | apply State.issueRegs_keeps | apply Core.memOk_putD | dsimp only)

theorem execMulhiU_keeps (team : Nat) (x : Args) (s : State) (t : State)
    (h : execMulhiU team x s = .next t) : Keeps s t := by
  cases h
  with_reducible repeat' (first
    | assumption | exact Keeps.rfl' _ | intro _ | apply State.issueRegs_keeps | apply Core.memOk_putD | dsimp only)

theorem execDivU_keeps (team : Nat) (x : Args) (s : State) (t : State)
    (h : execDivU team x s = .next t) : Keeps s t := by
  cases h
  with_reducible repeat' (first
    | assumption | exact Keeps.rfl' _ | intro _ | apply State.issueRegs_keeps | apply Keeps.ite
    | apply Core.memOk_putD | split | dsimp only)

theorem execRemU_keeps (team : Nat) (x : Args) (s : State) (t : State)
    (h : execRemU team x s = .next t) : Keeps s t := by
  cases h
  with_reducible repeat' (first
    | assumption | exact Keeps.rfl' _ | intro _ | apply State.issueRegs_keeps | apply Keeps.ite
    | apply Core.memOk_putD | split | dsimp only)

theorem execAndI_keeps (team : Nat) (x : Args) (s : State) (t : State)
    (h : execAndI team x s = .next t) : Keeps s t := by
  cases h
  with_reducible repeat' (first
    | assumption | exact Keeps.rfl' _ | intro _ | apply State.issueRegs_keeps | apply Core.memOk_putD | dsimp only)

theorem execOrI_keeps (team : Nat) (x : Args) (s : State) (t : State)
    (h : execOrI team x s = .next t) : Keeps s t := by
  cases h
  with_reducible repeat' (first
    | assumption | exact Keeps.rfl' _ | intro _ | apply State.issueRegs_keeps | apply Core.memOk_putD | split
    | dsimp only)

theorem execXorI_keeps (team : Nat) (x : Args) (s : State) (t : State)
    (h : execXorI team x s = .next t) : Keeps s t := by
  cases h
  with_reducible repeat' (first
    | assumption | exact Keeps.rfl' _ | intro _ | apply State.issueRegs_keeps | apply Core.memOk_putD | dsimp only)

theorem execShl_keeps (team : Nat) (x : Args) (s : State) (t : State)
    (h : execShl team x s = .next t) : Keeps s t := by
  cases h
  with_reducible repeat' (first
    | assumption | exact Keeps.rfl' _ | intro _ | apply State.issueRegs_keeps | apply Core.memOk_putD | dsimp only)

theorem execShr_keeps (team : Nat) (x : Args) (s : State) (t : State)
    (h : execShr team x s = .next t) : Keeps s t := by
  cases h
  with_reducible repeat' (first
    | assumption | exact Keeps.rfl' _ | intro _ | apply State.issueRegs_keeps | apply Core.memOk_putD | dsimp only)

theorem execSar_keeps (team : Nat) (x : Args) (s : State) (t : State)
    (h : execSar team x s = .next t) : Keeps s t := by
  cases h
  with_reducible repeat' (first
    | assumption | exact Keeps.rfl' _ | intro _ | apply State.issueRegs_keeps | apply Core.memOk_putD | dsimp only)

theorem execMinS_keeps (team : Nat) (x : Args) (s : State) (t : State)
    (h : execMinS team x s = .next t) : Keeps s t := by
  cases h
  with_reducible repeat' (first
    | assumption | exact Keeps.rfl' _ | intro _ | apply State.issueRegs_keeps | apply Keeps.ite
    | apply Core.memOk_putD | split | dsimp only)

theorem execMinU_keeps (team : Nat) (x : Args) (s : State) (t : State)
    (h : execMinU team x s = .next t) : Keeps s t := by
  cases h
  with_reducible repeat' (first
    | assumption | exact Keeps.rfl' _ | intro _ | apply State.issueRegs_keeps | apply Keeps.ite
    | apply Core.memOk_putD | split | dsimp only)

theorem execMaxS_keeps (team : Nat) (x : Args) (s : State) (t : State)
    (h : execMaxS team x s = .next t) : Keeps s t := by
  cases h
  with_reducible repeat' (first
    | assumption | exact Keeps.rfl' _ | intro _ | apply State.issueRegs_keeps | apply Keeps.ite
    | apply Core.memOk_putD | split | dsimp only)

theorem execMaxU_keeps (team : Nat) (x : Args) (s : State) (t : State)
    (h : execMaxU team x s = .next t) : Keeps s t := by
  cases h
  with_reducible repeat' (first
    | assumption | exact Keeps.rfl' _ | intro _ | apply State.issueRegs_keeps | apply Keeps.ite
    | apply Core.memOk_putD | split | dsimp only)

theorem execCmpEq_keeps (team : Nat) (x : Args) (s : State) (t : State)
    (h : execCmpEq team x s = .next t) : Keeps s t := by
  cases h
  with_reducible repeat' (first
    | assumption | exact Keeps.rfl' _ | intro _ | apply State.issueRegs_keeps | apply Core.memOk_putPD | dsimp only)

theorem execCmpNe_keeps (team : Nat) (x : Args) (s : State) (t : State)
    (h : execCmpNe team x s = .next t) : Keeps s t := by
  cases h
  with_reducible repeat' (first
    | assumption | exact Keeps.rfl' _ | intro _ | apply State.issueRegs_keeps | apply Core.memOk_putPD | dsimp only)

theorem execCmpLt_keeps (team : Nat) (x : Args) (s : State) (t : State)
    (h : execCmpLt team x s = .next t) : Keeps s t := by
  cases h
  with_reducible repeat' (first
    | assumption | exact Keeps.rfl' _ | intro _ | apply State.issueRegs_keeps | apply Core.memOk_putPD | dsimp only)

theorem execCmpLe_keeps (team : Nat) (x : Args) (s : State) (t : State)
    (h : execCmpLe team x s = .next t) : Keeps s t := by
  cases h
  with_reducible repeat' (first
    | assumption | exact Keeps.rfl' _ | intro _ | apply State.issueRegs_keeps | apply Core.memOk_putPD | dsimp only)

theorem execCmpLtu_keeps (team : Nat) (x : Args) (s : State) (t : State)
    (h : execCmpLtu team x s = .next t) : Keeps s t := by
  cases h
  with_reducible repeat' (first
    | assumption | exact Keeps.rfl' _ | intro _ | apply State.issueRegs_keeps | apply Core.memOk_putPD | dsimp only)

theorem execCmpLeu_keeps (team : Nat) (x : Args) (s : State) (t : State)
    (h : execCmpLeu team x s = .next t) : Keeps s t := by
  cases h
  with_reducible repeat' (first
    | assumption | exact Keeps.rfl' _ | intro _ | apply State.issueRegs_keeps | apply Core.memOk_putPD | dsimp only)

theorem execFadd_keeps (team : Nat) (x : Args) (s : State) (t : State)
    (h : execFadd team x s = .next t) : Keeps s t := by
  cases h
  with_reducible repeat' (first
    | assumption | exact Keeps.rfl' _ | intro _ | apply State.issueRegs_keeps | apply Core.memOk_putD | dsimp only)

theorem execFsub_keeps (team : Nat) (x : Args) (s : State) (t : State)
    (h : execFsub team x s = .next t) : Keeps s t := by
  cases h
  with_reducible repeat' (first
    | assumption | exact Keeps.rfl' _ | intro _ | apply State.issueRegs_keeps | apply Core.memOk_putD | dsimp only)

theorem execFmul_keeps (team : Nat) (x : Args) (s : State) (t : State)
    (h : execFmul team x s = .next t) : Keeps s t := by
  cases h
  with_reducible repeat' (first
    | assumption | exact Keeps.rfl' _ | intro _ | apply State.issueRegs_keeps | apply Core.memOk_putD | dsimp only)

theorem execFma_keeps (team : Nat) (x : Args) (s : State) (t : State)
    (h : execFma team x s = .next t) : Keeps s t := by
  cases h
  with_reducible repeat' (first
    | assumption | exact Keeps.rfl' _ | intro _ | apply State.issueRegs_keeps | apply Core.memOk_putD | dsimp only)

theorem execFmin_keeps (team : Nat) (x : Args) (s : State) (t : State)
    (h : execFmin team x s = .next t) : Keeps s t := by
  cases h
  with_reducible repeat' (first
    | assumption | exact Keeps.rfl' _ | intro _ | apply State.issueRegs_keeps | apply Core.memOk_putD | dsimp only)

theorem execFmax_keeps (team : Nat) (x : Args) (s : State) (t : State)
    (h : execFmax team x s = .next t) : Keeps s t := by
  cases h
  with_reducible repeat' (first
    | assumption | exact Keeps.rfl' _ | intro _ | apply State.issueRegs_keeps | apply Core.memOk_putD | dsimp only)

theorem execItof_keeps (team : Nat) (x : Args) (s : State) (t : State)
    (h : execItof team x s = .next t) : Keeps s t := by
  cases h
  with_reducible repeat' (first
    | assumption | exact Keeps.rfl' _ | intro _ | apply State.issueRegs_keeps | apply Core.memOk_putD | dsimp only)

theorem execFtoi_keeps (team : Nat) (x : Args) (s : State) (t : State)
    (h : execFtoi team x s = .next t) : Keeps s t := by
  cases h
  with_reducible repeat' (first
    | assumption | exact Keeps.rfl' _ | intro _ | apply State.issueRegs_keeps | apply Core.memOk_putD | dsimp only)

theorem execFcmpEq_keeps (team : Nat) (x : Args) (s : State) (t : State)
    (h : execFcmpEq team x s = .next t) : Keeps s t := by
  cases h
  with_reducible repeat' (first
    | assumption | exact Keeps.rfl' _ | intro _ | apply State.issueRegs_keeps | apply Core.memOk_putPD | dsimp only)

theorem execFcmpLt_keeps (team : Nat) (x : Args) (s : State) (t : State)
    (h : execFcmpLt team x s = .next t) : Keeps s t := by
  cases h
  with_reducible repeat' (first
    | assumption | exact Keeps.rfl' _ | intro _ | apply State.issueRegs_keeps | apply Core.memOk_putPD | dsimp only)

theorem execFcmpLe_keeps (team : Nat) (x : Args) (s : State) (t : State)
    (h : execFcmpLe team x s = .next t) : Keeps s t := by
  cases h
  with_reducible repeat' (first
    | assumption | exact Keeps.rfl' _ | intro _ | apply State.issueRegs_keeps | apply Core.memOk_putPD | split
    | dsimp only)

theorem execPand_keeps (team : Nat) (x : Args) (s : State) (t : State)
    (h : execPand team x s = .next t) : Keeps s t := by
  cases h
  with_reducible repeat' (first
    | assumption | exact Keeps.rfl' _ | intro _ | apply State.issueRegs_keeps | apply Core.memOk_putPD | dsimp only)

theorem execPor_keeps (team : Nat) (x : Args) (s : State) (t : State)
    (h : execPor team x s = .next t) : Keeps s t := by
  cases h
  with_reducible repeat' (first
    | assumption | exact Keeps.rfl' _ | intro _ | apply State.issueRegs_keeps | apply Core.memOk_putPD | split
    | dsimp only)

theorem execPxor_keeps (team : Nat) (x : Args) (s : State) (t : State)
    (h : execPxor team x s = .next t) : Keeps s t := by
  cases h
  with_reducible repeat' (first
    | assumption | exact Keeps.rfl' _ | intro _ | apply State.issueRegs_keeps | apply Core.memOk_putPD | dsimp only)

theorem execPnot_keeps (team : Nat) (x : Args) (s : State) (t : State)
    (h : execPnot team x s = .next t) : Keeps s t := by
  cases h
  with_reducible repeat' (first
    | assumption | exact Keeps.rfl' _ | intro _ | apply State.issueRegs_keeps | apply Core.memOk_putPD | dsimp only)

theorem execPset_keeps (team : Nat) (x : Args) (s : State) (t : State)
    (h : execPset team x s = .next t) : Keeps s t := by
  cases h
  with_reducible repeat' (first
    | assumption | exact Keeps.rfl' _ | intro _ | apply State.issueRegs_keeps | apply Core.memOk_putPD | dsimp only)

theorem execPget_keeps (team : Nat) (x : Args) (s : State) (t : State)
    (h : execPget team x s = .next t) : Keeps s t := by
  cases h
  with_reducible repeat' (first
    | assumption | exact Keeps.rfl' _ | intro _ | apply State.issueRegs_keeps | apply Keeps.ite
    | apply Core.memOk_putD | split | dsimp only)

theorem execCset_keeps (team : Nat) (x : Args) (s : State) (t : State)
    (h : execCset team x s = .next t) : Keeps s t := by
  cases h
  with_reducible repeat' (first
    | assumption | exact Keeps.rfl' _ | intro _ | apply State.issueRegs_keeps | apply Core.memOk_setC | split
    | dsimp only)

theorem execCget_keeps (team : Nat) (x : Args) (s : State) (t : State)
    (h : execCget team x s = .next t) : Keeps s t := by
  cases h
  with_reducible repeat' (first
    | assumption | exact Keeps.rfl' _ | intro _ | apply State.issueRegs_keeps | apply Core.memOk_putD | dsimp only)

/-! ### Sync -/

theorem State.sendSignal_keeps {s0 : State} (s : State) (t q : Nat) (w : LumfyWord) (c : W32) (pc : W16) (op : Nat)
    (h : W64) (n : Int) (hs : Keeps s0 s) :
    Keeps s0 (State.sendSignal s t q w c pc op h n) := by
  unfold State.sendSignal
  with_reducible repeat' (first
    | assumption | intro _ | apply State.await_keeps | apply State.sendOp_keeps | apply State.signal_keeps
    | apply State.deliver_keeps | apply State.notActed_keeps | refine Keeps.of_fst (by assumption) ?_ | dsimp only)

theorem State.signalCore_keeps {s0 : State} (s : State) (t q : Nat) (w : LumfyWord) (sub : Bool) (hs : Keeps s0 s) :
    Keeps s0 (State.signalCore s t q w sub) := by
  unfold State.signalCore
  with_reducible repeat' (first
    | assumption | apply State.signal_keeps | apply State.launchFault_keeps | apply State.complete_keeps
    | apply State.sendSignal_keeps | apply State.zeroD_keeps | apply Keeps.ite | apply Keeps.ite_fst
    | refine Keeps.of_fst (by assumption) ?_ | split | dsimp only)

theorem execSignalAdd_keeps (team : Nat) (x : Args) (s : State) (t : State)
    (h : execSignalAdd team x s = .next t) : Keeps s t := by
  cases h
  with_reducible repeat' (first
    | assumption | exact Keeps.rfl' _ | intro _ | apply State.issue_keeps | apply State.signalCore_keeps
    | dsimp only)

theorem execSignalSub_keeps (team : Nat) (x : Args) (s : State) (t : State)
    (h : execSignalSub team x s = .next t) : Keeps s t := by
  cases h
  with_reducible repeat' (first
    | assumption | exact Keeps.rfl' _ | intro _ | apply State.issue_keeps | apply State.signalCore_keeps
    | dsimp only)

theorem State.claimHub_keeps {s0 : State} (s : State) (c : W32) (x : Ctx) (h : W64) (hs : Keeps s0 s) :
    Keeps s0 (State.claimHub s c x h) := by
  unfold State.claimHub
  with_reducible repeat' (first
    | assumption | apply Keeps.ite | split | (apply Keeps.upd; first | assumption) | dsimp only)

theorem State.initAt_keeps {s0 : State} (s : State) (u : SyncUnit) (i : Nat) (barrier : Bool) (v : Nat)
    (hs : Keeps s0 s) :
    Keeps s0 (State.initAt s u i barrier v) := by
  unfold State.initAt
  with_reducible repeat' (first
    | assumption | apply State.initCounter_keeps | apply Keeps.ite | split | (apply Keeps.upd; first | assumption)
    | dsimp only)

theorem State.watchCore_keeps {s0 : State} (s : State) (t q : Nat) (w : LumfyWord) (kind : WatchKind)
    (hs : Keeps s0 s) :
    Keeps s0 (State.watchCore s t q w kind) := by
  unfold State.watchCore
  with_reducible repeat' (first
    | assumption | intro _ | apply State.zeroD_keeps | apply State.await_keeps | apply State.register_keeps
    | apply State.sendOp_keeps | apply State.deliver_keeps | apply State.notActed_keeps | apply Keeps.ite | split
    | dsimp only)

theorem execWatchGe_keeps (team : Nat) (x : Args) (s : State) (t : State)
    (h : execWatchGe team x s = .next t) : Keeps s t := by
  cases h
  with_reducible repeat' (first
    | assumption | exact Keeps.rfl' _ | intro _ | apply State.issue_keeps | apply State.watchCore_keeps | dsimp only)

theorem execWatchEq_keeps (team : Nat) (x : Args) (s : State) (t : State)
    (h : execWatchEq team x s = .next t) : Keeps s t := by
  cases h
  with_reducible repeat' (first
    | assumption | exact Keeps.rfl' _ | intro _ | apply State.issue_keeps | apply State.watchCore_keeps | dsimp only)

theorem execWatchClaim_keeps (team : Nat) (x : Args) (s : State) (t : State)
    (h : execWatchClaim team x s = .next t) : Keeps s t := by
  cases h
  with_reducible repeat' (first
    | assumption | exact Keeps.rfl' _ | intro _ | apply State.issue_keeps | apply State.watchCore_keeps | dsimp only)

theorem State.issueFence_keeps {s0 : State} (s : State) (t : Nat) (w : LumfyWord) (scope : Scope) (hs : Keeps s0 s) :
    Keeps s0 (State.issueFence s t w scope) := by
  unfold State.issueFence
  with_reducible repeat' (first
    | assumption | intro _ | apply State.issue_keeps | apply State.fence_keeps | apply Keeps.ite | split
    | (apply Keeps.upd; first | assumption) | dsimp only)

theorem execFenceLocal_keeps (team : Nat) (x : Args) (s : State) (t : State)
    (h : execFenceLocal team x s = .next t) : Keeps s t := by
  cases h
  with_reducible repeat' (first
    | assumption | exact Keeps.rfl' _ | apply State.issueFence_keeps)

theorem execFenceModule_keeps (team : Nat) (x : Args) (s : State) (t : State)
    (h : execFenceModule team x s = .next t) : Keeps s t := by
  cases h
  with_reducible repeat' (first
    | assumption | exact Keeps.rfl' _ | apply State.issueFence_keeps)

theorem execFenceFabric_keeps (team : Nat) (x : Args) (s : State) (t : State)
    (h : execFenceFabric team x s = .next t) : Keeps s t := by
  cases h
  with_reducible repeat' (first
    | assumption | exact Keeps.rfl' _ | apply State.issueFence_keeps)

theorem State.sendArrival_keeps {s0 : State} (s : State) (c : W32) (dest : W16) (tag index : Nat) (a : Arrival)
    (hs : Keeps s0 s) :
    Keeps s0 (State.sendArrival s c dest tag index a) := by
  unfold State.sendArrival
  with_reducible repeat' (first
    | assumption | intro _ | apply State.modFabric_keeps | apply State.sendOp_keeps | apply State.deliver_keeps
    | apply State.addEventsFor_keeps | apply Keeps.ite | split | dsimp only)

theorem State.offerArrival_keeps {s0 : State} (s : State) (c : W32) (dest : W16) (tag index : Nat) (a : Arrival)
    (hs : Keeps s0 s) :
    Keeps s0 (State.offerArrival s c dest tag index a) := by
  unfold State.offerArrival
  with_reducible repeat' (first
    | assumption | intro _ | apply State.modFabric_keeps | apply State.sendArrival_keeps | apply Keeps.ite | split
    | dsimp only)

theorem State.offerHeld_keeps {s0 : State} (s : State) (hs : Keeps s0 s) :
    Keeps s0 (State.offerHeld s) := by
  unfold State.offerHeld
  with_reducible repeat' (first
    | assumption | intro _ | apply State.modFabric_keeps | apply State.offerArrival_keeps | apply Keeps.foldl
    | split | dsimp only)

theorem State.arriveCore_keeps {s0 : State} (s : State) (t q : Nat) (w : LumfyWord) (hs : Keeps s0 s) :
    Keeps s0 (State.arriveCore s t q w) := by
  unfold State.arriveCore
  with_reducible repeat' (first
    | assumption | apply State.markExternal_keeps | apply State.await_keeps | apply State.offerArrival_keeps
    | apply State.zeroD_keeps | split | dsimp only)

theorem execCommitArrive_keeps (team : Nat) (x : Args) (s : State) (t : State)
    (h : execCommitArrive team x s = .next t) : Keeps s t := by
  cases h
  with_reducible repeat' (first
    | assumption | exact Keeps.rfl' _ | intro _ | apply State.issue_keeps | apply State.arriveCore_keeps
    | dsimp only)

/-! ### Tiles -/

theorem State.issueTiles_keeps {s0 : State} (s : State) (t : Nat) (w : LumfyWord) (regs : List Operand)
    (f : State → Nat → State) (hs : Keeps s0 s) (hf : ∀ s' x0, Keeps s0 s' → Keeps s0 (f s' x0)) :
    Keeps s0 (State.issueTiles s t w regs f) := by
  unfold State.issueTiles
  with_reducible repeat' (first
    | assumption | intro _ | apply hf | apply State.issue_keeps | apply Keeps.ite | split | dsimp only)

/-! ### TileMove -/

theorem State.issueDesc_keeps {s0 : State} (s : State) (t : Nat) (w : LumfyWord)
    (f : Core → Option (TileDesc × Bool)) (hs : Keeps s0 s) :
    Keeps s0 (State.issueDesc s t w f) := by
  unfold State.issueDesc
  with_reducible repeat' (first
    | assumption | intro _ | apply State.issue_keeps | apply State.modCore_keeps | apply State.finish_keeps
    | apply Core.memOk_setT | apply Team.memOk_modCore | split | dsimp only)

theorem execDesc_keeps (team : Nat) (x : Args) (s : State) (t : State)
    (h : execDesc team x s = .next t) : Keeps s t := by
  cases h
  with_reducible repeat' (first
    | assumption | exact Keeps.rfl' _ | apply State.issueDesc_keeps)

theorem execTsetbase_keeps (team : Nat) (x : Args) (s : State) (t : State)
    (h : execTsetbase team x s = .next t) : Keeps s t := by
  cases h
  with_reducible repeat' (first
    | assumption | exact Keeps.rfl' _ | apply State.issueDesc_keeps)

theorem execTaddbase_keeps (team : Nat) (x : Args) (s : State) (t : State)
    (h : execTaddbase team x s = .next t) : Keeps s t := by
  cases h
  with_reducible repeat' (first
    | assumption | exact Keeps.rfl' _ | apply State.issueDesc_keeps)

theorem execTsetdim_keeps (team : Nat) (x : Args) (s : State) (t : State)
    (h : execTsetdim team x s = .next t) : Keeps s t := by
  cases h
  with_reducible repeat' (first
    | assumption | exact Keeps.rfl' _ | apply State.issueDesc_keeps)

theorem execTsetstride_keeps (team : Nat) (x : Args) (s : State) (t : State)
    (h : execTsetstride team x s = .next t) : Keeps s t := by
  cases h
  with_reducible repeat' (first
    | assumption | exact Keeps.rfl' _ | apply State.issueDesc_keeps)

theorem execTsettype_keeps (team : Nat) (x : Args) (s : State) (t : State)
    (h : execTsettype team x s = .next t) : Keeps s t := by
  cases h
  with_reducible repeat' (first
    | assumption | exact Keeps.rfl' _ | apply State.issueDesc_keeps)

theorem execTgetbase_keeps (team : Nat) (x : Args) (s : State) (t : State)
    (h : execTgetbase team x s = .next t) : Keeps s t := by
  cases h
  with_reducible repeat' (first
    | assumption | exact Keeps.rfl' _ | intro _ | apply State.issue_keeps | apply State.finish_keeps
    | apply State.modCore_keeps | apply Keeps.ite | apply Core.memOk_putD | apply Team.memOk_modCore | split
    | dsimp only)

theorem execTflip_keeps (team : Nat) (x : Args) (s : State) (t : State)
    (h : execTflip team x s = .next t) : Keeps s t := by
  cases h
  with_reducible repeat' (first
    | assumption | exact Keeps.rfl' _ | apply State.issueDesc_keeps)

theorem tcopyLocal_keeps {s0 : State} (s : State) (t q : Nat) (w : LumfyWord) (d a : TileDesc) (hs : Keeps s0 s) :
    Keeps s0 (tcopyLocal s t q w d a) := by
  unfold tcopyLocal
  with_reducible repeat' (first
    | assumption | apply State.store_keeps | apply State.finish_keeps)

theorem tfillLocal_keeps {s0 : State} (s : State) (t q : Nat) (w : LumfyWord) (d : TileDesc) (v : Nat)
    (hs : Keeps s0 s) :
    Keeps s0 (tfillLocal s t q w d v) := by
  unfold tfillLocal
  with_reducible repeat' (first
    | assumption | apply State.store_keeps | apply State.finish_keeps)

/-! ### Matrix -/

theorem State.finishEmpty_keeps {s0 : State} (s : State) (t q : Nat) (w : LumfyWord) (ev : Events) (hs : Keeps s0 s) :
    Keeps s0 (State.finishEmpty s t q w ev) := by
  unfold State.finishEmpty
  with_reducible repeat' (first
    | assumption | intro _ | apply State.modCore_keeps | apply State.finish_keeps | apply Keeps.ite
    | apply Core.memOk_useDraws | apply Team.memOk_modCore | split | dsimp only)

theorem State.matrixDone_keeps {s0 : State} (s : State) (t q : Nat) (w : LumfyWord) (d : TileDesc) (es : Elems)
    (bad queue : Bool) (hs : Keeps s0 s) :
    Keeps s0 (State.matrixDone s t q w d es bad queue) := by
  unfold State.matrixDone
  with_reducible repeat' (first
    | assumption | apply State.apply_keeps)

theorem mmaCore_keeps {s0 : State} (s : State) (t q : Nat) (w : LumfyWord) (hs : Keeps s0 s) :
    Keeps s0 (mmaCore s t q w) := by
  unfold mmaCore
  with_reducible repeat' (first
    | assumption | intro _ | apply State.matrixDone_keeps | apply State.finishEmpty_keeps | apply Keeps.ite | split
    | dsimp only)

theorem mmaDrvCore_keeps {s0 : State} (s : State) (t q : Nat) (w : LumfyWord) (hs : Keeps s0 s) :
    Keeps s0 (mmaDrvCore s t q w) := by
  unfold mmaDrvCore
  with_reducible repeat' (first
    | assumption | intro _ | apply State.matrixDone_keeps | apply State.finishEmpty_keeps | apply Keeps.ite | split
    | dsimp only)

theorem State.correctSome_keeps {s0 : State} (s : State) (key rows : Nat) (hs : Keeps s0 s) :
    Keeps s0 (State.correctSome s key rows) := Keeps.upd _ hs ..

theorem State.correctRows_keeps {s0 : State} (s : State) (q idx n : Nat) (hs : Keeps s0 s) :
    Keeps s0 (State.correctRows s q idx n) := State.correctSome_keeps _ _ _ hs

theorem mmaAcsCore_keeps {s0 : State} (s : State) (t q : Nat) (w : LumfyWord) (hs : Keeps s0 s) :
    Keeps s0 (mmaAcsCore s t q w) := by
  unfold mmaAcsCore
  extract_lets k x a b idx n ta tb r
  have hc := State.correctRows_keeps s q idx (a.rows * n) hs
  split
  · split
    · refine State.finish_keeps _ _ _ _ _ _ ⟨hc.pending, hc.part, hc.metal, fun m => ?_⟩
      have hr : ∀ (l : List (Nat × Nat)) (acc : Team × Events), Team.memOk acc.1 → Team.memOk (l.foldl (fun (acc : Team × Events) c =>
          let p := dotOf (x.mod.getLsbD 1) ta tb c.1 c.2 FVal.zero
          let wd := idx + c.1 * n + c.2
          let y := acsAdd (acc.1.acsGet wd) p
          (acc.1.acsPut wd y.1, acc.2.count c.1 c.2 y.2)) acc).1 := by
        intro l
        induction l with
        | nil => exact fun _ h => h
        | cons c r ih => exact fun acc h => ih _ ⟨h.1, h.2⟩
      have g := hc.mem m
      exact ⟨g.stack, g.host, forall_mapPut _ _ _ g.teams (hr _ _ ((hs.mem m).team t)), g.ctxs, g.snaps⟩
    · exact State.finish_keeps _ _ _ _ _ _ hs
  · exact State.finish_keeps _ _ _ _ _ _ hs

theorem acsReadCore_keeps {s0 : State} (s : State) (t q : Nat) (w : LumfyWord) (hs : Keeps s0 s) :
    Keeps s0 (acsReadCore s t q w) := by
  unfold acsReadCore
  extract_lets k x d idx n es s1
  split
  · exact State.finishEmpty_keeps _ _ _ _ _ hs
  · split
    · refine State.matrixDone_keeps _ _ _ _ _ _ _ _ (State.correctRows_keeps _ _ _ _ ?_)
      show Keeps s0 (if _ then _ else _)
      split
      · exact State.modTeam_keeps _ _ _ hs fun k h => Team.memOk_acsFold _ _ _ h
      · exact hs
    · exact State.finishEmpty_keeps _ _ _ _ _ hs

theorem acsZeroCore_keeps {s0 : State} (s : State) (t q : Nat) (w : LumfyWord) (hs : Keeps s0 s) :
    Keeps s0 (acsZeroCore s t q w) := by
  unfold acsZeroCore
  dsimp only
  split
  · exact State.modTeam_keeps _ _ _ (State.correctSome_keeps _ _ _ hs) fun k h => Team.memOk_acsFold _ _ _ h
  · exact State.finish_keeps _ _ _ _ _ _ hs

theorem execMma_keeps (team : Nat) (x : Args) (s : State) (t : State)
    (h : execMma team x s = .next t) : Keeps s t := by
  cases h
  with_reducible repeat' (first
    | assumption | exact Keeps.rfl' _ | intro _ | apply State.issueTiles_keeps | apply mmaCore_keeps
    | apply Keeps.ite | split | dsimp only)

theorem execMmaDrv_keeps (team : Nat) (x : Args) (s : State) (t : State)
    (h : execMmaDrv team x s = .next t) : Keeps s t := by
  cases h
  with_reducible repeat' (first
    | assumption | exact Keeps.rfl' _ | intro _ | apply State.issueTiles_keeps | apply mmaDrvCore_keeps | dsimp only)

theorem execMmaAcs_keeps (team : Nat) (x : Args) (s : State) (t : State)
    (h : execMmaAcs team x s = .next t) : Keeps s t := by
  cases h
  with_reducible repeat' (first
    | assumption | exact Keeps.rfl' _ | intro _ | apply State.issueTiles_keeps | apply mmaAcsCore_keeps | dsimp only)

theorem execAcsRead_keeps (team : Nat) (x : Args) (s : State) (t : State)
    (h : execAcsRead team x s = .next t) : Keeps s t := by
  cases h
  with_reducible repeat' (first
    | assumption | exact Keeps.rfl' _ | intro _ | apply State.issueTiles_keeps | apply acsReadCore_keeps
    | dsimp only)

theorem execAcsZero_keeps (team : Nat) (x : Args) (s : State) (t : State)
    (h : execAcsZero team x s = .next t) : Keeps s t := by
  cases h
  with_reducible repeat' (first
    | assumption | exact Keeps.rfl' _ | intro _ | apply State.issueTiles_keeps | apply acsZeroCore_keeps
    | dsimp only)

theorem execTileQueueDrain_keeps (team core : Nat) (s : State) (t : State)
    (h : execTileQueueDrain team core s = .next t) : Keeps s t := by
  cases h
  with_reducible repeat' (first
    | assumption | exact Keeps.rfl' _ | intro _ | apply State.modCore_keeps | apply State.drop_keeps
    | apply Keeps.ite | apply Team.memOk_modCore | split | dsimp only)

/-! ### Vector -/

theorem State.storeTile_keeps {s0 : State} (s : State) (t q : Nat) (unit : EngineUnit) (reg : Option Nat)
    (d : TileDesc) (code scale : Nat → Nat → Nat) (hs : Keeps s0 s) :
    Keeps s0 (State.storeTile s t q unit reg d code scale) := by
  unfold State.storeTile
  with_reducible repeat' (first
    | assumption | apply State.store_keeps)

theorem State.vectorDone_keeps {s0 : State} (s : State) (t q : Nat) (w : LumfyWord) (d : TileDesc) (es : Elems)
    (scale : Nat → Nat → Nat) (bad : Bool) (hs : Keeps s0 s) :
    Keeps s0 (State.vectorDone s t q w d es scale bad) := by
  unfold State.vectorDone
  with_reducible repeat' (first
    | assumption | intro _ | apply State.modCore_keeps | apply State.storeTile_keeps | apply State.finish_keeps
    | apply Core.memOk_useDraws | apply Team.memOk_modCore | dsimp only)

theorem State.elementwise_keeps {s0 : State} (s : State) (t q : Nat) (w : LumfyWord) (dTy : Nat)
    (f : Nat → Nat → Nat → Nat → Nat → Nat × Flags) (hs : Keeps s0 s) :
    Keeps s0 (State.elementwise s t q w dTy f) := by
  unfold State.elementwise
  with_reducible repeat' (first
    | assumption | intro _ | apply State.finishEmpty_keeps | apply State.vectorDone_keeps | apply Keeps.ite | split
    | dsimp only)

theorem State.issueElem_keeps {s0 : State} (s : State) (t : Nat) (w : LumfyWord) (dTy : Nat)
    (f : State → Nat → Nat → Nat → Nat → Nat → Nat → Nat × Flags) (hs : Keeps s0 s) :
    Keeps s0 (State.issueElem s t w dTy f) := by
  unfold State.issueElem
  with_reducible repeat' (first
    | assumption | intro _ | apply hf | apply State.issueTiles_keeps | apply State.elementwise_keeps | dsimp only)

theorem execVadd_keeps (team : Nat) (x : Args) (s : State) (t : State)
    (h : execVadd team x s = .next t) : Keeps s t := by
  cases h
  with_reducible repeat' (first
    | assumption | exact Keeps.rfl' _ | apply State.issueElem_keeps)

theorem execVsub_keeps (team : Nat) (x : Args) (s : State) (t : State)
    (h : execVsub team x s = .next t) : Keeps s t := by
  cases h
  with_reducible repeat' (first
    | assumption | exact Keeps.rfl' _ | apply State.issueElem_keeps)

theorem execVmul_keeps (team : Nat) (x : Args) (s : State) (t : State)
    (h : execVmul team x s = .next t) : Keeps s t := by
  cases h
  with_reducible repeat' (first
    | assumption | exact Keeps.rfl' _ | apply State.issueElem_keeps)

theorem execVdiv_keeps (team : Nat) (x : Args) (s : State) (t : State)
    (h : execVdiv team x s = .next t) : Keeps s t := by
  cases h
  with_reducible repeat' (first
    | assumption | exact Keeps.rfl' _ | apply State.issueElem_keeps)

theorem execVmax_keeps (team : Nat) (x : Args) (s : State) (t : State)
    (h : execVmax team x s = .next t) : Keeps s t := by
  cases h
  with_reducible repeat' (first
    | assumption | exact Keeps.rfl' _ | apply State.issueElem_keeps)

theorem execVmin_keeps (team : Nat) (x : Args) (s : State) (t : State)
    (h : execVmin team x s = .next t) : Keeps s t := by
  cases h
  with_reducible repeat' (first
    | assumption | exact Keeps.rfl' _ | apply State.issueElem_keeps)

theorem execVfma_keeps (team : Nat) (x : Args) (s : State) (t : State)
    (h : execVfma team x s = .next t) : Keeps s t := by
  cases h
  with_reducible repeat' (first
    | assumption | exact Keeps.rfl' _ | apply State.issueElem_keeps)

theorem execVand_keeps (team : Nat) (x : Args) (s : State) (t : State)
    (h : execVand team x s = .next t) : Keeps s t := by
  cases h
  with_reducible repeat' (first
    | assumption | exact Keeps.rfl' _ | apply State.issueElem_keeps)

theorem execVor_keeps (team : Nat) (x : Args) (s : State) (t : State)
    (h : execVor team x s = .next t) : Keeps s t := by
  cases h
  with_reducible repeat' (first
    | assumption | exact Keeps.rfl' _ | apply State.issueElem_keeps)

theorem execVxor_keeps (team : Nat) (x : Args) (s : State) (t : State)
    (h : execVxor team x s = .next t) : Keeps s t := by
  cases h
  with_reducible repeat' (first
    | assumption | exact Keeps.rfl' _ | apply State.issueElem_keeps)

theorem execVshl_keeps (team : Nat) (x : Args) (s : State) (t : State)
    (h : execVshl team x s = .next t) : Keeps s t := by
  cases h
  with_reducible repeat' (first
    | assumption | exact Keeps.rfl' _ | apply State.issueElem_keeps)

theorem execVshr_keeps (team : Nat) (x : Args) (s : State) (t : State)
    (h : execVshr team x s = .next t) : Keeps s t := by
  cases h
  with_reducible repeat' (first
    | assumption | exact Keeps.rfl' _ | apply State.issueElem_keeps)

theorem execVneg_keeps (team : Nat) (x : Args) (s : State) (t : State)
    (h : execVneg team x s = .next t) : Keeps s t := by
  cases h
  with_reducible repeat' (first
    | assumption | exact Keeps.rfl' _ | apply State.issueElem_keeps)

theorem execVabs_keeps (team : Nat) (x : Args) (s : State) (t : State)
    (h : execVabs team x s = .next t) : Keeps s t := by
  cases h
  with_reducible repeat' (first
    | assumption | exact Keeps.rfl' _ | apply State.issueElem_keeps)

theorem execVsqrt_keeps (team : Nat) (x : Args) (s : State) (t : State)
    (h : execVsqrt team x s = .next t) : Keeps s t := by
  cases h
  with_reducible repeat' (first
    | assumption | exact Keeps.rfl' _ | apply State.issueElem_keeps)

theorem execVrsqrt_keeps (team : Nat) (x : Args) (s : State) (t : State)
    (h : execVrsqrt team x s = .next t) : Keeps s t := by
  cases h
  with_reducible repeat' (first
    | assumption | exact Keeps.rfl' _ | apply State.issueElem_keeps)

theorem execVrcp_keeps (team : Nat) (x : Args) (s : State) (t : State)
    (h : execVrcp team x s = .next t) : Keeps s t := by
  cases h
  with_reducible repeat' (first
    | assumption | exact Keeps.rfl' _ | apply State.issueElem_keeps)

theorem execVexp_keeps (team : Nat) (x : Args) (s : State) (t : State)
    (h : execVexp team x s = .next t) : Keeps s t := by
  cases h
  with_reducible repeat' (first
    | assumption | exact Keeps.rfl' _ | apply State.issueElem_keeps)

theorem execVlog_keeps (team : Nat) (x : Args) (s : State) (t : State)
    (h : execVlog team x s = .next t) : Keeps s t := by
  cases h
  with_reducible repeat' (first
    | assumption | exact Keeps.rfl' _ | apply State.issueElem_keeps)

theorem execVtanh_keeps (team : Nat) (x : Args) (s : State) (t : State)
    (h : execVtanh team x s = .next t) : Keeps s t := by
  cases h
  with_reducible repeat' (first
    | assumption | exact Keeps.rfl' _ | apply State.issueElem_keeps)

theorem execVsigmoid_keeps (team : Nat) (x : Args) (s : State) (t : State)
    (h : execVsigmoid team x s = .next t) : Keeps s t := by
  cases h
  with_reducible repeat' (first
    | assumption | exact Keeps.rfl' _ | apply State.issueElem_keeps)

theorem execVgelu_keeps (team : Nat) (x : Args) (s : State) (t : State)
    (h : execVgelu team x s = .next t) : Keeps s t := by
  cases h
  with_reducible repeat' (first
    | assumption | exact Keeps.rfl' _ | apply State.issueElem_keeps)

theorem execVsilu_keeps (team : Nat) (x : Args) (s : State) (t : State)
    (h : execVsilu team x s = .next t) : Keeps s t := by
  cases h
  with_reducible repeat' (first
    | assumption | exact Keeps.rfl' _ | apply State.issueElem_keeps)

theorem execVrelu_keeps (team : Nat) (x : Args) (s : State) (t : State)
    (h : execVrelu team x s = .next t) : Keeps s t := by
  cases h
  with_reducible repeat' (first
    | assumption | exact Keeps.rfl' _ | apply State.issueElem_keeps)

theorem execVlrelu_keeps (team : Nat) (x : Args) (s : State) (t : State)
    (h : execVlrelu team x s = .next t) : Keeps s t := by
  cases h
  with_reducible repeat' (first
    | assumption | exact Keeps.rfl' _ | apply State.issueElem_keeps)

theorem execVcmpEq_keeps (team : Nat) (x : Args) (s : State) (t : State)
    (h : execVcmpEq team x s = .next t) : Keeps s t := by
  cases h
  with_reducible repeat' (first
    | assumption | exact Keeps.rfl' _ | apply State.issueElem_keeps)

theorem execVcmpLt_keeps (team : Nat) (x : Args) (s : State) (t : State)
    (h : execVcmpLt team x s = .next t) : Keeps s t := by
  cases h
  with_reducible repeat' (first
    | assumption | exact Keeps.rfl' _ | apply State.issueElem_keeps)

theorem execVcmpLe_keeps (team : Nat) (x : Args) (s : State) (t : State)
    (h : execVcmpLe team x s = .next t) : Keeps s t := by
  cases h
  with_reducible repeat' (first
    | assumption | exact Keeps.rfl' _ | apply State.issueElem_keeps)

theorem vselCore_keeps {s0 : State} (s : State) (t q : Nat) (w : LumfyWord) (hs : Keeps s0 s) :
    Keeps s0 (vselCore s t q w) := by
  unfold vselCore
  with_reducible repeat' (first
    | assumption | intro _ | apply State.finish_keeps | apply State.vectorDone_keeps | apply Keeps.ite | split
    | dsimp only)

theorem execVsel_keeps (team : Nat) (x : Args) (s : State) (t : State)
    (h : execVsel team x s = .next t) : Keeps s t := by
  cases h
  with_reducible repeat' (first
    | assumption | exact Keeps.rfl' _ | intro _ | apply State.issueTiles_keeps | apply vselCore_keeps | dsimp only)

theorem vcvtCore_keeps {s0 : State} (s : State) (t q : Nat) (w : LumfyWord) (hs : Keeps s0 s) :
    Keeps s0 (vcvtCore s t q w) := by
  unfold vcvtCore
  with_reducible repeat' (first
    | assumption | intro _ | apply State.finishEmpty_keeps | apply State.vectorDone_keeps | apply Keeps.ite | split
    | dsimp only)

theorem execVcvt_keeps (team : Nat) (x : Args) (s : State) (t : State)
    (h : execVcvt team x s = .next t) : Keeps s t := by
  cases h
  with_reducible repeat' (first
    | assumption | exact Keeps.rfl' _ | intro _ | apply State.issueTiles_keeps | apply vcvtCore_keeps | dsimp only)

theorem vrandCore_keeps {s0 : State} (s : State) (t q : Nat) (w : LumfyWord) (hs : Keeps s0 s) :
    Keeps s0 (vrandCore s t q w) := by
  unfold vrandCore
  with_reducible repeat' (first
    | assumption | intro _ | apply State.finish_keeps | apply State.vectorDone_keeps | apply Keeps.ite | split
    | dsimp only)

theorem execVrand_keeps (team : Nat) (x : Args) (s : State) (t : State)
    (h : execVrand team x s = .next t) : Keeps s t := by
  cases h
  with_reducible repeat' (first
    | assumption | exact Keeps.rfl' _ | intro _ | apply State.issueTiles_keeps | apply vrandCore_keeps | dsimp only)

theorem vdropoutCore_keeps {s0 : State} (s : State) (t q : Nat) (w : LumfyWord) (hs : Keeps s0 s) :
    Keeps s0 (vdropoutCore s t q w) := by
  unfold vdropoutCore
  dsimp only
  have hd := State.modCore_keeps s t q _ hs fun _ h => Core.memOk_dropDraws h ((s.core t q).tile w.args.d)
  split
  · exact State.finish_keeps _ _ _ _ _ _ hd
  · exact State.vectorDone_keeps _ _ _ _ _ _ _ _ (State.storeTile_keeps _ _ _ _ _ _ _ _ hd)

theorem execVdropout_keeps (team : Nat) (x : Args) (s : State) (t : State)
    (h : execVdropout team x s = .next t) : Keeps s t := by
  cases h
  with_reducible repeat' (first
    | assumption | exact Keeps.rfl' _ | intro _ | apply State.issueTiles_keeps | apply vdropoutCore_keeps
    | dsimp only)

/-! ### Barrier -/

theorem State.lateEvent_keeps {s0 : State} (s : State) (hs : Keeps s0 s) :
    Keeps s0 (State.lateEvent s) := by
  unfold State.lateEvent
  with_reducible repeat' (first
    | assumption | (apply Keeps.upd; first | assumption) | dsimp only)

theorem State.modRequests_keeps {s0 : State} (s : State) (which : UpdReq → Bool) (f : UpdReq → UpdReq)
    (hs : Keeps s0 s) : Keeps s0 (State.modRequests s which f) :=
  Keeps.updMem _ hs (h1 := State.MemOk.stack) (h2 := State.MemOk.host)
    (h3 := fun m => teamsOk_map m.teams _ fun _ h => h)
    (h4 := fun m => ctxsOk_map m.ctxs _ fun _ h => ⟨teamsOk_map h.1 _ fun _ h => h, h.2⟩) (h5 := State.MemOk.snaps) ..

theorem State.failUpdates_keeps {s0 : State} (s : State) (waits : W32 → W64 → Bool) (reason : Nat) (hs : Keeps s0 s) :
    Keeps s0 (State.failUpdates s waits reason) := State.modRequests_keeps _ _ _ hs

theorem State.keepReleases_keeps {s0 : State} (s : State) (hs : Keeps s0 s) :
    Keeps s0 (State.keepReleases s) := State.modRequests_keeps _ _ _ hs

theorem State.mirrorsResume_keeps {s0 : State} (s : State) (c : W32) (step : W64) (hs : Keeps s0 s) :
    Keeps s0 (State.mirrorsResume s c step) := State.modCtx_keeps _ _ _ hs fun _ h => h

theorem State.buddyGone_keeps {s0 : State} (s : State) (pc : W16) (hs : Keeps s0 s) :
    Keeps s0 (State.buddyGone s pc) :=
  Keeps.updMem _ hs (h1 := State.MemOk.stack) (h2 := State.MemOk.host) (h3 := State.MemOk.teams)
    (h4 := fun m => ctxsOk_map m.ctxs _ fun _ h => h) (h5 := State.MemOk.snaps) ..

theorem State.notePoison_keeps {s0 : State} (s : State) (pc : W16) (index : Nat) (on : Bool) (hs : Keeps s0 s) :
    Keeps s0 (State.notePoison s pc index on) := State.modFabric_keeps _ _ hs

theorem State.initAway_keeps {s0 : State} (s : State) (pc : W16) (index : Nat) (hs : Keeps s0 s) :
    Keeps s0 (State.initAway s pc index) := State.modFabric_keeps _ _ (State.notePoison_keeps _ _ _ _ hs)

theorem State.forgetReleases_keeps {s0 : State} (s : State) (c : W32) (hs : Keeps s0 s) :
    Keeps s0 (State.forgetReleases s c) := State.modFabric_keeps _ _ hs

theorem State.answerArrival_keeps {s0 : State} (s : State) (a : Arrival) (how : ArriveAnswer) (value : Nat)
    (hs : Keeps s0 s) :
    Keeps s0 (State.answerArrival s a how value) := by
  unfold State.answerArrival
  with_reducible repeat' (first
    | assumption | apply State.deliver_keeps | apply State.deliverFault_keeps | apply State.admitUnits_keeps
    | apply State.notActed_keeps | apply State.addEventsFor_keeps | apply State.sendFrame_keeps
    | refine Keeps.of_fst (by assumption) ?_ | split | dsimp only)

theorem State.sendRelease_keeps {s0 : State} (s : State) (r : Release) (at_ : W64) (a : Arrival) (hs : Keeps s0 s) :
    Keeps s0 (State.sendRelease s r at_ a) := by
  unfold State.sendRelease
  with_reducible repeat' (first
    | assumption | apply State.sendFrame_keeps | refine Keeps.of_fst (by assumption) ?_ | split | dsimp only)

theorem State.completeArrival_keeps {s0 : State} (s : State) (r : Release) (a : Arrival) (hs : Keeps s0 s) :
    Keeps s0 (State.completeArrival s r a) := by
  unfold State.completeArrival
  with_reducible repeat' (first
    | assumption | apply State.deliver_keeps | apply State.mirrorsResume_keeps | split | dsimp only)

theorem State.setHub_keeps {s0 : State} (s : State) (i : Nat) (o : HubObj) (hs : Keeps s0 s) :
    Keeps s0 (State.setHub s i o) := by
  unfold State.setHub
  with_reducible repeat' (first
    | assumption | (apply Keeps.upd; first | assumption) | dsimp only)

theorem State.sendJoins_keeps {s0 : State} (s : State) (l : List Absence) (hs : Keeps s0 s) :
    Keeps s0 (State.sendJoins s l) := by
  unfold State.sendJoins
  with_reducible repeat' (first
    | assumption | intro _ | apply State.emitOut_keeps | apply Keeps.foldl | apply Keeps.ite | split | dsimp only)

theorem State.closeTally_keeps {s0 : State} (s : State) (i : Nat) (o : HubObj) (hs : Keeps s0 s) :
    Keeps s0 (State.closeTally s i o) := by
  unfold State.closeTally
  with_reducible repeat' (first
    | assumption | intro _ | apply State.sendRelease_keeps | apply State.setHub_keeps | apply State.sendJoins_keeps
    | apply State.answerArrival_keeps | apply State.failUpdates_keeps | apply Keeps.foldl | apply Keeps.ite | split
    | (apply Keeps.upd; first | assumption | apply State.sendRelease_keeps | apply State.setHub_keeps | apply State.sendJoins_keeps | apply State.answerArrival_keeps | apply State.failUpdates_keeps)
    | dsimp only)

theorem State.tryRelease_keeps {s0 : State} (s : State) (i : Nat) (hs : Keeps s0 s) :
    Keeps s0 (State.tryRelease s i) := by
  unfold State.tryRelease
  with_reducible repeat' (first
    | assumption | apply State.closeTally_keeps | apply Keeps.ite | split | dsimp only)

theorem State.joinTally_keeps {s0 : State} (s : State) (i : Nat) (a : Arrival) (hs : Keeps s0 s) :
    Keeps s0 (State.joinTally s i a) := by
  unfold State.joinTally
  with_reducible repeat' (first
    | assumption | intro _ | apply State.answerArrival_keeps | apply State.notActed_keeps | apply State.setHub_keeps
    | apply State.tryRelease_keeps | apply Keeps.ite | split | dsimp only)

theorem State.settleArrivals_keeps {s0 : State} (s : State) (which : Nat → Arrival → Bool) (hs : Keeps s0 s) :
    Keeps s0 (State.settleArrivals s which) := by
  unfold State.settleArrivals
  exact Keeps.foldl _ _ _ (State.modFabric_keeps _ _ hs) fun _ _ h => State.joinTally_keeps _ _ _ h

theorem State.initCore_keeps {s0 : State} (s : State) (t q : Nat) (w : LumfyWord) (hs : Keeps s0 s) :
    Keeps s0 (State.initCore s t q w) := by
  unfold State.initCore
  with_reducible repeat' (first
    | assumption | apply State.zeroD_keeps | apply State.claimHub_keeps | apply State.initAt_keeps | apply State.settleArrivals_keeps
    | apply State.complete_keeps | apply State.sendSignal_keeps | apply Keeps.ite | split | dsimp only)

theorem execSyncInit_keeps (team : Nat) (x : Args) (s : State) (t : State)
    (h : execSyncInit team x s = .next t) : Keeps s t := by
  cases h
  with_reducible repeat' (first
    | assumption | exact Keeps.rfl' _ | intro _ | apply State.issue_keeps | apply State.initCore_keeps
    | apply Keeps.ite | dsimp only)

theorem execBarrierArrival_keeps (index : Nat) (s : State) (t : State)
    (h : execBarrierArrival index s = .next t) : Keeps s t := by
  cases h
  with_reducible repeat' (first
    | assumption | exact Keeps.rfl' _ | intro _ | apply State.modFabric_keeps | apply State.joinTally_keeps | split
    | dsimp only)

theorem State.completeRemote_keeps {s0 : State} (s : State) (x : Incoming) (hs : Keeps s0 s) :
    Keeps s0 (State.completeRemote s x) := by
  unfold State.completeRemote
  with_reducible repeat' (first
    | assumption | apply State.modFabric_keeps | apply State.deliver_keeps | apply State.mirrorsResume_keeps
    | apply State.notePoison_keeps | apply State.keepReleases_keeps | dsimp only)

theorem State.releasePlaced_keeps {s0 : State} (s : State) (i : Nat) (hs : Keeps s0 s) :
    Keeps s0 (State.releasePlaced s i) := by
  unfold State.releasePlaced
  with_reducible repeat' (first
    | assumption | intro _ | apply State.completeArrival_keeps | apply State.setHub_keeps
    | apply State.keepReleases_keeps | apply Keeps.foldl | split | dsimp only)

theorem execBarrierRelease_keeps (index : Nat) (s : State) (t : State)
    (h : execBarrierRelease index s = .next t) : Keeps s t := by
  cases h
  with_reducible repeat' (first
    | assumption | exact Keeps.rfl' _ | intro _ | apply State.releasePlaced_keeps | apply State.completeRemote_keeps
    | apply State.modFabric_keeps | apply Keeps.foldl | apply Keeps.ite | split | dsimp only)

theorem State.voidTally_keeps {s0 : State} (s : State) (i : Nat) (o : HubObj) (hs : Keeps s0 s) :
    Keeps s0 (State.voidTally s i o) := by
  unfold State.voidTally
  with_reducible repeat' (first
    | assumption | intro _ | apply State.setHub_keeps | apply State.modFabric_keeps
    | apply State.answerArrival_keeps | apply Keeps.foldl | dsimp only)

theorem State.absentAt_keeps {s0 : State} (s : State) (pc : W16) (covered : Bool) (i : Nat) (hs : Keeps s0 s) :
    Keeps s0 (State.absentAt s pc covered i) := by
  unfold State.absentAt
  with_reducible repeat' (first
    | assumption | intro _ | apply State.setHub_keeps | apply State.sendRelease_keeps | apply State.voidTally_keeps
    | apply Keeps.foldl | apply Keeps.ite | split | dsimp only)

theorem State.absentRole_keeps {s0 : State} (s : State) (pc : W16) (covered : Bool) (hs : Keeps s0 s) :
    Keeps s0 (State.absentRole s pc covered) := by
  unfold State.absentRole
  with_reducible repeat' (first
    | assumption | intro _ | apply State.absentAt_keeps | apply Keeps.foldl | dsimp only)

theorem State.returnRole_keeps {s0 : State} (s : State) (pc : W16) (hs : Keeps s0 s) :
    Keeps s0 (State.returnRole s pc) := by
  unfold State.returnRole
  with_reducible repeat' (first
    | assumption | intro _ | apply State.setHub_keeps | apply State.sendJoins_keeps | apply Keeps.foldl
    | apply Keeps.ite | split | dsimp only)

theorem execReleaseRelay_keeps (index : Nat) (release : Release) (s : State) (t : State)
    (h : execReleaseRelay index release s = .next t) : Keeps s t := by
  cases h
  with_reducible repeat' (first
    | assumption | exact Keeps.rfl' _ | apply State.setHub_keeps | apply Keeps.ite | split | dsimp only)

theorem execHomeRelayWindowEnd_keeps (index : Nat) (s : State) (t : State)
    (h : execHomeRelayWindowEnd index s = .next t) : Keeps s t := by
  cases h
  with_reducible repeat' (first
    | assumption | exact Keeps.rfl' _ | intro _ | apply State.sendRelease_keeps | apply State.keepReleases_keeps | apply State.completeArrival_keeps
    | apply State.setHub_keeps | apply State.sendJoins_keeps | apply State.voidTally_keeps | apply Keeps.foldl
    | apply Keeps.ite | split | dsimp only)

/-! ### Engines -/

theorem State.issueTeam_keeps {s0 : State} (s : State) (t : Nat) (w : LumfyWord)
    (f : State → Nat → List Nat → State) (hs : Keeps s0 s) (hf : ∀ s' x0 x1, Keeps s0 s' → Keeps s0 (f s' x0 x1)) :
    Keeps s0 (State.issueTeam s t w f) := by
  unfold State.issueTeam
  with_reducible repeat' (first
    | assumption | apply hf | apply State.bumpFree_keeps | apply State.nextPc_keeps | apply State.settle_keeps
    | apply Keeps.ite | split | dsimp only)

theorem State.putAll_keeps {s0 : State} (s : State) (t : Nat) (qs : List Nat) (w : LumfyWord) (v : W64)
    (hs : Keeps s0 s) :
    Keeps s0 (State.putAll s t qs w v) := by
  unfold State.putAll
  with_reducible repeat' (first
    | assumption | intro _ | apply State.complete_keeps | apply Keeps.foldl | dsimp only)

theorem State.awaitAll_keeps {s0 : State} (s : State) (t : Nat) (qs : List Nat) (w : LumfyWord) (hs : Keeps s0 s) :
    Keeps s0 (State.awaitAll s t qs w) := by
  unfold State.awaitAll
  with_reducible repeat' (first
    | assumption | intro _ | apply State.await_keeps | apply Keeps.foldl | dsimp only)

theorem State.deliverAll_keeps {s0 : State} (s : State) (t tag : Nat) (v : W64) (hs : Keeps s0 s) :
    Keeps s0 (State.deliverAll s t tag v) := by
  unfold State.deliverAll
  with_reducible repeat' (first
    | assumption | intro _ | apply State.deliver_keeps | apply Keeps.foldl | dsimp only)

theorem State.refuseAll_keeps {s0 : State} (s : State) (t q : Nat) (qs : List Nat) (w : LumfyWord) (hs : Keeps s0 s) :
    Keeps s0 (State.refuseAll s t q qs w) := by
  unfold State.refuseAll
  with_reducible repeat' (first
    | assumption | apply State.putAll_keeps | apply State.finish_keeps)

theorem State.engineWrite_keeps {s0 : State} (s : State) (t : Nat) (u : EngineUnit) (p : Place) (a : Nat)
    (bytes : List Byte) (hs : Keeps s0 s) :
    Keeps s0 (State.engineWrite s t u p a bytes) := by
  unfold State.engineWrite
  with_reducible repeat' (first
    | assumption | apply State.store_keeps)

/-! ### Courier -/

theorem State.busWrite_keeps {s0 : State} (s : State) (cells : List (Nat × Byte)) (hs : Keeps s0 s) :
    Keeps s0 (State.busWrite s cells) := by
  unfold State.busWrite
  with_reducible repeat' (first
    | assumption | apply State.store_keeps | (apply Keeps.upd; first | assumption | apply State.store_keeps)
    | dsimp only)

theorem tmHere_keeps {s0 : State} (s : State) (t q : Nat) (w : LumfyWord) (d a : TileDesc) (v : Nat)
    (hs : Keeps s0 s) :
    Keeps s0 (tmHere s t q w d a v) := by
  unfold tmHere
  with_reducible repeat' (first
    | assumption | apply State.finish_keeps | apply tcopyLocal_keeps | apply tfillLocal_keeps | apply Keeps.ite
    | split | dsimp only)

theorem State.endTransfer_keeps {s0 : State} (s : State) (r : Transfer) (hs : Keeps s0 s) :
    Keeps s0 (State.endTransfer s r) := by
  unfold State.endTransfer
  with_reducible repeat' (first
    | assumption | intro _ | apply tmHere_keeps | apply State.finish_keeps | apply State.store_keeps | split
    | dsimp only)

theorem State.runTransfers_keeps {s0 : State} (n t q : Nat) (s : State) (hs : Keeps s0 s) :
    Keeps s0 (State.runTransfers n t q s) := by
  induction n generalizing s with
  | zero => exact hs
  | succ n ih =>
    unfold State.runTransfers
    dsimp only
    split
    · exact hs
    · split
      · exact ih _ (State.deliver_keeps _ _ _ _ _ (State.endTransfer_keeps _ _ (State.modFabric_keeps _ _ hs)))
      · exact hs

theorem State.moveOn_keeps {s0 : State} (s : State) (t q : Nat) (hs : Keeps s0 s) :
    Keeps s0 (State.moveOn s t q) := State.runTransfers_keeps _ _ _ _ hs

theorem State.answerTransfer_keeps {s0 : State} (s : State) (t q tag : Nat) (at_ : Nat) (data : List Byte)
    (dropped : Bool) (hs : Keeps s0 s) :
    Keeps s0 (State.answerTransfer s t q tag at_ data dropped) := by
  unfold State.answerTransfer
  with_reducible repeat' (first
    | assumption | apply State.modFabric_keeps | apply State.moveOn_keeps)

theorem State.sendPiece_keeps {s0 : State} (s : State) (t q tag : Nat) (pc : W16) (a n : Nat) (data : Option (List Byte)) (hs : Keeps s0 s) :
    Keeps s0 (State.sendPiece s t q tag pc a n data) := by
  unfold State.sendPiece
  with_reducible repeat' (first
    | assumption | intro _ | apply State.answerTransfer_keeps | apply State.sendOp_keeps | apply Keeps.ite
    | apply Keeps.ite_fst | split | dsimp only)

theorem State.startTransfer_keeps {s0 : State} (s : State) (w : LumfyWord) (r : Transfer)
    (pieces : List (Nat × Nat)) (bytes : Nat → Nat → Option (List Byte)) (hs : Keeps s0 s) :
    Keeps s0 (State.startTransfer s w r pieces bytes) := by
  unfold State.startTransfer
  with_reducible repeat' (first
    | assumption | intro _ | apply State.await_keeps | apply State.modFabric_keeps | apply State.sendPiece_keeps
    | apply State.moveOn_keeps | apply Keeps.foldl | dsimp only)

theorem tcopyFrom_keeps {s0 : State} (s : State) (t q : Nat) (w : LumfyWord) (d a : TileDesc) (hs : Keeps s0 s) :
    Keeps s0 (tcopyFrom s t q w d a) := by
  unfold tcopyFrom
  with_reducible repeat' (first
    | assumption | apply State.startTransfer_keeps)

theorem fabricStore_keeps {s0 : State} (s : State) (t q : Nat) (w : LumfyWord) (d : TileDesc) (img : Memory)
    (dropped : Bool) (hs : Keeps s0 s) :
    Keeps s0 (fabricStore s t q w d img dropped) := by
  unfold fabricStore
  with_reducible repeat' (first
    | assumption | intro _ | apply State.markExternal_keeps | apply State.store_keeps
    | apply State.startTransfer_keeps | apply Keeps.foldl | split | dsimp only)

theorem tcopyTo_keeps {s0 : State} (s : State) (t q : Nat) (w : LumfyWord) (d a : TileDesc) (hs : Keeps s0 s) :
    Keeps s0 (tcopyTo s t q w d a) := by
  unfold tcopyTo
  with_reducible repeat' (first
    | assumption | apply fabricStore_keeps)

theorem tmLocal_keeps {s0 : State} (s : State) (t q : Nat) (w : LumfyWord) (d a : TileDesc) (v : Nat)
    (hs : Keeps s0 s) :
    Keeps s0 (tmLocal s t q w d a v) := by
  unfold tmLocal
  with_reducible repeat' (first
    | assumption | intro _ | apply State.await_keeps | apply State.modFabric_keeps | apply tmHere_keeps
    | apply Keeps.ite | split | dsimp only)

theorem execTcopy_keeps (team : Nat) (x : Args) (s : State) (t : State)
    (h : execTcopy team x s = .next t) : Keeps s t := by
  cases h
  with_reducible repeat' (first
    | assumption | exact Keeps.rfl' _ | intro _ | apply State.issueTiles_keeps | apply tmLocal_keeps
    | apply tcopyFrom_keeps | apply tcopyTo_keeps | apply Keeps.ite | split | dsimp only)

theorem execTfill_keeps (team : Nat) (x : Args) (s : State) (t : State)
    (h : execTfill team x s = .next t) : Keeps s t := by
  cases h
  with_reducible repeat' (first
    | assumption | exact Keeps.rfl' _ | intro _ | apply State.issueTiles_keeps | apply fabricStore_keeps
    | apply tmLocal_keeps | apply Keeps.ite | split | dsimp only)

/-! ### Scan -/

theorem scanCore_keeps {s0 : State} (op : AccOp) (heads : Bool) (s : State) (t q : Nat) (w : LumfyWord)
    (hs : Keeps s0 s) :
    Keeps s0 (scanCore op heads s t q w) := by
  unfold scanCore
  with_reducible repeat' (first
    | assumption | intro _ | apply State.finish_keeps | apply State.storeTile_keeps | apply State.vectorDone_keeps
    | apply Keeps.ite | split | dsimp only)

theorem vredCore_keeps {s0 : State} (op : AccOp) (s : State) (t q : Nat) (w : LumfyWord) (hs : Keeps s0 s) :
    Keeps s0 (vredCore op s t q w) := by
  unfold vredCore
  with_reducible repeat' (first
    | assumption | intro _ | apply State.finish_keeps | apply State.vectorDone_keeps | apply Keeps.ite | split
    | dsimp only)

theorem segredCore_keeps {s0 : State} (op : AccOp) (s : State) (t q : Nat) (w : LumfyWord) (hs : Keeps s0 s) :
    Keeps s0 (segredCore op s t q w) := by
  unfold segredCore
  with_reducible repeat' (first
    | assumption | intro _ | apply State.finish_keeps | apply State.storeTile_keeps | apply Keeps.ite | split
    | dsimp only)

theorem execVredAdd_keeps (team : Nat) (x : Args) (s : State) (t : State)
    (h : execVredAdd team x s = .next t) : Keeps s t := by
  cases h
  with_reducible repeat' (first
    | assumption | exact Keeps.rfl' _ | intro _ | apply State.issueTiles_keeps | apply vredCore_keeps | dsimp only)

theorem execVredMax_keeps (team : Nat) (x : Args) (s : State) (t : State)
    (h : execVredMax team x s = .next t) : Keeps s t := by
  cases h
  with_reducible repeat' (first
    | assumption | exact Keeps.rfl' _ | intro _ | apply State.issueTiles_keeps | apply vredCore_keeps | dsimp only)

theorem execVredMin_keeps (team : Nat) (x : Args) (s : State) (t : State)
    (h : execVredMin team x s = .next t) : Keeps s t := by
  cases h
  with_reducible repeat' (first
    | assumption | exact Keeps.rfl' _ | intro _ | apply State.issueTiles_keeps | apply vredCore_keeps | dsimp only)

theorem execScan_keeps (op : ScanOp) (team : Nat) (x : Args) (s : State) (t : State)
    (h : execScan op team x s = .next t) : Keeps s t := by
  cases h
  with_reducible repeat' (first
    | assumption | exact Keeps.rfl' _ | intro _ | apply State.issueTiles_keeps | apply scanCore_keeps | dsimp only)

theorem execSegscan_keeps (op : ScanOp) (team : Nat) (x : Args) (s : State) (t : State)
    (h : execSegscan op team x s = .next t) : Keeps s t := by
  cases h
  with_reducible repeat' (first
    | assumption | exact Keeps.rfl' _ | intro _ | apply State.issueTiles_keeps | apply scanCore_keeps | dsimp only)

theorem execSegred_keeps (op : RedOp) (team : Nat) (x : Args) (s : State) (t : State)
    (h : execSegred op team x s = .next t) : Keeps s t := by
  cases h
  with_reducible repeat' (first
    | assumption | exact Keeps.rfl' _ | intro _ | apply State.issueTiles_keeps | apply segredCore_keeps | dsimp only)

end Sys2Proof.Machine
end

