-- ==== Sys2Proof/Laws/KeepsFabric.lean ====
section
/-! SUPPORT. What is kept (Laws/Keeps.lean) by the command packets, collectives, mailbags, the sampler, the row and update engines and received frames: one lemma for each operation. -/

namespace Sys2Proof.Machine

open Sys2Proof

/-! ### Coll -/

theorem State.failColl_keeps {s0 : State} (s : State) (role : W16) (number : W32) (status : W16) (hs : Keeps s0 s) :
    Keeps s0 (State.failColl s role number status) := by
  unfold State.failColl
  with_reducible repeat' (first
    | assumption | apply State.modFabric_keeps)

theorem State.collDrop_keeps {s0 : State} (s : State) (role : W16) (number : W32) (hs : Keeps s0 s) :
    Keeps s0 (State.collDrop s role number) := by
  unfold State.collDrop
  with_reducible repeat' (first
    | assumption | apply State.modFabric_keeps)

theorem State.keepEarly_keeps {s0 : State} (s : State) (role : W16) (number : W32) (src : W16) (m : CollMsg)
    (hs : Keeps s0 s) :
    Keeps s0 (State.keepEarly s role number src m) := by
  unfold State.keepEarly
  with_reducible repeat' (first
    | assumption | apply State.modFabric_keeps)

theorem State.sendColl_keeps {s0 : State} (s : State) (c : Coll) (dest : W16) (cls : Nat) (payload : List Byte)
    (hs : Keeps s0 s) :
    Keeps s0 (State.sendColl s c dest cls payload) := by
  unfold State.sendColl
  with_reducible repeat' (first
    | assumption | intro _ | apply State.keepEarly_keeps | apply State.sendFrame_keeps | apply State.modFabric_keeps
    | apply State.failColl_keeps | apply Keeps.ite | apply Keeps.ite_fst | refine Keeps.of_fst (by assumption) ?_
    | split | dsimp only)

theorem State.queueBag_keeps {s0 : State} (s : State) (c : Coll) (dest ch : W16) (index : Nat) (data : List Byte)
    (hs : Keeps s0 s) :
    Keeps s0 (State.queueBag s c dest ch index data) := by
  unfold State.queueBag
  with_reducible repeat' (first
    | assumption | apply State.modFabric_keeps)

theorem State.sendTransfer_keeps {s0 : State} (s : State) (c : Coll) (dest : W16) (before : Nat) (data : List Byte) (hs : Keeps s0 s) :
    Keeps s0 (State.sendTransfer s c dest before data) := by
  unfold State.sendTransfer
  with_reducible repeat' (first
    | assumption | intro _ | apply State.sendColl_keeps | apply State.queueBag_keeps | apply Keeps.foldl
    | apply Keeps.foldl_fst | apply Keeps.ite | apply Keeps.ite_fst | split | dsimp only)

theorem State.sendResult_keeps {s0 : State} (s : State) (c : Coll) (data : List Byte) (hs : Keeps s0 s) :
    Keeps s0 (State.sendResult s c data) := by
  unfold State.sendResult
  with_reducible repeat' (first
    | assumption | intro _ | apply State.sendTransfer_keeps | apply Keeps.foldl | dsimp only)

theorem State.setColl_keeps {s0 : State} (s : State) (c : Coll) (hs : Keeps s0 s) :
    Keeps s0 (State.setColl s c) := by
  unfold State.setColl
  with_reducible repeat' (first
    | assumption | apply State.modFabric_keeps)

theorem State.collWrite_keeps {s0 : State} (s : State) (c : Coll) (a : Nat) (data : List Byte) (hs : Keeps s0 s) :
    Keeps s0 (State.collWrite s c a data) := by
  unfold State.collWrite
  with_reducible repeat' (first
    | assumption | apply State.engineWrite_keeps | apply State.setColl_keeps)

theorem State.collReduce_keeps {s0 : State} (s : State) (c : Coll) (hs : Keeps s0 s) :
    Keeps s0 (State.collReduce s c) := by
  unfold State.collReduce
  with_reducible repeat' (first
    | assumption | intro _ | apply State.setColl_keeps | apply State.collWrite_keeps | apply State.sendResult_keeps
    | apply Keeps.ite | split | dsimp only)

theorem State.advance_keeps {s0 : State} (s : State) (role : W16) (number : W32) (hs : Keeps s0 s) :
    Keeps s0 (State.advance s role number) := by
  unfold State.advance
  with_reducible repeat' (first
    | assumption | intro _ | apply State.collReduce_keeps | apply Keeps.ite | split | dsimp only)

theorem State.collData_keeps {s0 : State} (s : State) (c : Coll) (i chunk index : Nat) (data : List Byte)
    (hs : Keeps s0 s) :
    Keeps s0 (State.collData s c i chunk index data) := by
  unfold State.collData
  with_reducible repeat' (first
    | assumption | intro _ | apply State.setColl_keeps | apply State.collWrite_keeps | apply Keeps.ite | split
    | dsimp only)

theorem State.collMismatch_keeps {s0 : State} (s : State) (c : Coll) (src : W16) (hs : Keeps s0 s) :
    Keeps s0 (State.collMismatch s c src) := by
  unfold State.collMismatch
  with_reducible repeat' (first
    | assumption | intro _ | apply State.sendColl_keeps | apply State.failColl_keeps | apply Keeps.foldl
    | apply Keeps.ite | split | dsimp only)

theorem State.takeHaloBag_keeps {s0 : State} (s : State) (c : Coll) (src : W16) (p : List Byte) (hs : Keeps s0 s) :
    Keeps s0 (State.takeHaloBag s c src p) := by
  unfold State.takeHaloBag
  with_reducible repeat' (first
    | assumption | apply State.busWrite_keeps | apply State.sendColl_keeps | apply State.setColl_keeps
    | apply Keeps.ite | split | dsimp only)

theorem State.collTake_keeps {s0 : State} (s : State) (c : Coll) (src : W16) (m : CollMsg) (hs : Keeps s0 s) :
    Keeps s0 (State.collTake s c src m) := by
  unfold State.collTake
  with_reducible repeat' (first
    | assumption | apply State.failColl_keeps | apply State.collDrop_keeps | apply State.collMismatch_keeps
    | apply State.setColl_keeps | apply State.advance_keeps | apply State.collData_keeps
    | apply State.takeHaloBag_keeps | apply Keeps.ite | split | dsimp only)

theorem State.abortSender_keeps {s0 : State} (s : State) (role : W16) (number : W32) (src : W16) (c : W32)
    (hs : Keeps s0 s) : Keeps s0 (State.abortSender s role number src c) :=
  Keeps.ite _ (State.keepEarly_keeps _ _ _ _ _ hs) (State.sendFrame_keeps _ _ _ _ _ _ _ _ hs)

theorem State.collMessage_keeps {s0 : State} (s : State) (role : W16) (number : W32) (src : W16) (m : CollMsg)
    (hs : Keeps s0 s) :
    Keeps s0 (State.collMessage s role number src m) := by
  unfold State.collMessage
  with_reducible repeat' (first
    | assumption | apply State.collTake_keeps | apply State.keepEarly_keeps | apply State.abortSender_keeps
    | apply Keeps.ite | split | dsimp only)

theorem State.takeEarly_keeps {s0 : State} (s : State) (role : W16) (number : W32) (hs : Keeps s0 s) :
    Keeps s0 (State.takeEarly s role number) := by
  unfold State.takeEarly
  with_reducible repeat' (first
    | assumption | intro _ | apply State.modFabric_keeps | apply State.collTake_keeps | apply Keeps.foldl | split
    | dsimp only)

theorem State.haloPart_keeps {s0 : State} (s : State) (c : Coll) (dest : W16) (off : Nat) (data : List Byte)
    (last : Bool) (hs : Keeps s0 s) :
    Keeps s0 (State.haloPart s c dest off data last) := by
  unfold State.haloPart
  with_reducible repeat' (first
    | assumption | intro _ | apply State.sendFrame_keeps | apply State.modFabric_keeps | apply State.collDrop_keeps
    | apply Keeps.ite | apply Keeps.ite_fst | refine Keeps.of_fst (by assumption) ?_ | split | dsimp only)

theorem State.haloHere_keeps {s0 : State} (s : State) (c : Coll) (x : Ctx) (off : Nat) (data : List Byte)
    (hs : Keeps s0 s) :
    Keeps s0 (State.haloHere s c x off data) := by
  unfold State.haloHere
  with_reducible repeat' (first
    | assumption | apply State.store_keeps | apply State.collDrop_keeps | apply Keeps.ite | split | dsimp only)

theorem State.haloSend_keeps {s0 : State} (s : State) (c : Coll) (x : Ctx) (m : Memory) (number : Nat) (e : HaloEntry)
    (hs : Keeps s0 s) : Keeps s0 (State.haloSend s c x m number e) := by
  unfold State.haloSend
  with_reducible repeat' (first
    | assumption | intro _ | apply State.collDrop_keeps | apply State.haloHere_keeps | apply State.setColl_keeps
    | apply State.keepEarly_keeps | apply State.haloPart_keeps | apply State.queueBag_keeps | apply Keeps.foldl
    | apply Keeps.foldl_fst | apply Keeps.ite | apply Keeps.ite_fst | split | (apply Keeps.upd; first | assumption)
    | dsimp only)

theorem State.collOwn_keeps {s0 : State} (s : State) (c : Coll) (x : Ctx) (hs : Keeps s0 s) :
    Keeps s0 (State.collOwn s c x) := by
  unfold State.collOwn
  with_reducible repeat' (first
    | assumption | intro _ | apply State.drop_keeps | apply State.sendTransfer_keeps | apply State.setColl_keeps
    | apply State.collDrop_keeps | apply State.haloSend_keeps | apply State.failColl_keeps
    | apply State.sendResult_keeps | apply State.collWrite_keeps | apply Keeps.foldl | apply Keeps.ite | split
    | dsimp only)

theorem State.beginColl_keeps {s0 : State} (s : State) (c : Coll) (hs : Keeps s0 s) :
    Keeps s0 (State.beginColl s c) := by
  unfold State.beginColl
  with_reducible repeat' (first
    | assumption | intro _ | apply State.sendColl_keeps | apply State.setColl_keeps | apply State.collOwn_keeps
    | apply State.failColl_keeps | apply State.advance_keeps | apply State.takeEarly_keeps | apply Keeps.foldl | split
    | dsimp only)

theorem State.beginNext_keeps {s0 : State} (s : State) (hs : Keeps s0 s) :
    Keeps s0 (State.beginNext s) := by
  unfold State.beginNext
  with_reducible repeat' (first
    | assumption | intro _ | apply State.beginColl_keeps | apply Keeps.ite | split | dsimp only)

theorem State.collCore_keeps {s0 : State} (s : State) (t q : Nat) (w : LumfyWord) (hs : Keeps s0 s) :
    Keeps s0 (State.collCore s t q w) := by
  unfold State.collCore
  with_reducible repeat' (first
    | assumption | intro _ | apply State.markExternal_keeps | apply State.await_keeps | apply State.modFabric_keeps
    | apply State.beginNext_keeps | apply State.zeroD_keeps | apply Keeps.ite | split | dsimp only)

theorem execCollRedscat_keeps (team : Nat) (x : Args) (s : State) (t : State)
    (h : execCollRedscat team x s = .next t) : Keeps s t := by
  cases h
  with_reducible repeat' (first
    | assumption | exact Keeps.rfl' _ | intro _ | apply State.issue_keeps | apply State.collCore_keeps | dsimp only)

theorem execCollAllgather_keeps (team : Nat) (x : Args) (s : State) (t : State)
    (h : execCollAllgather team x s = .next t) : Keeps s t := by
  cases h
  with_reducible repeat' (first
    | assumption | exact Keeps.rfl' _ | intro _ | apply State.issue_keeps | apply State.collCore_keeps | dsimp only)

theorem execCollAllreduce_keeps (team : Nat) (x : Args) (s : State) (t : State)
    (h : execCollAllreduce team x s = .next t) : Keeps s t := by
  cases h
  with_reducible repeat' (first
    | assumption | exact Keeps.rfl' _ | intro _ | apply State.issue_keeps | apply State.collCore_keeps | dsimp only)

theorem execCollBcast_keeps (team : Nat) (x : Args) (s : State) (t : State)
    (h : execCollBcast team x s = .next t) : Keeps s t := by
  cases h
  with_reducible repeat' (first
    | assumption | exact Keeps.rfl' _ | intro _ | apply State.issue_keeps | apply State.collCore_keeps | dsimp only)

theorem execCollHalo_keeps (team : Nat) (x : Args) (s : State) (t : State)
    (h : execCollHalo team x s = .next t) : Keeps s t := by
  cases h
  with_reducible repeat' (first
    | assumption | exact Keeps.rfl' _ | intro _ | apply State.issue_keeps | apply State.collCore_keeps | dsimp only)

theorem State.collUndo_keeps {s0 : State} (s : State) (c : Coll) (hs : Keeps s0 s) :
    Keeps s0 (State.collUndo s c) := by
  unfold State.collUndo
  with_reducible repeat' (first
    | assumption | apply State.bumpFree_keeps | apply State.writeStack_keeps)

theorem State.collAnswer_keeps {s0 : State} (s : State) (c : Coll) (hs : Keeps s0 s) :
    Keeps s0 (State.collAnswer s c) := by
  unfold State.collAnswer
  with_reducible repeat' (first
    | assumption | intro _ | apply State.finish_keeps | apply State.deliver_keeps | apply State.modCtx_keeps
    | apply Keeps.ite | split | dsimp only)

theorem State.endColl_keeps {s0 : State} (s : State) (role : W16) (number : W32) (hs : Keeps s0 s) :
    Keeps s0 (State.endColl s role number) := by
  unfold State.endColl
  with_reducible repeat' (first
    | assumption | intro _ | apply State.modFabric_keeps | apply State.collUndo_keeps | apply State.collAnswer_keeps
    | apply State.beginNext_keeps | apply Keeps.ite | split | dsimp only)

theorem execCollectiveComplete_keeps (role : W16) (number : W32) (s : State) (t : State)
    (h : execCollectiveComplete role number s = .next t) : Keeps s t := by
  cases h
  with_reducible repeat' (first
    | assumption | exact Keeps.rfl' _ | apply State.takeEarly_keeps | apply State.endColl_keeps | apply Keeps.ite
    | split | dsimp only)

/-! ### Sampler -/

theorem State.modSampler_keeps {s0 : State} (s : State) (t : Nat) (f : Sampler → Sampler) (hs : Keeps s0 s) :
    Keeps s0 (State.modSampler s t f) := by
  unfold State.modSampler
  with_reducible repeat' (first
    | assumption | intro _ | apply State.modTeam_keeps | dsimp only)

theorem State.takeSample_keeps {s0 : State} (s : State) (t : Nat) (u : UnitReq) (hs : Keeps s0 s) :
    Keeps s0 (State.takeSample s t u) := by
  unfold State.takeSample
  with_reducible repeat' (first
    | assumption | intro _ | apply State.deliverAll_keeps | apply State.finish_keeps | apply State.complete_keeps
    | apply State.modSampler_keeps | split | dsimp only)

theorem execSamplerTakeRequest_keeps (team : Nat) (s : State) (t : State)
    (h : execSamplerTakeRequest team s = .next t) : Keeps s t := by
  cases h
  with_reducible repeat' (first
    | assumption | exact Keeps.rfl' _ | intro _ | apply State.bumpFree_keeps | apply State.modSampler_keeps
    | apply State.takeSample_keeps | apply Keeps.ite | split | dsimp only)

theorem State.issueSample_keeps {s0 : State} (s : State) (t : Nat) (w : LumfyWord) (hs : Keeps s0 s) :
    Keeps s0 (State.issueSample s t w) := by
  unfold State.issueSample
  with_reducible repeat' (first
    | assumption | intro _ | apply State.issueTeam_keeps | apply State.awaitAll_keeps | apply State.modSampler_keeps
    | apply State.refuseAll_keeps | apply Keeps.ite | split | dsimp only)

theorem execSampleUniform_keeps (team : Nat) (x : Args) (s : State) (t : State)
    (h : execSampleUniform team x s = .next t) : Keeps s t := by
  cases h
  with_reducible repeat' (first
    | assumption | exact Keeps.rfl' _ | apply State.issueSample_keeps)

theorem execSampleWeighted_keeps (team : Nat) (x : Args) (s : State) (t : State)
    (h : execSampleWeighted team x s = .next t) : Keeps s t := by
  cases h
  with_reducible repeat' (first
    | assumption | exact Keeps.rfl' _ | apply State.issueSample_keeps)

theorem execSampleRecent_keeps (team : Nat) (x : Args) (s : State) (t : State)
    (h : execSampleRecent team x s = .next t) : Keeps s t := by
  cases h
  with_reducible repeat' (first
    | assumption | exact Keeps.rfl' _ | apply State.issueSample_keeps)

theorem execSampleWalk_keeps (team : Nat) (x : Args) (s : State) (t : State)
    (h : execSampleWalk team x s = .next t) : Keeps s t := by
  cases h
  with_reducible repeat' (first
    | assumption | exact Keeps.rfl' _ | apply State.issueSample_keeps)

theorem State.finishParcel_keeps {s0 : State} (s : State) (t slot : Nat) (p : Parcel) (hs : Keeps s0 s) :
    Keeps s0 (State.finishParcel s t slot p) := by
  unfold State.finishParcel
  with_reducible repeat' (first
    | assumption | apply State.store_keeps | apply State.modSampler_keeps | apply State.complete_keeps)

theorem execParcelInfo_keeps (team : Nat) (x : Args) (s : State) (t : State)
    (h : execParcelInfo team x s = .next t) : Keeps s t := by
  cases h
  with_reducible repeat' (first
    | assumption | exact Keeps.rfl' _ | intro _ | apply State.issueTeam_keeps | apply State.putAll_keeps
    | apply State.refuseAll_keeps | apply Keeps.ite | split | dsimp only)

theorem execParcelFree_keeps (team : Nat) (x : Args) (s : State) (t : State)
    (h : execParcelFree team x s = .next t) : Keeps s t := by
  cases h
  with_reducible repeat' (first
    | assumption | exact Keeps.rfl' _ | intro _ | apply State.issueTeam_keeps | apply State.modSampler_keeps
    | apply State.complete_keeps | apply State.refuseAll_keeps | apply Keeps.ite | split | dsimp only)

/-! ### Rows -/

theorem State.modTable_keeps {s0 : State} (s : State) (c : W32) (n : Nat) (f : Table → Table) (hs : Keeps s0 s) :
    Keeps s0 (State.modTable s c n f) := by
  unfold State.modTable
  with_reducible repeat' (first
    | assumption | intro _ | apply State.modCtx_keeps | split | dsimp only)

theorem State.modRows_keeps {s0 : State} (s : State) (t : Nat) (f : RowEngine → RowEngine) (hs : Keeps s0 s) :
    Keeps s0 (State.modRows s t f) := by
  unfold State.modRows
  with_reducible repeat' (first
    | assumption | intro _ | apply State.modTeam_keeps | dsimp only)

theorem execTblPrefetch_keeps (team : Nat) (x : Args) (s : State) (t : State)
    (h : execTblPrefetch team x s = .next t) : Keeps s t := by
  cases h
  with_reducible repeat' (first
    | assumption | exact Keeps.rfl' _ | intro _ | apply State.issueTeam_keeps | apply State.modRows_keeps
    | apply State.putAll_keeps | apply State.finish_keeps | apply State.refuseAll_keeps | apply Keeps.ite | split
    | dsimp only)

theorem State.prefetchOut_keeps {s0 : State} (s : State) (t : Nat) (x : RowSlot) (status : Nat) (hs : Keeps s0 s) :
    Keeps s0 (State.prefetchOut s t x status) := by
  unfold State.prefetchOut
  with_reducible repeat' (first
    | assumption | apply State.engineWrite_keeps)

theorem State.parcelReady_keeps {s0 : State} (s : State) (t : Nat) (h : W64) (p : Parcel) (slot : Nat)
    (hs : Keeps s0 s) :
    Keeps s0 (State.parcelReady s t h p slot) := by
  unfold State.parcelReady
  with_reducible repeat' (first
    | assumption | intro _ | apply State.modRows_keeps | apply State.prefetchOut_keeps
    | apply State.signalDone_keeps | apply Keeps.ite | split | dsimp only)

theorem execParcelComplete_keeps (team : Nat) (s : State) (t : State)
    (h : execParcelComplete team s = .next t) : Keeps s t := by
  cases h
  with_reducible repeat' (first
    | assumption | exact Keeps.rfl' _ | intro _ | apply State.complete_keeps | apply State.bumpFree_keeps
    | apply State.finishParcel_keeps | apply State.parcelReady_keeps | apply State.signalDone_keeps
    | apply Keeps.foldl | split | dsimp only)

theorem execStagingStart_keeps (team : Nat) (s : State) (t : State)
    (h : execStagingStart team s = .next t) : Keeps s t := by
  cases h
  with_reducible repeat' (first
    | assumption | exact Keeps.rfl' _ | intro _ | apply State.modRows_keeps | split | dsimp only)

theorem State.stageRow_keeps {s0 : State} (s : State) (t : Nat) (u : EngineUnit) (k : Table) (x : RowSlot) (i : Nat)
    (value : Option (List Byte)) (hs : Keeps s0 s) :
    Keeps s0 (State.stageRow s t u k x i value) := by
  unfold State.stageRow
  with_reducible repeat' (first
    | assumption | apply State.engineWrite_keeps)

theorem execStagingComplete_keeps (team slot : Nat) (s : State) (t : State)
    (h : execStagingComplete team slot s = .next t) : Keeps s t := by
  cases h
  with_reducible repeat' (first
    | assumption | exact Keeps.rfl' _ | intro _ | apply State.stageRow_keeps | apply State.bumpFree_keeps
    | apply State.modRows_keeps | apply State.prefetchOut_keeps | apply State.addEventsFor_keeps
    | apply State.signalDone_keeps | apply Keeps.foldl | apply Keeps.ite | split | dsimp only)

theorem execPrefetchDeadline_keeps (team slot : Nat) (s : State) (t : State)
    (h : execPrefetchDeadline team slot s = .next t) : Keeps s t := by
  cases h
  with_reducible repeat' (first
    | assumption | exact Keeps.rfl' _ | intro _ | apply State.modRows_keeps | apply State.lateEvent_keeps
    | apply Keeps.ite | split | dsimp only)

theorem execTblRelease_keeps (team : Nat) (x : Args) (s : State) (t : State)
    (h : execTblRelease team x s = .next t) : Keeps s t := by
  cases h
  with_reducible repeat' (first
    | assumption | exact Keeps.rfl' _ | intro _ | apply State.issueTeam_keeps | apply State.modRows_keeps
    | apply State.refuseAll_keeps | apply Keeps.ite | split | dsimp only)

theorem execTblVersion_keeps (team : Nat) (x : Args) (s : State) (t : State)
    (h : execTblVersion team x s = .next t) : Keeps s t := by
  cases h
  with_reducible repeat' (first
    | assumption | exact Keeps.rfl' _ | intro _ | apply State.issueTeam_keeps | apply State.putAll_keeps
    | apply State.refuseAll_keeps | split | dsimp only)

theorem execPlacementWindowEnd_keeps (team : Nat) (choice : PlaceChoice) (s : State) (t : State)
    (h : execPlacementWindowEnd team choice s = .next t) : Keeps s t := by
  cases h
  with_reducible repeat' (first
    | assumption | exact Keeps.rfl' _ | intro _ | apply State.modRows_keeps | apply Keeps.ite | split | dsimp only)

theorem execMigrationDrained_keeps (team : Nat) (s : State) (t : State)
    (h : execMigrationDrained team s = .next t) : Keeps s t := by
  cases h
  with_reducible repeat' (first
    | assumption | exact Keeps.rfl' _ | intro _ | apply State.modRows_keeps | apply Keeps.ite | split | dsimp only)

theorem execMigrationSwapped_keeps (team : Nat) (s : State) (t : State)
    (h : execMigrationSwapped team s = .next t) : Keeps s t := by
  cases h
  with_reducible repeat' (first
    | assumption | exact Keeps.rfl' _ | intro _ | apply State.modRows_keeps | apply Keeps.ite | split
    | (apply Keeps.upd; first | assumption | exact Keeps.rfl' _) | dsimp only)

theorem State.writeHot_keeps {s0 : State} (s : State) (c : W32) (table row : Nat) (value : List Byte) (hs : Keeps s0 s) :
    Keeps s0 (State.writeHot s c table row value) := by
  unfold State.writeHot
  refine Keeps.upd _ ?_ ..
  refine Keeps.updMem _ hs (h1 := State.MemOk.stack) (h2 := State.MemOk.host)
    (h3 := fun m => teamsOk_map m.teams _ fun x h => ?_) (h4 := State.MemOk.ctxs) (h5 := State.MemOk.snaps) ..
  dsimp only
  split <;> exact h

theorem State.refreshStaged_keeps {s0 : State} (s : State) (c : W32) (table row : Nat) (hs : Keeps s0 s) :
    Keeps s0 (State.refreshStaged s c table row) := by
  unfold State.refreshStaged
  with_reducible repeat' (first
    | assumption | intro _ | apply State.stageRow_keeps | apply Keeps.foldl | apply Keeps.ite | split | dsimp only)

/-! ### Update -/

theorem State.modUpd_keeps {s0 : State} (s : State) (t : Nat) (f : UpdEngine → UpdEngine) (hs : Keeps s0 s) :
    Keeps s0 (State.modUpd s t f) := by
  unfold State.modUpd
  with_reducible repeat' (first
    | assumption | intro _ | apply State.modTeam_keeps | dsimp only)

theorem State.queueUpdate_keeps {s0 : State} (s : State) (t q : Nat) (qs : List Nat) (w : LumfyWord) (u : UpdReq)
    (hs : Keeps s0 s) :
    Keeps s0 (State.queueUpdate s t q qs w u) := by
  unfold State.queueUpdate
  with_reducible repeat' (first
    | assumption | apply State.modUpd_keeps | apply State.putAll_keeps | apply State.finish_keeps)

theorem execUpdTensor_keeps (team : Nat) (x : Args) (s : State) (t : State)
    (h : execUpdTensor team x s = .next t) : Keeps s t := by
  cases h
  with_reducible repeat' (first
    | assumption | exact Keeps.rfl' _ | intro _ | apply State.issueTeam_keeps | apply State.queueUpdate_keeps
    | apply State.refuseAll_keeps | apply Keeps.ite | split | dsimp only)

theorem execUpdRows_keeps (team : Nat) (x : Args) (s : State) (t : State)
    (h : execUpdRows team x s = .next t) : Keeps s t := by
  cases h
  with_reducible repeat' (first
    | assumption | exact Keeps.rfl' _ | intro _ | apply State.issueTeam_keeps | apply State.queueUpdate_keeps
    | apply State.refuseAll_keeps | apply Keeps.ite | split | dsimp only)

theorem execUpdNorm_keeps (team : Nat) (x : Args) (s : State) (t : State)
    (h : execUpdNorm team x s = .next t) : Keeps s t := by
  cases h
  with_reducible repeat' (first
    | assumption | exact Keeps.rfl' _ | intro _ | apply State.issueTeam_keeps | apply State.awaitAll_keeps
    | apply State.modUpd_keeps | apply State.refuseAll_keeps | apply Keeps.ite | split | dsimp only)

theorem execUpdNormComplete_keeps (team : Nat) (s : State) (t : State)
    (h : execUpdNormComplete team s = .next t) : Keeps s t := by
  cases h
  with_reducible repeat' (first
    | assumption | exact Keeps.rfl' _ | intro _ | apply State.bumpFree_keeps | apply State.modUpd_keeps
    | apply State.engineWrite_keeps | apply State.deliverAll_keeps | apply State.finish_keeps | split | dsimp only)

theorem execUpdateRequestBegin_keeps (team : Nat) (s : State) (t : State)
    (h : execUpdateRequestBegin team s = .next t) : Keeps s t := by
  cases h
  with_reducible repeat' (first
    | assumption | exact Keeps.rfl' _ | intro _ | apply State.modUpd_keeps | apply State.addEventsFor_keeps
    | apply Keeps.ite | split | dsimp only)

theorem State.writePieces_keeps {s0 : State} (s : State) (t since : Nat) (l : List (Nat × List Byte))
    (hs : Keeps s0 s) :
    Keeps s0 (State.writePieces s t since l) := by
  unfold State.writePieces
  with_reducible repeat' (first
    | assumption | apply State.store_keeps)

theorem State.countUpdate_keeps {s0 : State} (s : State) (reason : Nat) (hs : Keeps s0 s) :
    Keeps s0 (State.countUpdate s reason) := by
  unfold State.countUpdate
  with_reducible repeat' (first
    | assumption | apply Keeps.ite | split | (apply Keeps.upd; first | assumption) | dsimp only)

theorem State.markBlock_keeps {s0 : State} (s : State) (u : UpdReq) (b : Block) (hs : Keeps s0 s) :
    Keeps s0 (State.markBlock s u b) := by
  unfold State.markBlock
  with_reducible repeat' (first
    | assumption | intro _ | apply State.modCtx_keeps
    | exact ⟨And.left (by assumption), launchesOk_modWhere (And.right (by assumption)) _ _ fun _ h => h⟩
    | dsimp only)

theorem State.finishTensor_keeps {s0 : State} (s : State) (t : Nat) (u : UpdReq) (c : UpdConsts)
    (rest : List UpdReq) (hs : Keeps s0 s) :
    Keeps s0 (State.finishTensor s t u c rest) := by
  unfold State.finishTensor
  with_reducible repeat' (first
    | assumption | intro _ | apply State.markBlock_keeps | apply State.modUpd_keeps | apply State.writePieces_keeps
    | apply State.engineWrite_keeps | apply State.addEventsFor_keeps | apply State.countUpdate_keeps
    | apply State.signalDone_keeps | apply Keeps.foldl | apply Keeps.ite | split | dsimp only)

theorem State.mirrorEnds_keeps {s0 : State} (s : State) (c : W32) (table : Nat) (hs : Keeps s0 s) :
    Keeps s0 (State.mirrorEnds s c table) := by
  unfold State.mirrorEnds
  with_reducible repeat' (first
    | assumption | intro _ | apply State.modTable_keeps | apply State.pulse_keeps | apply Keeps.ite | split
    | (apply Keeps.upd; first | assumption | apply State.modTable_keeps | apply State.pulse_keeps) | dsimp only)

theorem State.sendMirror_keeps {s0 : State} (s : State) (c : W32) (t table row : Nat) (k : Table)
    (slice : List Byte) (hs : Keeps s0 s) :
    Keeps s0 (State.sendMirror s c t table row k slice) := by
  unfold State.sendMirror
  with_reducible repeat' (first
    | assumption | intro _ | apply State.sendOp_keeps | apply State.drop_keeps | apply State.mirrorEnds_keeps
    | apply Keeps.foldl | apply Keeps.ite | split | dsimp only)

theorem State.writeRow_keeps {s0 : State} (s : State) (c : W32) (t since table row : Nat) (k : Table)
    (slice : List Byte) (hs : Keeps s0 s) :
    Keeps s0 (State.writeRow s c t since table row k slice) := by
  unfold State.writeRow
  with_reducible repeat' (first
    | assumption | apply State.writePieces_keeps | apply State.writeHot_keeps | apply State.refreshStaged_keeps
    | apply State.sendMirror_keeps)

theorem State.putBlock_keeps {s0 : State} (s : State) (c : W32) (t since : Nat) (b : Block) (hs : Keeps s0 s) :
    Keeps s0 (State.putBlock s c t since b) := by
  unfold State.putBlock
  with_reducible repeat' (first
    | assumption | intro _ | apply State.writePieces_keeps | apply State.writeRow_keeps | apply Keeps.foldl | split
    | dsimp only)

theorem State.rowsOut_keeps {s0 : State} (s : State) (t : Nat) (u : UpdReq) (k : Table) (status reason : Nat)
    (hs : Keeps s0 s) :
    Keeps s0 (State.rowsOut s t u k status reason) := by
  unfold State.rowsOut
  with_reducible repeat' (first
    | assumption | apply State.engineWrite_keeps)

theorem State.endMember_keeps {s0 : State} (s : State) (k : Table) (q : Nat × UpdReq) (hs : Keeps s0 s) :
    Keeps s0 (State.endMember s k q) := by
  unfold State.endMember
  with_reducible repeat' (first
    | assumption | apply State.rowsOut_keeps | apply State.addEventsFor_keeps | apply State.signalDone_keeps)

theorem State.dropSkipped_keeps {s0 : State} (s : State) (c : W32) (which : UpdReq → Bool) (hs : Keeps s0 s) :
    Keeps s0 (State.dropSkipped s c which) := State.modCtx_keeps _ _ _ hs fun _ h => h

theorem State.endSet_keeps {s0 : State} (s : State) (set : List (Nat × UpdReq)) (k : Table) (reason : Nat)
    (hs : Keeps s0 s) :
    Keeps s0 (State.endSet s set k reason) := by
  unfold State.endSet
  with_reducible repeat' (first
    | assumption | intro _ | apply State.modUpd_keeps | apply State.endMember_keeps | apply State.countUpdate_keeps
    | apply State.dropSkipped_keeps | apply Keeps.foldl | dsimp only)

theorem State.endSkipped_keeps {s0 : State} (s : State) (t : Nat) (u : UpdReq) (k : Table) (rest : List UpdReq)
    (hs : Keeps s0 s) : Keeps s0 (State.endSkipped s t u k rest) := by
  unfold State.endSkipped
  extract_lets s1 leave team s2 s3 ended
  have h1 : Keeps s0 s1 := State.modCtx_keeps _ _ _ (State.modUpd_keeps _ _ _ hs) fun _ h => h
  have h2 : Keeps s0 s2 := Keeps.updMem _ h1 (h1 := State.MemOk.stack)
    (h2 := State.MemOk.host) (h3 := fun m => teamsOk_map m.teams _ fun _ h => h) (h4 := State.MemOk.ctxs)
    (h5 := State.MemOk.snaps) ..
  have h3 : Keeps s0 s3 := State.endMember_keeps _ _ _ h2
  split
  · exact State.countUpdate_keeps _ _ (State.dropSkipped_keeps _ _ _ h3)
  · exact h3

theorem State.doneBlocks_keeps {s0 : State} (s : State) (u : UpdReq) (hs : Keeps s0 s) :
    Keeps s0 (State.doneBlocks s u) := by
  unfold State.doneBlocks
  with_reducible repeat' (first
    | assumption | intro _ | apply State.modCtx_keeps | apply Keeps.ite
    | exact ⟨And.left (by assumption), launchesOk_modWhere (And.right (by assumption)) _ _ fun _ h => h⟩ | split
    | dsimp only)

theorem State.finishSet_keeps {s0 : State} (s : State) (t : Nat) (u : UpdReq) (c : UpdConsts) (rest : List UpdReq)
    (hs : Keeps s0 s) :
    Keeps s0 (State.finishSet s t u c rest) := by
  unfold State.finishSet
  with_reducible repeat' (first
    | assumption | intro _ | apply State.endSkipped_keeps | apply State.endSet_keeps | apply State.markBlock_keeps
    | apply State.putBlock_keeps | apply State.modUpd_keeps | apply State.drop_keeps | apply State.doneBlocks_keeps
    | apply Keeps.foldl | apply Keeps.ite | split | dsimp only)

theorem State.endHeldSets_keeps {s0 : State} (s : State) (c : W32) (hs : Keeps s0 s) :
    Keeps s0 (State.endHeldSets s c) := by
  unfold State.endHeldSets
  with_reducible repeat' (first
    | assumption | intro _ | apply State.doneBlocks_keeps | apply State.endSet_keeps | apply Keeps.foldl
    | apply Keeps.ite | split | dsimp only)

theorem State.leaveBlocks_keeps {s0 : State} (s : State) (inOrder : Bool) (t : Nat) (hs : Keeps s0 s) :
    Keeps s0 (State.leaveBlocks s inOrder t) := by
  unfold State.leaveBlocks
  with_reducible repeat' (first
    | assumption | intro _ | apply State.putBlock_keeps | apply State.bumpFree_keeps | apply Keeps.foldl | split
    | dsimp only)

theorem State.answerRead_keeps {s0 : State} (s : State) (f : Frame) (r : Role) (hs : Keeps s0 s) :
    Keeps s0 (State.answerRead s f r) := by
  unfold State.answerRead
  with_reducible repeat' (first
    | assumption | intro _ | apply State.answer_keeps | apply State.sendFrame_keeps | apply State.modCtx_keeps
    | apply Keeps.ite | apply Keeps.ite_fst | refine Keeps.of_fst (by assumption) ?_ | split | dsimp only)

theorem State.takeRead_keeps {s0 : State} (s : State) (f : Frame) (r : Role) (hs : Keeps s0 s) :
    Keeps s0 (State.takeRead s f r) := by
  unfold State.takeRead
  with_reducible repeat' (first
    | assumption | intro _ | apply State.modFabric_keeps | apply State.answerRead_keeps | apply Keeps.ite | split
    | dsimp only)

theorem State.answerCopies_keeps {s0 : State} (s : State) (hs : Keeps s0 s) :
    Keeps s0 (State.answerCopies s) := by
  unfold State.answerCopies
  with_reducible repeat' (first
    | assumption | intro _ | apply State.takeRead_keeps | apply State.modFabric_keeps | apply Keeps.foldl | split
    | dsimp only)

theorem execUpdateRequestComplete_keeps (team : Nat) (s : State) (t : State)
    (h : execUpdateRequestComplete team s = .next t) : Keeps s t := by
  cases h
  with_reducible repeat' (first
    | assumption | exact Keeps.rfl' _ | apply State.bumpFree_keeps | apply State.finishSet_keeps
    | apply State.offerHeld_keeps | apply State.answerCopies_keeps | apply State.finishTensor_keeps
    | apply Keeps.ite | split | dsimp only)

theorem State.endIncomplete_keeps {s0 : State} (s : State) (c : W32) (seq : W64) (hs : Keeps s0 s) :
    Keeps s0 (State.endIncomplete s c seq) := by
  unfold State.endIncomplete
  with_reducible repeat' (first
    | assumption | intro _ | apply State.modUpd_keeps | apply State.engineWrite_keeps
    | apply State.addEventsFor_keeps | apply State.signalDone_keeps | apply Keeps.foldl | dsimp only)

/-! ### Commands -/

theorem State.modCmds_keeps {s0 : State} (s : State) (c : W32) (f : CmdState → CmdState) (hs : Keeps s0 s) :
    Keeps s0 (State.modCmds s c f) := by
  unfold State.modCmds
  with_reducible repeat' (first
    | assumption | (apply Keeps.upd; first | assumption) | dsimp only)

theorem State.modCmd_keeps {s0 : State} (s : State) (c : W32) (seq : W64) (f : Cmd → Cmd) (hs : Keeps s0 s) :
    Keeps s0 (State.modCmd s c seq f) := by
  unfold State.modCmd
  with_reducible repeat' (first
    | assumption | apply State.modCmds_keeps)

theorem State.finishCmd_keeps {s0 : State} (s : State) (c : W32) (seq : W64) (status a b : Nat) (hs : Keeps s0 s) :
    Keeps s0 (State.finishCmd s c seq status a b) := by
  unfold State.finishCmd
  with_reducible repeat' (first
    | assumption | apply State.modCmd_keeps)

theorem State.finishRef_keeps {s0 : State} (s : State) (r : CmdRef) (status a b : Nat) (hs : Keeps s0 s) :
    Keeps s0 (State.finishRef s r status a b) := by
  unfold State.finishRef
  with_reducible repeat' (first
    | assumption | apply State.finishCmd_keeps)

theorem State.flushCmds_keeps {s0 : State} : ∀ (n : Nat) (a : W32) (s : State), Keeps s0 s → Keeps s0 (State.flushCmds n a s) := by
  intro n
  induction n with
  | zero => intro a s h; exact h
  | succ n ih =>
    intro a s h
    unfold State.flushCmds
    with_reducible repeat' (first
      | assumption | intro _ | apply ih | apply State.modCmds_keeps | apply State.pushReply_keeps | split
      | dsimp only)

theorem State.completeCmd_keeps {s0 : State} (s : State) (c : W32) (seq : W64) (hs : Keeps s0 s) :
    Keeps s0 (State.completeCmd s c seq) := by
  unfold State.completeCmd
  with_reducible repeat' (first
    | assumption | intro _ | apply State.modCmds_keeps | apply State.pulse_keeps | apply State.flushCmds_keeps
    | apply Keeps.ite | apply Keeps.ite_fst | refine Keeps.of_fst (by assumption) ?_ | split | dsimp only)

theorem State.dropUnfenced_keeps {s0 : State} (s : State) (teams : List Nat) (hs : Keeps s0 s) :
    Keeps s0 (State.dropUnfenced s teams) := by
  unfold State.dropUnfenced
  with_reducible repeat' (first
    | assumption | intro _ | (apply Keeps.upd; first | assumption) | dsimp only)

theorem State.tryFinishLaunch_keeps {s0 : State} (s : State) (c : W32) (seq : W64) (hs : Keeps s0 s) :
    Keeps s0 (State.tryFinishLaunch s c seq) := by
  unfold State.tryFinishLaunch
  with_reducible repeat' (first
    | assumption | intro _ | apply State.modCtx_keeps | apply State.dropUnfenced_keeps | apply State.finishCmd_keeps
    | apply Keeps.ite | exact ⟨And.left (by assumption), launchesOk_filter (And.right (by assumption)) _⟩ | split
    | dsimp only)

theorem State.abandonAll_keeps {s0 : State} (s : State) (c : W32) (keep : W64 → Bool) (hs : Keeps s0 s) :
    Keeps s0 (State.abandonAll s c keep).1 := by
  unfold State.abandonAll
  with_reducible repeat' (first
    | assumption | intro _ | apply State.bumpFree_keeps | apply State.modCmd_keeps | apply State.completeCmd_keeps
    | apply Keeps.foldl | apply Keeps.foldl_fst | dsimp only)

theorem State.yieldHeld_keeps {s0 : State} (s : State) (r : Role) (hs : Keeps s0 s) :
    Keeps s0 (State.yieldHeld s r) := by
  unfold State.yieldHeld
  with_reducible repeat' (first
    | assumption | intro _ | apply State.abandonAll_keeps | apply State.bumpFree_keeps | apply Keeps.ite
    | apply Keeps.ite_fst | refine Keeps.of_fst (by assumption) ?_ | split | dsimp only)

theorem State.setTake_keeps {s0 : State} (s : State) (f : Faults → Faults) (hs : Keeps s0 s) :
    Keeps s0 (State.setTake s f) := State.pulse_keeps _ _ (Keeps.upd _ hs ..)

theorem State.endTake_keeps {s0 : State} (s : State) (state : TakeState) (status : Nat) (hs : Keeps s0 s) :
    Keeps s0 (State.endTake s state status) := by
  unfold State.endTake
  with_reducible repeat' (first
    | assumption | apply State.finishRef_keeps | apply State.setTake_keeps | split | dsimp only)

theorem State.takeFails_keeps {s0 : State} (s : State) (pc : W16) (hs : Keeps s0 s) :
    Keeps s0 (State.takeFails s pc) := Keeps.ite _ (State.endTake_keeps _ _ _ hs) hs

theorem State.supersede_keeps {s0 : State} (s : State) (pc : W16) (hs : Keeps s0 s) :
    Keeps s0 (State.supersede s pc) := by
  unfold State.supersede
  with_reducible repeat' (first
    | assumption | intro _ | apply State.yieldHeld_keeps | apply State.takeFails_keeps | apply State.modFabric_keeps
    | apply State.pulse_keeps | split | dsimp only)

theorem State.dropArrivals_keeps {s0 : State} (s : State) (c : W32) (hs : Keeps s0 s) :
    Keeps s0 (State.dropArrivals s c) := State.modFabric_keeps _ _ hs

theorem State.stopCtx_keeps {s0 : State} (s : State) (c : W32) (teams : List Nat) (orderly : Bool) (hs : Keeps s0 s) :
    Keeps s0 (State.stopCtx s c teams orderly) := by
  unfold State.stopCtx
  refine State.modFabric_keeps _ _ (State.dropUnfenced_keeps _ _ (State.modCtx_keeps _ _ _
    (State.withdrawRemote_keeps _ _ (State.dropArrivals_keeps _ _ ?_)) fun x h => ⟨h.1, launchesOk_nil⟩))
  exact Keeps.foldl _ _ _ (Keeps.foldl _ _ _ hs fun s t h => State.leaveBlocks_keeps _ _ _ h) fun s t h =>
    State.modTeam_keeps _ _ _ h fun _ hk => Team.memOk_halt hk

theorem State.faultContext_keeps {s0 : State} (s : State) (c : W32) (hs : Keeps s0 s) : Keeps s0 (State.faultContext s c) := by
  unfold State.faultContext
  split
  · exact hs
  · have h1 := State.pulse_keeps _ (64 + fnOf c) (State.abandonAll_keeps s c (fun _ => false) hs)
    refine State.modCtx_keeps _ _ _ ?_ fun x h => ⟨teamsOk_map h.1 _ fun _ hk => Team.memOk_halt hk, launchesOk_nil⟩
    split
    · exact State.stopCtx_keeps _ _ _ _ h1
    · exact h1

/-! ### Mailbags -/

theorem State.divert_keeps {s0 : State} (s : State) (m : Mailbag) (hs : Keeps s0 s) :
    Keeps s0 (State.divert s m) := by
  unfold State.divert
  with_reducible repeat' (first
    | assumption | intro _ | apply State.modStats_keeps | apply State.sendFrame_keeps | apply Keeps.foldl
    | apply Keeps.foldl_fst | apply Keeps.ite | apply Keeps.ite_fst | refine Keeps.of_fst (by assumption) ?_ | split
    | dsimp only)

theorem State.returnBag_keeps {s0 : State} (s : State) (m : Mailbag) (port : Nat) (hs : Keeps s0 s) :
    Keeps s0 (State.returnBag s m port) := by
  unfold State.returnBag
  with_reducible repeat' (first
    | assumption | intro _ | apply State.modStats_keeps | apply State.transmit_keeps | apply State.park_keeps
    | apply Keeps.ite | split | dsimp only)

theorem State.putBag_keeps {s0 : State} (s : State) (p : Nat) (m : Mailbag) (payer : Nat) (hs : Keeps s0 s) :
    Keeps s0 (State.putBag s p m payer) := by
  unfold State.putBag
  with_reducible repeat' (first
    | assumption | apply State.emitOut_keeps | apply State.modFabric_keeps | apply State.chargeLink_keeps)

theorem State.retain_keeps {s0 : State} (s : State) (m : Mailbag) (port : Option Nat) (hs : Keeps s0 s) :
    Keeps s0 (State.retain s m port) := by
  unfold State.retain
  with_reducible repeat' (first
    | assumption | apply State.modFabric_keeps)

theorem execSlotSend_keeps (entry : Nat) (s : State) (t : State)
    (h : execSlotSend entry s = .next t) : Keeps s t := by
  cases h
  with_reducible repeat' (first
    | assumption | exact Keeps.rfl' _ | intro _ | apply State.modFabric_keeps | apply State.putBag_keeps
    | apply State.retain_keeps | apply State.divert_keeps | apply Keeps.ite | split | dsimp only)

theorem State.openBag_keeps {s0 : State} (s : State) (m : Mailbag) (hs : Keeps s0 s) :
    Keeps s0 (State.openBag s m) := by
  unfold State.openBag
  with_reducible repeat' (first
    | assumption | apply State.collMessage_keeps)

theorem State.openEarly_keeps {s0 : State} : ∀ (n : Nat) (a : Nat) (s : State), Keeps s0 s → Keeps s0 (State.openEarly n a s) := by
  intro n
  induction n with
  | zero => intro a s h; exact h
  | succ n ih =>
    intro a s h
    unfold State.openEarly
    with_reducible repeat' (first
      | assumption | intro _ | apply ih | apply State.modFabric_keeps | apply State.openBag_keeps | split
      | dsimp only)

theorem State.deliverBag_keeps {s0 : State} (s : State) (m : Mailbag) (hs : Keeps s0 s) :
    Keeps s0 (State.deliverBag s m) := by
  unfold State.deliverBag
  with_reducible repeat' (first
    | assumption | intro _ | apply State.modFabric_keeps | apply State.openEarly_keeps | apply State.openBag_keeps
    | apply State.sendFrame_keeps | apply Keeps.ite | apply Keeps.ite_fst | refine Keeps.of_fst (by assumption) ?_
    | split | dsimp only)

theorem State.countCorrected_keeps {s0 : State} (s : State) (hs : Keeps s0 s) :
    Keeps s0 (State.countCorrected s) := by
  unfold State.countCorrected
  with_reducible repeat' (first
    | assumption | apply State.modStats_keeps)

theorem State.receiveBag_keeps {s0 : State} (s : State) (m : Mailbag) (port : Nat) (hs : Keeps s0 s) :
    Keeps s0 (State.receiveBag s m port) := by
  unfold State.receiveBag
  split
  · exact hs
  · split
    · exact State.deliverBag_keeps _ _ hs
    · split
      · exact State.returnBag_keeps _ _ _ hs
      · exact State.returnBag_keeps _ _ _ (State.supersede_keeps _ _ hs)

theorem State.displace_keeps {s0 : State} (s : State) (p : Nat) (r : Retained) (hs : Keeps s0 s) :
    Keeps s0 (State.displace s p r) := by
  unfold State.displace
  with_reducible repeat' (first
    | assumption | apply State.modFabric_keeps | apply State.divert_keeps)

theorem State.forwardBag_keeps {s0 : State} (s : State) (p : Nat) (m : Mailbag) (hs : Keeps s0 s) :
    Keeps s0 (State.forwardBag s p m) := by
  unfold State.forwardBag
  with_reducible repeat' (first
    | assumption | apply State.divert_keeps | apply State.displace_keeps | apply State.putBag_keeps
    | apply Keeps.ite | split | dsimp only)

theorem execMailbagArrive_keeps (port : Nat) (bag : Mailbag) (corrected damaged : Bool) (s : State) (t : State)
    (h : execMailbagArrive port bag corrected damaged s = .next t) : Keeps s t := by
  cases h
  with_reducible repeat' (first
    | assumption | exact Keeps.rfl' _ | intro _ | apply State.countCorrected_keeps | apply State.holdAsleep_keeps
    | apply State.receiveBag_keeps | apply State.forwardBag_keeps | apply State.divert_keeps
    | apply State.modStats_keeps | apply Keeps.ite | split | dsimp only)

theorem State.resendBag_keeps {s0 : State} (s : State) (r : Retained) (hs : Keeps s0 s) :
    Keeps s0 (State.resendBag s r) := by
  unfold State.resendBag
  with_reducible repeat' (first
    | assumption | apply State.modFabric_keeps | apply State.modStats_keeps | apply State.divert_keeps)

theorem execMailbagResendTimeout_keeps (channel : W16) (chanSeq : W32) (s : State) (t : State)
    (h : execMailbagResendTimeout channel chanSeq s = .next t) : Keeps s t := by
  cases h
  with_reducible repeat' (first
    | assumption | exact Keeps.rfl' _ | intro _ | apply State.resendBag_keeps | apply Keeps.ite | split | dsimp only)

theorem State.takeAck_keeps {s0 : State} (s : State) (origin dest : W16) (p : List Byte) (hs : Keeps s0 s) :
    Keeps s0 (State.takeAck s origin dest p) := by
  unfold State.takeAck
  with_reducible repeat' (first
    | assumption | intro _ | apply State.modFabric_keeps | apply State.resendBag_keeps | apply Keeps.foldl
    | apply Keeps.ite | split | dsimp only)

theorem State.sendAcks_keeps {s0 : State} (s : State) (hs : Keeps s0 s) :
    Keeps s0 (State.sendAcks s) := by
  unfold State.sendAcks
  with_reducible repeat' (first
    | assumption | intro _ | apply State.sendFrame_keeps | apply State.modFabric_keeps | apply Keeps.foldl
    | apply Keeps.foldl_fst | apply Keeps.ite | apply Keeps.ite_fst | refine Keeps.of_fst (by assumption) ?_ | split
    | dsimp only)

theorem State.takeWhole_keeps {s0 : State} (s : State) (m : Mailbag) (port : Nat) (hs : Keeps s0 s) :
    Keeps s0 (State.takeWhole s m port) := by
  unfold State.takeWhole
  with_reducible repeat' (first
    | assumption | apply State.bumpFree_keeps | apply State.countCorrected_keeps | apply State.receiveBag_keeps
    | apply Keeps.ite | split | dsimp only)

theorem State.takePart_keeps {s0 : State} (s : State) (f : Frame) (port : Nat) (hs : Keeps s0 s) :
    Keeps s0 (State.takePart s f port) := by
  unfold State.takePart
  with_reducible repeat' (first
    | assumption | intro _ | apply State.modFabric_keeps | apply State.takeWhole_keeps | apply Keeps.ite | split
    | dsimp only)

/-! ### Frames -/

theorem State.reply2_keeps {s0 : State} (s : State) (f : Frame) (code : Nat) (hs : Keeps s0 s) :
    Keeps s0 (State.reply2 s f code) := by
  unfold State.reply2
  with_reducible repeat' (first
    | assumption | apply State.sendFrame_keeps)

theorem State.takeOp_keeps {s0 : State} (s : State) (f : Frame) (r : Role) (hs : Keeps s0 s) :
    Keeps s0 (State.takeOp s f r) := by
  unfold State.takeOp
  with_reducible repeat' (first
    | assumption | intro _ | apply State.admitUnits_keeps | apply State.reply2_keeps | apply State.signal_keeps
    | apply State.initAt_keeps | apply State.settleArrivals_keeps | apply State.register_keeps | apply Keeps.ite
    | apply Keeps.ite_fst
    | refine Keeps.of_fst (by assumption) ?_ | split | (apply Keeps.upd; first | assumption) | dsimp only)

theorem State.takeArrival_keeps {s0 : State} (s : State) (f : Frame) (r : Role) (hs : Keeps s0 s) :
    Keeps s0 (State.takeArrival s f r) := by
  unfold State.takeArrival
  with_reducible repeat' (first
    | assumption | intro _ | apply State.reply2_keeps | apply State.modFabric_keeps | apply Keeps.ite | split
    | dsimp only)

theorem State.dropRemote_keeps {s0 : State} (s : State) (r : Remote) (hs : Keeps s0 s) :
    Keeps s0 (State.dropRemote s r) := by
  unfold State.dropRemote
  with_reducible repeat' (first
    | assumption | apply State.modFabric_keeps)

theorem State.remoteFault_keeps {s0 : State} (s : State) (r : Remote) (kind : FaultKind) (hs : Keeps s0 s) :
    Keeps s0 (State.remoteFault s r kind) := by
  unfold State.remoteFault
  with_reducible repeat' (first
    | assumption | intro _ | apply State.unitFault_keeps | apply State.faultNow_keeps | apply State.admitUnits_keeps
    | apply State.faultSaved_keeps | apply Keeps.ite | split | dsimp only)

theorem State.remoteZero_keeps {s0 : State} (s : State) (r : Remote) (tag : Nat) (hs : Keeps s0 s) :
    Keeps s0 (State.remoteZero s r tag) := by
  unfold State.remoteZero
  with_reducible repeat' (first
    | assumption | apply State.deliver_keeps | apply State.addEventsFor_keeps)

theorem State.mismatchHere_keeps {s0 : State} (s : State) (r : Remote) (tag index : Nat) (hs : Keeps s0 s) :
    Keeps s0 (State.mismatchHere s r tag index) := by
  unfold State.mismatchHere
  with_reducible repeat' (first
    | assumption | intro _ | apply State.deliver_keeps | apply State.remoteFault_keeps
    | apply State.failUpdates_keeps | apply Keeps.ite | split
    | (apply Keeps.upd; first | assumption | apply State.deliver_keeps | apply State.remoteFault_keeps | apply State.failUpdates_keeps)
    | dsimp only)

theorem State.lostHere_keeps {s0 : State} (s : State) (r : Remote) (tag index : Nat) (v : W64) (hs : Keeps s0 s) :
    Keeps s0 (State.lostHere s r tag index v) := by
  unfold State.lostHere
  with_reducible repeat' (first
    | assumption | apply State.deliver_keeps | apply State.remoteFault_keeps | apply State.failUpdates_keeps
    | apply State.notePoison_keeps)

theorem State.takeRelease_keeps {s0 : State} (s : State) (r : Remote) (tag index : Nat) (v step at_ : W64)
    (hs : Keeps s0 s) :
    Keeps s0 (State.takeRelease s r tag index v step at_) := by
  unfold State.takeRelease
  with_reducible repeat' (first
    | assumption | intro _ | apply State.lateEvent_keeps | apply State.completeRemote_keeps
    | apply State.modFabric_keeps | apply Keeps.ite | split | dsimp only)

theorem State.takeReply_keeps {s0 : State} (s : State) (f : Frame) (hs : Keeps s0 s) :
    Keeps s0 (State.takeReply s f) := by
  unfold State.takeReply
  with_reducible repeat' (first
    | assumption | apply State.dropRemote_keeps | apply State.signal_keeps | apply State.deliver_keeps
    | apply State.notePoison_keeps | apply State.initAway_keeps | apply State.remoteFault_keeps | apply State.addEventsFor_keeps | apply State.remoteZero_keeps
    | apply State.takeRelease_keeps | apply State.mismatchHere_keeps | apply State.lostHere_keeps
    | apply State.answerTransfer_keeps | apply State.collDrop_keeps | apply State.mirrorEnds_keeps
    | apply State.endHeldSets_keeps | apply State.offerHeld_keeps | apply State.answerCopies_keeps | apply Keeps.ite
    | apply Keeps.ite_fst | refine Keeps.of_fst (by assumption) ?_ | split | dsimp only)

theorem State.takeData_keeps {s0 : State} (s : State) (f : Frame) (hs : Keeps s0 s) :
    Keeps s0 (State.takeData s f) := by
  unfold State.takeData
  with_reducible repeat' (first
    | assumption | apply State.dropRemote_keeps | apply State.answerTransfer_keeps | apply State.drop_keeps | split
    | dsimp only)

theorem State.takeReturn_keeps {s0 : State} (s : State) (f : Frame) (hs : Keeps s0 s) :
    Keeps s0 (State.takeReturn s f) := by
  unfold State.takeReturn
  with_reducible repeat' (first
    | assumption | intro _ | apply State.modFabric_keeps | apply State.failColl_keeps | apply State.dropRemote_keeps
    | apply State.signal_keeps | apply State.remoteZero_keeps | apply State.answerTransfer_keeps
    | apply State.mirrorEnds_keeps | apply State.endHeldSets_keeps | apply State.offerHeld_keeps
    | apply State.answerCopies_keeps | apply State.collDrop_keeps | apply Keeps.ite | apply Keeps.ite_fst
    | refine Keeps.of_fst (by assumption) ?_ | split | dsimp only)

theorem State.takeWrite_keeps {s0 : State} (s : State) (f : Frame) (r : Role) (hs : Keeps s0 s) :
    Keeps s0 (State.takeWrite s f r) := by
  unfold State.takeWrite
  with_reducible repeat' (first
    | assumption | apply State.drop_keeps | apply State.reply2_keeps | apply State.busWrite_keeps
    | apply State.collMessage_keeps | apply Keeps.ite | split | dsimp only)

theorem State.takeMirror_keeps {s0 : State} (s : State) (f : Frame) (r : Role) (hs : Keeps s0 s) :
    Keeps s0 (State.takeMirror s f r) := by
  unfold State.takeMirror
  with_reducible repeat' (first
    | assumption | intro _ | apply State.drop_keeps | apply State.busWrite_keeps | apply State.reply2_keeps
    | apply Keeps.ite | split | dsimp only)

theorem State.takeColl_keeps {s0 : State} (s : State) (f : Frame) (hs : Keeps s0 s) :
    Keeps s0 (State.takeColl s f) := by
  unfold State.takeColl
  with_reducible repeat' (first
    | assumption | apply State.collMessage_keeps)

theorem State.handle_keeps {s0 : State} (s : State) (port : Nat) (f : Frame) (r : Role) (hs : Keeps s0 s) :
    Keeps s0 (State.handle s port f r) := by
  unfold State.handle
  with_reducible repeat' (first
    | assumption | apply State.takeOp_keeps | apply State.takeReply_keeps | apply State.takeWrite_keeps
    | apply State.takeRead_keeps | apply State.takeData_keeps | apply State.takeMirror_keeps
    | apply State.takePart_keeps | apply State.takeAck_keeps | apply State.takeColl_keeps
    | apply State.takeArrival_keeps | apply Keeps.ite | split | dsimp only)

theorem State.drainFlow_keeps {s0 : State} : ∀ (n : Nat) (a : Nat) (s : State), Keeps s0 s → Keeps s0 (State.drainFlow n a s) := by
  intro n
  induction n with
  | zero => intro a s h; exact h
  | succ n ih =>
    intro a s h
    unfold State.drainFlow
    with_reducible repeat' (first
      | assumption | intro _ | apply ih | apply State.modFabric_keeps | apply State.handle_keeps | split
      | dsimp only)

theorem State.accept_keeps {s0 : State} (s : State) (port : Nat) (f : Frame) (r : Role) (hs : Keeps s0 s) :
    Keeps s0 (State.accept s port f r) := by
  unfold State.accept
  with_reducible repeat' (first
    | assumption | intro _ | apply State.handle_keeps | apply State.modStats_keeps | apply State.modFabric_keeps
    | apply State.drainFlow_keeps | apply Keeps.ite | apply Keeps.ite_fst | refine Keeps.of_fst (by assumption) ?_
    | split | dsimp only)

theorem State.receive_keeps {s0 : State} (s : State) (port : Nat) (f : Frame) (isKind : Bool) (hs : Keeps s0 s) :
    Keeps s0 (State.receive s port f isKind) := by
  unfold State.receive
  split
  · exact hs
  · split
    · split
      · exact State.park_keeps _ _ _ _ _ hs
      · split
        · exact State.holdAsleep_keeps _ _ hs
        · exact State.accept_keeps _ _ _ _ hs
    · exact State.returnFrame_keeps _ _ _ hs
    · exact State.returnFrame_keeps _ _ _ (State.supersede_keeps _ _ hs)
    · exact hs

theorem execFrameForward_keeps (port : Nat) (frame : Frame) (s : State) (t : State)
    (h : execFrameForward port frame s = .next t) : Keeps s t := by
  cases h
  with_reducible repeat' (first
    | assumption | exact Keeps.rfl' _ | apply State.forward_keeps | apply State.park_keeps | apply Keeps.ite | split
    | dsimp only)

theorem execSyncOperationFrame_keeps (port : Nat) (frame : Frame) (s : State) (t : State)
    (h : execSyncOperationFrame port frame s = .next t) : Keeps s t := by
  cases h
  with_reducible repeat' (first
    | assumption | exact Keeps.rfl' _ | apply State.receive_keeps)

theorem execSyncReplyFrame_keeps (port : Nat) (frame : Frame) (s : State) (t : State)
    (h : execSyncReplyFrame port frame s = .next t) : Keeps s t := by
  cases h
  with_reducible repeat' (first
    | assumption | exact Keeps.rfl' _ | apply State.receive_keeps)

theorem execFabricWriteFrame_keeps (port : Nat) (frame : Frame) (s : State) (t : State)
    (h : execFabricWriteFrame port frame s = .next t) : Keeps s t := by
  cases h
  with_reducible repeat' (first
    | assumption | exact Keeps.rfl' _ | apply State.receive_keeps)

theorem execFabricReadRequest_keeps (port : Nat) (frame : Frame) (s : State) (t : State)
    (h : execFabricReadRequest port frame s = .next t) : Keeps s t := by
  cases h
  with_reducible repeat' (first
    | assumption | exact Keeps.rfl' _ | apply State.receive_keeps)

theorem execFabricReadData_keeps (port : Nat) (frame : Frame) (s : State) (t : State)
    (h : execFabricReadData port frame s = .next t) : Keeps s t := by
  cases h
  with_reducible repeat' (first
    | assumption | exact Keeps.rfl' _ | apply State.receive_keeps)

theorem execMirrorWrite_keeps (port : Nat) (frame : Frame) (s : State) (t : State)
    (h : execMirrorWrite port frame s = .next t) : Keeps s t := by
  cases h
  with_reducible repeat' (first
    | assumption | exact Keeps.rfl' _ | apply State.receive_keeps)

theorem execMirrorWriteAck_keeps (port : Nat) (frame : Frame) (s : State) (t : State)
    (h : execMirrorWriteAck port frame s = .next t) : Keeps s t := by
  cases h
  with_reducible repeat' (first
    | assumption | exact Keeps.rfl' _ | apply State.receive_keeps)

theorem execFabricWriteAck_keeps (port : Nat) (frame : Frame) (s : State) (t : State)
    (h : execFabricWriteAck port frame s = .next t) : Keeps s t := by
  cases h
  with_reducible repeat' (first
    | assumption | exact Keeps.rfl' _ | apply State.receive_keeps)

theorem execDivertedMailbagPart_keeps (port : Nat) (frame : Frame) (s : State) (t : State)
    (h : execDivertedMailbagPart port frame s = .next t) : Keeps s t := by
  cases h
  with_reducible repeat' (first
    | assumption | exact Keeps.rfl' _ | apply State.receive_keeps)

theorem execMailbagAcknowledgement_keeps (port : Nat) (frame : Frame) (s : State) (t : State)
    (h : execMailbagAcknowledgement port frame s = .next t) : Keeps s t := by
  cases h
  with_reducible repeat' (first
    | assumption | exact Keeps.rfl' _ | apply State.receive_keeps)

theorem execCollectiveControl_keeps (port : Nat) (frame : Frame) (s : State) (t : State)
    (h : execCollectiveControl port frame s = .next t) : Keeps s t := by
  cases h
  with_reducible repeat' (first
    | assumption | exact Keeps.rfl' _ | apply State.receive_keeps)

theorem execCollectiveDataFrame_keeps (port : Nat) (frame : Frame) (s : State) (t : State)
    (h : execCollectiveDataFrame port frame s = .next t) : Keeps s t := by
  cases h
  with_reducible repeat' (first
    | assumption | exact Keeps.rfl' _ | apply State.receive_keeps)

theorem execReturnedFrame_keeps (port : Nat) (frame : Frame) (s : State) (t : State)
    (h : execReturnedFrame port frame s = .next t) : Keeps s t := by
  cases h
  with_reducible repeat' (first
    | assumption | exact Keeps.rfl' _ | apply State.park_keeps | apply State.holdAsleep_keeps
    | apply State.takeReturn_keeps | apply State.forward_keeps | apply Keeps.ite | split | dsimp only)

theorem State.wakeFrames_keeps {s0 : State} (s : State) (hs : Keeps s0 s) :
    Keeps s0 (State.wakeFrames s) := by
  unfold State.wakeFrames
  with_reducible repeat' (first
    | assumption | intro _ | apply State.receiveBag_keeps | apply State.takeReturn_keeps | apply State.accept_keeps
    | apply State.returnFrame_keeps | apply State.modFabric_keeps | apply Keeps.foldl | apply Keeps.ite | split
    | dsimp only)

theorem execFlowBreak_keeps (src dest : W16) (s : State) (t : State)
    (h : execFlowBreak src dest s = .next t) : Keeps s t := by
  cases h
  with_reducible repeat' (first
    | assumption | exact Keeps.rfl' _ | intro _ | apply State.modFabric_keeps | apply State.park_keeps
    | apply Keeps.foldl | dsimp only)

end Sys2Proof.Machine
end

