-- ==== Sys2Proof/Laws/KeepsCommands.lean ====
section
/-! SUPPORT. What is kept (Laws/Keeps.lean) by contexts, commands, roles and spares: one lemma for each operation. -/

namespace Sys2Proof.Machine

open Sys2Proof

/-! ### Contexts -/

theorem State.poisonHub_keeps {s0 : State} (s : State) (i : Nat) (hs : Keeps s0 s) :
    Keeps s0 (State.poisonHub s i).1 := by
  unfold State.poisonHub
  with_reducible repeat' (first
    | assumption | intro _ | apply State.setHub_keeps | apply State.answerArrival_keeps | apply State.poison_keeps
    | apply Keeps.foldl | apply Keeps.foldl_fst | apply Keeps.ite | apply Keeps.ite_fst
    | refine Keeps.of_fst (by assumption) ?_ | split
    | (apply Keeps.upd; first | assumption | intro _ | apply State.setHub_keeps | apply State.answerArrival_keeps | apply State.poison_keeps | apply Keeps.foldl | apply Keeps.foldl_fst | apply Keeps.ite | apply Keeps.ite_fst | refine Keeps.of_fst (by assumption) ?_ | split)
    | dsimp only)

theorem countFold_keeps {s0 : State} {α : Type} (f : State → α → State × Nat) (s : State) (l : List α) (hs : Keeps s0 s)
    (hf : ∀ s' x, Keeps s0 s' → Keeps s0 (f s' x).1) : Keeps s0 (countFold f s l).1 := by
  unfold countFold
  exact Keeps.foldl_fst _ _ _ hs fun a x h => hf a.1 x h

theorem State.freshTeam_keeps {s0 : State} (s : State) (t : Nat) (hs : Keeps s0 s) : Keeps s0 (State.freshTeam s t) :=
  Keeps.updMem _ hs (h1 := State.MemOk.stack) (h2 := State.MemOk.host)
    (h3 := fun m => teamsOk_put m.teams _ ⟨rfl, Team.memOk_reset.2⟩) (h4 := State.MemOk.ctxs) (h5 := State.MemOk.snaps) ..

theorem State.endDoze_keeps {s0 : State} (s : State) (hs : Keeps s0 s) : Keeps s0 (State.endDoze s) :=
  Keeps.upd _ hs ..

theorem State.chargeRestore_keeps {s0 : State} (s : State) (c : W32) (x : Ctx) (us : Nat) (hs : Keeps s0 s) :
    Keeps s0 (State.chargeRestore s c x us) := by
  unfold State.chargeRestore
  exact State.modFn_keeps _ _ _ (Keeps.upd _ hs ..)

theorem State.withdraw_keeps {s0 : State} (s : State) (teams : List Nat) (hs : Keeps s0 s) :
    Keeps s0 (State.withdraw s teams) := by
  unfold State.withdraw
  with_reducible repeat' (first
    | assumption | intro _ | apply State.admitUnits_keeps | (apply Keeps.upd; first | assumption) | dsimp only)

theorem State.correctStores_keeps {s0 : State} (s : State) (teams : List Nat) (hs : Keeps s0 s) :
    Keeps s0 (State.correctStores s teams) :=
  Keeps.foldl _ _ _ hs fun _ _ h => State.correctSome_keeps _ _ _ h

theorem State.saveTeams_keeps {s0 : State} (s : State) (c : W32) (hs : Keeps s0 s) : Keeps s0 (State.saveTeams s c) := by
  unfold State.saveTeams
  split
  · exact hs
  · rename_i x e
    extract_lets saved ws s1
    have hw := State.withdraw_keeps s x.teams hs
    have h1 : Keeps s0 s1 := State.modCtx_keeps' _ _ _ hw fun m _ _ h =>
      ⟨teamsOk_of _ fun t => Team.memOk_toSave ((hs.mem m).team t) _, h.2⟩
    exact State.correctStores_keeps _ _
      (State.dropUnfenced_keeps _ _ (Keeps.foldl _ _ _ h1 fun s t h => State.freshTeam_keeps _ _ h))

theorem State.seesHost_keeps {s0 : State} (s : State) (teams : List Nat) (hs : Keeps s0 s) :
    Keeps s0 (State.seesHost s teams) := Keeps.upd _ hs ..

theorem State.restoreTeams_keeps {s0 : State} (s : State) (c : W32) (hs : Keeps s0 s) : Keeps s0 (State.restoreTeams s c) := by
  unfold State.restoreTeams
  split
  · exact hs
  · rename_i x e
    extract_lets s1 s2 s3 s4 s5
    have put : ∀ (l : SMap Team) (s : State), Keeps s0 s → (s0.MemOk → teamsOk l) →
        Keeps s0 (l.foldl (fun s t => { s with teams := mapPut s.teams t.1 t.2 }) s) := by
      intro l
      induction l with
      | nil => exact fun s h _ => h
      | cons y r ih =>
        intro s h hl
        refine ih _ ⟨h.pending, h.part, h.metal, fun m => ?_⟩ fun m z hz => hl m z (List.mem_cons_of_mem _ hz)
        have k := h.mem m
        exact ⟨k.stack, k.host, teamsOk_put k.teams _ (hl m y (by simp)), k.ctxs, k.snaps⟩
    have h1 : Keeps s0 s1 := put _ _ (State.seesHost_keeps _ _ hs) fun m => ((hs.mem m).ctx e).1
    have h2 : Keeps s0 s2 := State.modCtx_keeps _ _ _ h1 fun x h => ⟨teamsOk_nil, h.2⟩
    have h3 : Keeps s0 s3 := Keeps.foldl _ _ _ h2 fun s w h => State.register_keeps _ _ _ h
    have h4 : Keeps s0 s4 := Keeps.foldl _ _ _ h3 fun s t h => Keeps.foldl _ _ _ h fun s o h => State.evaluate_keeps _ _ _ h
    have h5 : Keeps s0 s5 := Keeps.foldl _ _ _ h4 fun s i h => State.evaluate_keeps _ _ _ h
    exact State.admitUnits_keeps _ h5

theorem State.freshTeams_keeps {s0 : State} (s : State) (teams : List Nat) (hs : Keeps s0 s) :
    Keeps s0 (State.freshTeams s teams) := by
  unfold State.freshTeams
  with_reducible repeat' (first
    | assumption | intro _ | apply State.freshTeam_keeps | apply State.dropUnfenced_keeps | apply Keeps.foldl
    | dsimp only)

theorem State.abandonMoves_keeps {s0 : State} (s : State) (x : Ctx) (hs : Keeps s0 s) :
    Keeps s0 (State.abandonMoves s x) := by
  unfold State.abandonMoves
  with_reducible repeat' (first
    | assumption | apply State.bumpFree_keeps | apply State.finishRef_keeps | apply State.completeCmd_keeps | split
    | dsimp only)

theorem State.hubBack_keeps {s0 : State} (s : State) (c : W32) (hs : Keeps s0 s) : Keeps s0 (State.hubBack s c) := by
  unfold State.hubBack
  split
  · exact State.modCtx_keeps _ _ _ (Keeps.upd _ hs ..) fun _ h => h
  · exact hs

theorem State.endFabric_keeps {s0 : State} (s : State) (c : W32) (hs : Keeps s0 s) : Keeps s0 (State.endFabric s c) :=
  Keeps.ite _ (State.forgetReleases_keeps _ _ hs) (State.takeFails_keeps _ _ (State.forgetReleases_keeps _ _ hs))

theorem State.resetSteps_keeps {s0 : State} (s : State) (c : W32) (hs : Keeps s0 s) :
    Keeps s0 (State.resetSteps s c).1 := by
  unfold State.resetSteps
  split
  · exact hs
  · extract_lets a ts s1 s2 p h s3 s4 own s5 r6 s6 g
    have ha : Keeps s0 a.1 := State.abandonAll_keeps s c (fun _ => false) hs
    split
    · have h1 : Keeps s0 s1 := State.stopCtx_keeps _ _ _ _ ha
      have h2 : Keeps s0 s2 := Keeps.updMem _ h1 (h1 := State.MemOk.stack) (h2 := State.MemOk.host)
        (h3 := fun m => teamsOk_map m.teams _ fun _ h => h) (h4 := State.MemOk.ctxs) (h5 := State.MemOk.snaps) ..
      have hp : Keeps s0 p.1 := countFold_keeps _ _ _ h2 fun s' t h => countFold_keeps _ _ _ h fun s' i h =>
        State.poison_keeps _ _ _ h
      have hh : Keeps s0 h.1 := countFold_keeps _ _ _ hp fun s' i h => State.poisonHub_keeps _ _ h
      have h3 : Keeps s0 s3 := Keeps.foldl _ _ _ (State.withdraw_keeps _ _ hh) fun s t h =>
        State.modTeam_keeps _ _ _ h fun _ hk => Team.memOk_clear hk
      exact State.abandonMoves_keeps _ _ (State.modCtx_keeps _ _ _ h3 fun _ h => h)
    · have h5 : Keeps s0 s5 := State.modCtx_keeps _ _ _
        (State.dropArrivals_keeps _ _ (State.hubBack_keeps _ _ ha)) fun x h =>
        ⟨teamsOk_map h.1 _ fun _ hk => Team.memOk_poisonSaved (Team.memOk_clear hk), launchesOk_nil⟩
      have h6 : Keeps s0 s6 := Keeps.upd _ h5 ..
      exact State.abandonMoves_keeps _ _ (countFold_keeps _ _ _ h6 fun s' i h => State.poisonHub_keeps _ _ h)

theorem State.resetContext_keeps {s0 : State} (s : State) (c : W32) (hs : Keeps s0 s) :
    Keeps s0 (State.resetContext s c).1 := by
  unfold State.resetContext
  split
  · exact hs
  · exact State.resetSteps_keeps _ _ (State.endFabric_keeps _ _ hs)

theorem State.clearHub_keeps {s0 : State} (s : State) (gone : List Nat) (hs : Keeps s0 s) :
    Keeps s0 (State.clearHub s gone) := by
  unfold State.clearHub
  exact State.modFabric_keeps _ _ (State.settleArrivals_keeps _ _ hs)

theorem State.destroyContext_keeps {s0 : State} (s : State) (c : W32) (hs : Keeps s0 s) : Keeps s0 (State.destroyContext s c) := by
  unfold State.destroyContext
  split
  · exact hs
  · extract_lets r gone s1 waits sa s2 s3
    have h1 : Keeps s0 s1 := State.clearHub_keeps _ _ (State.resetContext_keeps s c hs)
    have ha : Keeps s0 sa :=
      Keeps.foldl _ _ _ (Keeps.upd _ h1 ..) fun s w h => State.replyLost_keeps _ _ _ h
    have h2 : Keeps s0 s2 := Keeps.updMem _ ha (h1 := State.MemOk.stack) (h2 := State.MemOk.host) (h3 := State.MemOk.teams)
      (h4 := fun m => forall_filter _ _ m.ctxs) (h5 := State.MemOk.snaps) ..
    have h3 : Keeps s0 s3 := State.modFabric_keeps _ _ h2
    exact State.admitUnits_keeps _ (Keeps.ite _ (State.freshTeams_keeps _ _ h3) h3)

/-! ### Translate -/

theorem State.settleDeferred_keeps {s0 : State} (s : State) (c : W32) (x : Ctx) (hs : Keeps s0 s) :
    Keeps s0 (State.settleDeferred s c x) := by
  unfold State.settleDeferred
  with_reducible repeat' (first
    | assumption | intro _ | apply State.finishCmd_keeps | apply State.modCmd_keeps | apply Keeps.foldl
    | apply Keeps.ite | split | dsimp only)

/-! ### RegOps -/

theorem State.sqFail_keeps {s0 : State} (s : State) (f : Nat) (hs : Keeps s0 s) :
    Keeps s0 (State.sqFail s f) := by
  unfold State.sqFail
  with_reducible repeat' (first
    | assumption | apply State.modFn_keeps | apply State.pulse_keeps)

theorem State.rqFail_keeps {s0 : State} (s : State) (f : Nat) (hs : Keeps s0 s) :
    Keeps s0 (State.rqFail s f) := by
  unfold State.rqFail
  with_reducible repeat' (first
    | assumption | apply State.modFn_keeps | apply State.pulse_keeps)

theorem State.writeSqCfg_keeps {s0 : State} (s : State) (f v : Nat) (hs : Keeps s0 s) :
    Keeps s0 (State.writeSqCfg s f v) := by
  unfold State.writeSqCfg
  with_reducible repeat' (first
    | assumption | intro _ | apply State.modFn_keeps | apply State.sqFail_keeps | apply Keeps.ite | split
    | dsimp only)

theorem State.writeDoorbell_keeps {s0 : State} (s : State) (f v : Nat) (hs : Keeps s0 s) :
    Keeps s0 (State.writeDoorbell s f v) := by
  unfold State.writeDoorbell
  with_reducible repeat' (first
    | assumption | intro _ | apply State.modFn_keeps | apply State.sqFail_keeps | apply Keeps.ite | split
    | (apply Keeps.upd; first | assumption) | dsimp only)

theorem State.writeRqCfg_keeps {s0 : State} (s : State) (f v : Nat) (hs : Keeps s0 s) :
    Keeps s0 (State.writeRqCfg s f v) := by
  unfold State.writeRqCfg
  with_reducible repeat' (first
    | assumption | intro _ | apply State.modFn_keeps | apply State.flushReplies_keeps | apply State.rqFail_keeps
    | apply Keeps.ite | split | dsimp only)

theorem State.writeRqConsumed_keeps {s0 : State} (s : State) (f v : Nat) (hs : Keeps s0 s) :
    Keeps s0 (State.writeRqConsumed s f v) := by
  unfold State.writeRqConsumed
  with_reducible repeat' (first
    | assumption | intro _ | apply State.modFn_keeps | apply State.drop_keeps | apply State.flushReplies_keeps
    | apply State.rqFail_keeps | apply Keeps.ite | split | dsimp only)

theorem State.writePend_keeps {s0 : State} (s : State) (f g : Nat) (v : W32) (hs : Keeps s0 s) :
    Keeps s0 (State.writePend s f g v) := by
  unfold State.writePend
  with_reducible repeat' (first
    | assumption | apply State.modFn_keeps | apply State.refresh_keeps)

theorem State.writeMask_keeps {s0 : State} (s : State) (f g : Nat) (v : W32) (hs : Keeps s0 s) :
    Keeps s0 (State.writeMask s f g v) := by
  unfold State.writeMask
  with_reducible repeat' (first
    | assumption | apply State.modFn_keeps | apply State.refresh_keeps)

theorem State.writeRearm_keeps {s0 : State} (s : State) (f v : Nat) (hs : Keeps s0 s) :
    Keeps s0 (State.writeRearm s f v) := by
  unfold State.writeRearm
  with_reducible repeat' (first
    | assumption | intro _ | apply State.modFn_keeps | apply State.sendMessage_keeps | apply Keeps.ite | split
    | dsimp only)

theorem State.writeScSelect_keeps {s0 : State} (s : State) (who v : Nat) (hs : Keeps s0 s) :
    Keeps s0 (State.writeScSelect s who v) := by
  unfold State.writeScSelect
  with_reducible repeat' (first
    | assumption | apply Keeps.ite | split | (apply Keeps.upd; first | assumption) | dsimp only)

theorem State.popDlq_keeps {s0 : State} (s : State) (v : Nat) (hs : Keeps s0 s) :
    Keeps s0 (State.popDlq s v) := by
  unfold State.popDlq
  with_reducible repeat' (first
    | assumption | apply State.drop_keeps | apply Keeps.ite | split | (apply Keeps.upd; first | assumption)
    | dsimp only)

theorem State.writeSleep_keeps {s0 : State} (s : State) (on : Bool) (hs : Keeps s0 s) :
    Keeps s0 (State.writeSleep s on) := by
  unfold State.writeSleep
  with_reducible repeat' (first
    | assumption | split | (apply Keeps.upd; first | assumption) | dsimp only)

theorem State.writePwrFields_keeps {s0 : State} (s : State) (v : Nat) (hs : Keeps s0 s) :
    Keeps s0 (State.writePwrFields s v) := by
  unfold State.writePwrFields
  with_reducible repeat' (first
    | assumption | intro _ | apply Keeps.foldl | apply Keeps.ite | split | (apply Keeps.upd; first | assumption)
    | dsimp only)

theorem State.writeSrcCfg_keeps {s0 : State} (s : State) (src v : Nat) (hs : Keeps s0 s) :
    Keeps s0 (State.writeSrcCfg s src v) := by
  unfold State.writeSrcCfg
  with_reducible repeat' (first
    | assumption | apply Keeps.ite | split | (apply Keeps.upd; first | assumption) | dsimp only)

theorem State.writeRowPlace_keeps {s0 : State} (s : State) (v : Nat) (hs : Keeps s0 s) :
    Keeps s0 (State.writeRowPlace s v) := by
  unfold State.writeRowPlace
  with_reducible repeat' (first
    | assumption | (apply Keeps.upd; first | assumption) | dsimp only)

theorem State.writeMsix_keeps {s0 : State} (s : State) (f off v : Nat) (hs : Keeps s0 s) :
    Keeps s0 (State.writeMsix s f off v) := by
  unfold State.writeMsix
  with_reducible repeat' (first
    | assumption | intro _ | apply State.modFn_keeps | apply State.sendPending_keeps | apply Keeps.ite | split
    | dsimp only)

theorem State.ignoreWrite_keeps {s0 : State} (s : State) (hs : Keeps s0 s) :
    Keeps s0 (State.ignoreWrite s) := by
  unfold State.ignoreWrite
  with_reducible repeat' (first
    | assumption | (apply Keeps.upd; first | assumption) | dsimp only)

theorem State.writeLetterbox_keeps {s0 : State} (s : State) (f off v : Nat) (low : Bool) (hs : Keeps s0 s) :
    Keeps s0 (State.writeLetterbox s f off v low) := by
  unfold State.writeLetterbox
  with_reducible repeat' (first
    | assumption | intro _ | apply State.modFn_keeps | apply State.writeSqCfg_keeps
    | apply State.writeDoorbell_keeps | apply State.writeRqCfg_keeps | apply State.writeRqConsumed_keeps
    | apply Keeps.ite | split | dsimp only)

theorem State.writeBank_keeps {s0 : State} (s : State) (f off v : Nat) (low : Bool) (hs : Keeps s0 s) :
    Keeps s0 (State.writeBank s f off v low) := by
  unfold State.writeBank
  with_reducible repeat' (first
    | assumption | apply State.writePend_keeps | apply State.writeMask_keeps | apply State.writeRearm_keeps
    | apply Keeps.ite | split | dsimp only)

/-! ### Accept -/

theorem State.keepInHand_keeps {s0 : State} (s : State) (before : State) (f : Nat) (r : Reply) (hs : Keeps s0 s)
    (_hbefore : Keeps s0 before) :
    Keeps s0 (State.keepInHand s before f r) := by
  unfold State.keepInHand
  with_reducible repeat' (first
    | assumption | apply State.modFn_keeps)

theorem State.journal10_keeps {s0 : State} (s : State) (opcode : Nat) (p : Packet) (c : Checks) (deferred : Bool)
    (hs : Keeps s0 s) :
    Keeps s0 (State.journal10 s opcode p c deferred) := by
  unfold State.journal10
  with_reducible repeat' (first
    | assumption | apply State.modCmds_keeps | apply State.modFn_keeps | apply State.pushReply_keeps
    | apply State.keepInHand_keeps)

theorem State.takePacket_keeps {s0 : State} (s : State) (opcode : Nat) (p : Packet) (c : Checks)
    (deferred : Bool := false) (hs : Keeps s0 s) :
    Keeps s0 (State.takePacket s opcode p c deferred) := by
  unfold State.takePacket
  with_reducible repeat' (first
    | assumption | intro _ | apply State.modFn_keeps | apply State.pushReply_keeps | apply State.keepInHand_keeps
    | apply State.journal10_keeps | apply Keeps.ite | split | dsimp only)

theorem execNop_keeps (p : Packet) (s : State) (t : State)
    (h : execNop p s = .next t) : Keeps s t := by
  cases h
  with_reducible repeat' (first
    | assumption | exact Keeps.rfl' _ | apply State.takePacket_keeps)

theorem execUnlistedOpcodePacket_keeps (opcode : W16) (p : Packet) (s : State) (t : State)
    (h : execUnlistedOpcodePacket opcode p s = .next t) : Keeps s t := by
  cases h
  with_reducible repeat' (first
    | assumption | exact Keeps.rfl' _ | intro _ | apply State.pushReply_keeps | apply State.keepInHand_keeps
    | apply State.modFn_keeps | apply Keeps.ite | split | dsimp only)

theorem execLoadProgram_keeps (p : Packet) (s : State) (t : State)
    (h : execLoadProgram p s = .next t) : Keeps s t := by
  cases h
  with_reducible repeat' (first
    | assumption | exact Keeps.rfl' _ | apply State.takePacket_keeps)

theorem execLaunch_keeps (p : Packet) (s : State) (t : State)
    (h : execLaunch p s = .next t) : Keeps s t := by
  cases h
  with_reducible repeat' (first
    | assumption | exact Keeps.rfl' _ | apply State.takePacket_keeps)

theorem execTableCreate_keeps (p : Packet) (s : State) (t : State)
    (h : execTableCreate p s = .next t) : Keeps s t := by
  cases h
  with_reducible repeat' (first
    | assumption | exact Keeps.rfl' _ | apply State.takePacket_keeps)

theorem execTableReplace_keeps (p : Packet) (s : State) (t : State)
    (h : execTableReplace p s = .next t) : Keeps s t := by
  cases h
  with_reducible repeat' (first
    | assumption | exact Keeps.rfl' _ | apply State.takePacket_keeps)

theorem execGraphLoad_keeps (p : Packet) (s : State) (t : State)
    (h : execGraphLoad p s = .next t) : Keeps s t := by
  cases h
  with_reducible repeat' (first
    | assumption | exact Keeps.rfl' _ | apply State.takePacket_keeps)

theorem execContextCreate_keeps (p : Packet) (s : State) (t : State)
    (h : execContextCreate p s = .next t) : Keeps s t := by
  cases h
  with_reducible repeat' (first
    | assumption | exact Keeps.rfl' _ | apply State.takePacket_keeps)

theorem execContextPreempt_keeps (p : Packet) (s : State) (t : State)
    (h : execContextPreempt p s = .next t) : Keeps s t := by
  cases h
  with_reducible repeat' (first
    | assumption | exact Keeps.rfl' _ | apply State.takePacket_keeps)

theorem execContextResume_keeps (p : Packet) (s : State) (t : State)
    (h : execContextResume p s = .next t) : Keeps s t := by
  cases h
  with_reducible repeat' (first
    | assumption | exact Keeps.rfl' _ | apply State.takePacket_keeps)

theorem execContextDestroy_keeps (p : Packet) (s : State) (t : State)
    (h : execContextDestroy p s = .next t) : Keeps s t := by
  cases h
  with_reducible repeat' (first
    | assumption | exact Keeps.rfl' _ | apply State.takePacket_keeps)

theorem execContextReset_keeps (p : Packet) (s : State) (t : State)
    (h : execContextReset p s = .next t) : Keeps s t := by
  cases h
  with_reducible repeat' (first
    | assumption | exact Keeps.rfl' _ | apply State.takePacket_keeps)

theorem execSnapshot_keeps (p : Packet) (s : State) (t : State)
    (h : execSnapshot p s = .next t) : Keeps s t := by
  cases h
  with_reducible repeat' (first
    | assumption | exact Keeps.rfl' _ | apply State.takePacket_keeps)

theorem execRestore_keeps (p : Packet) (s : State) (t : State)
    (h : execRestore p s = .next t) : Keeps s t := by
  cases h
  with_reducible repeat' (first
    | assumption | exact Keeps.rfl' _ | apply State.takePacket_keeps)

theorem execScheduleLoad_keeps (p : Packet) (s : State) (t : State)
    (h : execScheduleLoad p s = .next t) : Keeps s t := by
  cases h
  with_reducible repeat' (first
    | assumption | exact Keeps.rfl' _ | apply State.takePacket_keeps)

theorem execRoleAssign_keeps (p : Packet) (s : State) (t : State)
    (h : execRoleAssign p s = .next t) : Keeps s t := by
  cases h
  with_reducible repeat' (first
    | assumption | exact Keeps.rfl' _ | apply State.takePacket_keeps)

theorem execSpareArm_keeps (p : Packet) (s : State) (t : State)
    (h : execSpareArm p s = .next t) : Keeps s t := by
  cases h
  with_reducible repeat' (first
    | assumption | exact Keeps.rfl' _ | apply State.takePacket_keeps)

theorem execTakeover_keeps (p : Packet) (s : State) (t : State)
    (h : execTakeover p s = .next t) : Keeps s t := by
  cases h
  with_reducible repeat' (first
    | assumption | exact Keeps.rfl' _ | apply State.takePacket_keeps)

theorem execFrankRead_keeps (p : Packet) (s : State) (t : State)
    (h : execFrankRead p s = .next t) : Keeps s t := by
  cases h
  with_reducible repeat' (first
    | assumption | exact Keeps.rfl' _ | apply State.takePacket_keeps)

theorem State.holdTeams_keeps {s0 : State} (s : State) (mask : Nat) (on : Bool) (hs : Keeps s0 s) :
    Keeps s0 (State.holdTeams s mask on) := by
  unfold State.holdTeams
  with_reducible repeat' (first
    | assumption | intro _ | apply State.modTeam_keeps | apply Keeps.foldl | dsimp only)

theorem execSelftest_keeps (p : Packet) (s : State) (t : State)
    (h : execSelftest p s = .next t) : Keeps s t := by
  cases h
  with_reducible repeat' (first
    | assumption | exact Keeps.rfl' _ | apply State.takePacket_keeps | apply State.holdTeams_keeps | apply Keeps.ite
    | split | dsimp only)

theorem State.takeCounter_keeps {s0 : State} (s : State) (b : List Byte) (hs : Keeps s0 s) :
    Keeps s0 (State.takeCounter s b) := by
  unfold State.takeCounter
  with_reducible repeat' (first
    | assumption | (apply Keeps.upd; first | assumption) | dsimp only)

theorem State.refuseRequest_keeps {s0 : State} (s : State) (hs : Keeps s0 s) :
    Keeps s0 (State.refuseRequest s) := by
  unfold State.refuseRequest
  with_reducible repeat' (first
    | assumption | (apply Keeps.upd; first | assumption) | dsimp only)

theorem State.takeRequest_keeps {s0 : State} (s : State) (p : Packet) (verified : Bool) (hs : Keeps s0 s) :
    Keeps s0 (State.takeRequest s p verified) := by
  unfold State.takeRequest
  with_reducible repeat' (first
    | assumption | apply State.takePacket_keeps | apply State.takeCounter_keeps | apply State.refuseRequest_keeps
    | apply Keeps.ite | split | dsimp only)

/-! ### Load -/

theorem State.busPut_keeps {s0 : State} (s : State) (a : Nat) (b : List Byte) (hs : Keeps s0 s) :
    Keeps s0 (State.busPut s a b) := by
  unfold State.busPut
  with_reducible repeat' (first
    | assumption | apply State.busWrite_keeps)

theorem State.loadGraph_keeps {s0 : State} (s : State) (c : W32) (p : Packet) (hs : Keeps s0 s) :
    Keeps s0 (State.loadGraph s c p).1 := by
  unfold State.loadGraph
  with_reducible repeat' (first
    | assumption | intro _ | apply State.modCtx_keeps | apply State.busPut_keeps | apply Keeps.foldl
    | apply Keeps.foldl_fst | apply Keeps.ite | apply Keeps.ite_fst | split | dsimp only)

theorem State.fillArea_keeps {s0 : State} (s : State) (c : W32) (x : Ctx) (n : Nat) (k : Table)
    (base stripes init : Nat) (hs : Keeps s0 s) :
    Keeps s0 (State.fillArea s c x n k base stripes init).1 := by
  unfold State.fillArea
  with_reducible repeat' (first
    | assumption | intro _ | apply State.busPut_keeps | apply State.sendMirror_keeps | apply Keeps.foldl
    | apply Keeps.foldl_fst | apply Keeps.ite | apply Keeps.ite_fst | split | dsimp only)

theorem State.createTable_keeps {s0 : State} (s : State) (c : W32) (p : Packet) (hs : Keeps s0 s) :
    Keeps s0 (State.createTable s c p).1 := by
  unfold State.createTable
  split
  · exact hs
  · extract_lets n base new old same put s1 f
    by_cases h : (!same || new.stripes == 0 || new.buddy != 65535 && !s.buddyAgrees new.buddy) = true
    · rw [if_pos h]; exact hs
    · rw [if_neg h]
      dsimp only
      apply State.addEventsFor_keeps
      apply State.fillArea_keeps
      exact State.modCtx_keeps _ _ _ hs fun _ h => h

theorem State.beginReplace_keeps {s0 : State} (s : State) (c : W32) (x : Cmd) (hs : Keeps s0 s) :
    Keeps s0 (State.beginReplace s c x).1 := by
  unfold State.beginReplace
  with_reducible repeat' (first
    | assumption | intro _ | apply State.modTable_keeps | apply Keeps.ite | apply Keeps.ite_fst | split | dsimp only)

theorem State.flipped_keeps {s0 : State} (s : State) (c : W32) (n : Nat) (k : Table) (r : Replacing)
    (hs : Keeps s0 s) :
    Keeps s0 (State.flipped s c n k r) := by
  unfold State.flipped
  with_reducible repeat' (first
    | assumption | intro _ | apply State.busPut_keeps | apply State.modTable_keeps | apply State.modRows_keeps
    | apply State.sendMirror_keeps | apply Keeps.foldl | apply Keeps.ite | split | dsimp only)

theorem execTableReplaceFlip_keeps (ctx : W32) (table : Nat) (s : State) (t : State)
    (h : execTableReplaceFlip ctx table s = .next t) : Keeps s t := by
  cases h
  with_reducible repeat' (first
    | assumption | exact Keeps.rfl' _ | intro _ | apply State.flipped_keeps | apply State.modCtx_keeps
    | apply Keeps.ite | split | dsimp only)

theorem State.tryFinishTable_keeps {s0 : State} (s : State) (c : W32) (x : Cmd) (hs : Keeps s0 s) :
    Keeps s0 (State.tryFinishTable s c x) := by
  unfold State.tryFinishTable
  with_reducible repeat' (first
    | assumption | intro _ | apply State.finishCmd_keeps | apply State.flipped_keeps | apply State.modTable_keeps
    | apply Keeps.ite | split | dsimp only)

/-! ### Roles -/

theorem State.advertise_keeps {s0 : State} (s : State) (a : Advert) (mask : W32) (but : Nat) (hs : Keeps s0 s) :
    Keeps s0 (State.advertise s a mask but) := by
  unfold State.advertise
  with_reducible repeat' (first
    | assumption | intro _ | apply State.emitOut_keeps | apply Keeps.foldl | dsimp only)

theorem State.setRoute_keeps {s0 : State} (s : State) (pc : W16) (r : Route) (hs : Keeps s0 s) :
    Keeps s0 (State.setRoute s pc r) := by
  unfold State.setRoute
  with_reducible repeat' (first
    | assumption | apply State.modFabric_keeps)

theorem State.flushWaiting_keeps {s0 : State} (s : State) (hs : Keeps s0 s) :
    Keeps s0 (State.flushWaiting s) := by
  unfold State.flushWaiting
  with_reducible repeat' (first
    | assumption | intro _ | apply State.transmit_keeps | apply State.modFabric_keeps | apply Keeps.foldl
    | dsimp only)

theorem State.failCollsWith_keeps {s0 : State} (s : State) (pc : W16) (hs : Keeps s0 s) :
    Keeps s0 (State.failCollsWith s pc) := by
  unfold State.failCollsWith
  with_reducible repeat' (first
    | assumption | intro _ | apply State.failColl_keeps | apply Keeps.foldl | dsimp only)

theorem State.sourceLost_keeps {s0 : State} (s : State) (pc : W16) (hs : Keeps s0 s) :
    Keeps s0 (State.sourceLost s pc) := by
  unfold State.sourceLost
  with_reducible repeat' (first
    | assumption | intro _ | apply State.bumpFree_keeps | apply State.endTake_keeps | apply Keeps.ite
    | apply Keeps.ite_fst | refine Keeps.of_fst (by assumption) ?_ | split
    | (apply Keeps.upd; first | assumption | intro _ | apply State.bumpFree_keeps | apply State.endTake_keeps | apply Keeps.ite | apply Keeps.ite_fst | refine Keeps.of_fst (by assumption) ?_ | split)
    | dsimp only)

theorem State.loseRole_keeps {s0 : State} (s : State) (pc epoch : W16) (covered : Bool) (from_ : Nat)
    (hs : Keeps s0 s) :
    Keeps s0 (State.loseRole s pc epoch covered from_) := by
  unfold State.loseRole
  with_reducible repeat' (first
    | assumption | intro _ | apply State.modFabric_keeps | apply State.buddyGone_keeps | apply State.absentRole_keeps
    | apply State.advertise_keeps | apply State.setRoute_keeps | apply State.failCollsWith_keeps
    | apply State.sourceLost_keeps | apply Keeps.ite | apply Keeps.ite_fst | refine Keeps.of_fst (by assumption) ?_
    | split
    | (apply Keeps.upd; first | assumption | intro _ | apply State.modFabric_keeps | apply State.buddyGone_keeps | apply State.absentRole_keeps | apply State.advertise_keeps | apply State.setRoute_keeps | apply State.failCollsWith_keeps | apply State.sourceLost_keeps | apply Keeps.ite | apply Keeps.ite_fst | refine Keeps.of_fst (by assumption) ?_ | split)
    | dsimp only)

theorem execRoleLossTimeout_keeps (postcode : W16) (s : State) (t : State)
    (h : execRoleLossTimeout postcode s = .next t) : Keeps s t := by
  cases h
  with_reducible repeat' (first
    | assumption | exact Keeps.rfl' _ | apply State.loseRole_keeps | apply Keeps.ite | split | dsimp only)

theorem State.holdHome_keeps {s0 : State} (s : State) (c : W32) (hs : Keeps s0 s) :
    Keeps s0 (State.holdHome s c) := by
  unfold State.holdHome
  with_reducible repeat' (first
    | assumption | intro _ | apply State.modFabric_keeps | apply Keeps.ite | apply Keeps.ite_fst
    | refine Keeps.of_fst (by assumption) ?_ | split
    | (apply Keeps.upd; first | assumption | intro _ | apply State.modFabric_keeps | apply Keeps.ite | apply Keeps.ite_fst | refine Keeps.of_fst (by assumption) ?_ | split)
    | dsimp only)

theorem State.recoverRole_keeps {s0 : State} (s : State) (c : W32) (hs : Keeps s0 s) :
    Keeps s0 (State.recoverRole s c) := by
  unfold State.recoverRole
  with_reducible repeat' (first
    | assumption | intro _ | apply State.modFabric_keeps | apply State.loseRole_keeps | apply State.holdHome_keeps
    | apply Keeps.ite | apply Keeps.ite_fst | refine Keeps.of_fst (by assumption) ?_ | split
    | (apply Keeps.upd; first | assumption | intro _ | apply State.modFabric_keeps | apply State.loseRole_keeps | apply State.holdHome_keeps | apply Keeps.ite | apply Keeps.ite_fst | refine Keeps.of_fst (by assumption) ?_ | split)
    | dsimp only)

theorem State.relayReleases_keeps {s0 : State} (s : State) (pc : W16) (hs : Keeps s0 s) :
    Keeps s0 (State.relayReleases s pc) := by
  unfold State.relayReleases
  with_reducible repeat' (first
    | assumption | intro _ | apply State.emitOut_keeps | apply Keeps.foldl | dsimp only)

theorem State.roleBack_keeps {s0 : State} (s : State) (pc : W16) (hs : Keeps s0 s) :
    Keeps s0 (State.roleBack s pc) := by
  unfold State.roleBack
  with_reducible repeat' (first
    | assumption | apply State.returnRole_keeps | apply State.relayReleases_keeps | apply State.offerHeld_keeps)

theorem State.yieldRole_keeps {s0 : State} (s : State) (pc : W16) (epoch : W16) (hs : Keeps s0 s) :
    Keeps s0 (State.yieldRole s pc epoch) := by
  unfold State.yieldRole
  with_reducible repeat' (first
    | assumption | intro _ | apply State.abandonAll_keeps | apply Keeps.ite | apply Keeps.ite_fst
    | refine Keeps.of_fst (by assumption) ?_ | split | (apply Keeps.upd; first | assumption) | dsimp only)

theorem State.passOn_keeps {s0 : State} (s : State) (port : Nat) (a : Advert) (hs : Keeps s0 s) :
    Keeps s0 (State.passOn s port a) := by
  unfold State.passOn
  with_reducible repeat' (first
    | assumption | intro _ | apply State.bumpFree_keeps | apply State.emitOut_keeps | apply State.flushWaiting_keeps
    | apply Keeps.foldl | apply Keeps.foldl_fst | apply Keeps.ite | apply Keeps.ite_fst
    | refine Keeps.of_fst (by assumption) ?_ | split
    | (apply Keeps.upd; first | assumption | intro _ | apply State.bumpFree_keeps | apply State.emitOut_keeps | apply State.flushWaiting_keeps | apply Keeps.foldl | apply Keeps.foldl_fst | apply Keeps.ite | apply Keeps.ite_fst | refine Keeps.of_fst (by assumption) ?_ | split)
    | dsimp only)

theorem State.takeAdvert_keeps {s0 : State} (s : State) (port : Nat) (a : Advert) (hs : Keeps s0 s) :
    Keeps s0 (State.takeAdvert s port a) := by
  unfold State.takeAdvert
  with_reducible repeat' (first
    | assumption | intro _ | apply State.modFabric_keeps | apply State.setRoute_keeps | apply State.roleBack_keeps
    | apply State.yieldRole_keeps | apply State.passOn_keeps | apply Keeps.ite | apply Keeps.ite_fst
    | refine Keeps.of_fst (by assumption) ?_ | split
    | (apply Keeps.upd; first | assumption | intro _ | apply State.modFabric_keeps | apply State.setRoute_keeps | apply State.roleBack_keeps | apply State.yieldRole_keeps | apply State.passOn_keeps | apply Keeps.ite | apply Keeps.ite_fst | refine Keeps.of_fst (by assumption) ?_ | split)
    | dsimp only)

theorem State.rivalAdvert_keeps {s0 : State} (s : State) (port : Nat) (advert : Advert) (r : Role) (hs : Keeps s0 s) :
    Keeps s0 (State.rivalAdvert s port advert r) := by
  unfold State.rivalAdvert
  with_reducible repeat' (first
    | assumption | intro _ | apply State.modStats_keeps | apply State.pulse_keeps | apply State.modFabric_keeps
    | apply State.yieldHeld_keeps | apply State.takeAdvert_keeps | apply Keeps.ite | split | dsimp only)

theorem execRoleAdvertisement_keeps (port : Nat) (advert : Advert) (s : State) (t : State)
    (h : execRoleAdvertisement port advert s = .next t) : Keeps s t := by
  cases h
  with_reducible repeat' (first
    | assumption | exact Keeps.rfl' _ | intro _ | apply State.loseRole_keeps | apply State.modFabric_keeps
    | apply State.setRoute_keeps | apply State.advertise_keeps | apply State.rivalAdvert_keeps
    | apply State.takeAdvert_keeps | apply Keeps.ite | split | dsimp only)

theorem execRouteChange_keeps (postcode : W16) (port : Nat) (s : State) (t : State)
    (h : execRouteChange postcode port s = .next t) : Keeps s t := by
  cases h
  with_reducible repeat' (first
    | assumption | exact Keeps.rfl' _ | apply State.flushWaiting_keeps | apply Keeps.ite | split | dsimp only)

theorem State.bindRole_keeps {s0 : State} (s : State) (pc epoch : W16) (mask : W32) (c : W32) (hs : Keeps s0 s) :
    Keeps s0 (State.bindRole s pc epoch mask c) := by
  unfold State.bindRole
  with_reducible repeat' (first
    | assumption | apply State.modFabric_keeps | apply State.advertise_keeps)

theorem State.openRelays_keeps {s0 : State} (s : State) (c : W32) (hs : Keeps s0 s) :
    Keeps s0 (State.openRelays s c) := by
  unfold State.openRelays
  with_reducible repeat' (first
    | assumption | intro _ | apply Keeps.ite | split | (apply Keeps.upd; first | assumption) | dsimp only)

theorem State.relayHere_keeps {s0 : State} (s : State) (pc : W16) (c : W32) (hs : Keeps s0 s) :
    Keeps s0 (State.relayHere s pc c) := by
  unfold State.relayHere
  with_reducible repeat' (first
    | assumption | intro _ | apply State.setHub_keeps | apply Keeps.foldl | apply Keeps.foldl_fst | apply Keeps.ite
    | apply Keeps.ite_fst | refine Keeps.of_fst (by assumption) ?_ | split
    | (apply Keeps.upd; first | assumption | intro _ | apply State.setHub_keeps | apply Keeps.foldl | apply Keeps.foldl_fst | apply Keeps.ite | apply Keeps.ite_fst | refine Keeps.of_fst (by assumption) ?_ | split)
    | dsimp only)

theorem State.takeRole_keeps {s0 : State} (s : State) (pc epoch : W16) (mask : W32) (c : W32) (cmd : Option CmdRef)
    (hs : Keeps s0 s) :
    Keeps s0 (State.takeRole s pc epoch mask c cmd) := by
  unfold State.takeRole
  with_reducible repeat' (first
    | assumption | intro _ | apply State.offerHeld_keeps | apply State.returnRole_keeps | apply State.abandonAll_keeps
    | apply State.setTake_keeps | apply State.flushWaiting_keeps | apply State.bindRole_keeps
    | apply State.openRelays_keeps | apply State.relayHere_keeps | apply Keeps.ite | apply Keeps.ite_fst
    | refine Keeps.of_fst (by assumption) ?_ | split
    | (apply Keeps.upd; first | assumption | intro _ | apply State.offerHeld_keeps | apply State.returnRole_keeps | apply State.abandonAll_keeps | apply State.setTake_keeps | apply State.flushWaiting_keeps | apply State.bindRole_keeps | apply State.openRelays_keeps | apply State.relayHere_keeps | apply Keeps.ite | apply Keeps.ite_fst | refine Keeps.of_fst (by assumption) ?_ | split)
    | dsimp only)

theorem execAutoTakeover_keeps (postcode : W16) (s : State) (t : State)
    (h : execAutoTakeover postcode s = .next t) : Keeps s t := by
  cases h
  with_reducible repeat' (first
    | assumption | exact Keeps.rfl' _ | intro _ | apply State.abandonAll_keeps | apply State.takeRole_keeps
    | apply Keeps.ite | apply Keeps.ite_fst | refine Keeps.of_fst (by assumption) ?_ | split | dsimp only)

theorem execJoinReleaseReceived_keeps (postcode : W16) (release : Release) (s : State) (t : State)
    (h : execJoinReleaseReceived postcode release s = .next t) : Keeps s t := by
  cases h
  with_reducible repeat' (first
    | assumption | exact Keeps.rfl' _ | intro _ | apply State.busPut_keeps | apply State.setTake_keeps
    | apply State.endTake_keeps | apply State.emitOut_keeps | apply Keeps.foldl | apply Keeps.ite | split
    | dsimp only)

theorem execSnapshotRecordReceived_keeps (postcode : W16) (header streams : List Byte) (s : State) (t : State)
    (h : execSnapshotRecordReceived postcode header streams s = .next t) : Keeps s t := by
  cases h
  with_reducible repeat' (first
    | assumption | exact Keeps.rfl' _ | apply Keeps.ite | split
    | (apply Keeps.upd; first | assumption | exact Keeps.rfl' _) | dsimp only)

/-! ### Gather -/

theorem State.gatherDone_keeps {s0 : State} (s : State) (t q : Nat) (w : LumfyWord) (d : TileDesc)
    (cells extra : List (Nat × Byte)) (ev : Events) (outside : Bool) (hs : Keeps s0 s) :
    Keeps s0 (State.gatherDone s t q w d cells extra ev outside) := by
  unfold State.gatherDone
  with_reducible repeat' (first
    | assumption | intro _ | apply State.finish_keeps | apply State.launchFault_keeps | apply State.modCore_keeps
    | apply State.store_keeps | apply Keeps.ite | apply Core.memOk_setT | apply Team.memOk_modCore | split
    | dsimp only)

theorem State.gatherRowsCore_keeps {s0 : State} (s : State) (t q : Nat) (w : LumfyWord) (hs : Keeps s0 s) :
    Keeps s0 (State.gatherRowsCore s t q w) := by
  unfold State.gatherRowsCore
  with_reducible repeat' (first
    | assumption | intro _ | apply State.finish_keeps | apply State.gatherDone_keeps | apply Keeps.ite | split
    | dsimp only)

theorem execGatherRows_keeps (team : Nat) (x : Args) (s : State) (t : State)
    (h : execGatherRows team x s = .next t) : Keeps s t := by
  cases h
  with_reducible repeat' (first
    | assumption | exact Keeps.rfl' _ | intro _ | apply State.issueTiles_keeps | apply State.gatherRowsCore_keeps
    | dsimp only)

theorem State.gatherStagedCore_keeps {s0 : State} (s : State) (t q : Nat) (w : LumfyWord) (hs : Keeps s0 s) :
    Keeps s0 (State.gatherStagedCore s t q w) := by
  unfold State.gatherStagedCore
  with_reducible repeat' (first
    | assumption | apply State.finish_keeps | apply State.gatherDone_keeps | apply Keeps.ite | split | dsimp only)

theorem execGatherStaged_keeps (team : Nat) (x : Args) (s : State) (t : State)
    (h : execGatherStaged team x s = .next t) : Keeps s t := by
  cases h
  with_reducible repeat' (first
    | assumption | exact Keeps.rfl' _ | intro _ | apply State.issueTiles_keeps | apply State.gatherStagedCore_keeps
    | apply Keeps.ite | split | dsimp only)

theorem State.cursorDone_keeps {s0 : State} (s : State) (t q : Nat) (w : LumfyWord) (c : Cursor) (d : TileDesc)
    (rows : List GatherRow) (heads : List Bool) (drops : Nat) (outside : Bool) (hs : Keeps s0 s) :
    Keeps s0 (State.cursorDone s t q w c d rows heads drops outside) := by
  unfold State.cursorDone
  with_reducible repeat' (first
    | assumption | apply State.gatherDone_keeps)

theorem State.gatherEdgeCore_keeps {s0 : State} (s : State) (t q : Nat) (w : LumfyWord) (hs : Keeps s0 s) :
    Keeps s0 (State.gatherEdgeCore s t q w) := by
  unfold State.gatherEdgeCore
  with_reducible repeat' (first
    | assumption | intro _ | apply State.finish_keeps | apply State.cursorDone_keeps | apply Keeps.ite | split
    | dsimp only)

theorem execGatherEdge_keeps (team : Nat) (x : Args) (s : State) (t : State)
    (h : execGatherEdge team x s = .next t) : Keeps s t := by
  cases h
  with_reducible repeat' (first
    | assumption | exact Keeps.rfl' _ | intro _ | apply State.issueTiles_keeps | apply State.gatherEdgeCore_keeps
    | apply Keeps.ite | split | dsimp only)

theorem State.gatherRouteCore_keeps {s0 : State} (s : State) (t q : Nat) (w : LumfyWord) (hs : Keeps s0 s) :
    Keeps s0 (State.gatherRouteCore s t q w) := by
  unfold State.gatherRouteCore
  with_reducible repeat' (first
    | assumption | intro _ | apply State.finish_keeps | apply State.cursorDone_keeps | apply Keeps.ite | split
    | dsimp only)

theorem execGatherRoute_keeps (team : Nat) (x : Args) (s : State) (t : State)
    (h : execGatherRoute team x s = .next t) : Keeps s t := by
  cases h
  with_reducible repeat' (first
    | assumption | exact Keeps.rfl' _ | intro _ | apply State.issueTiles_keeps | apply State.gatherRouteCore_keeps
    | dsimp only)

/-! ### Masks -/

theorem State.maskBindCore_keeps {s0 : State} (s : State) (t q : Nat) (w : LumfyWord) (hs : Keeps s0 s) :
    Keeps s0 (State.maskBindCore s t q w) := by
  unfold State.maskBindCore
  with_reducible repeat' (first
    | assumption | intro _ | apply State.modCore_keeps | apply State.finish_keeps | apply State.store_keeps
    | apply State.modTeam_keeps | apply State.bumpFree_keeps | apply Keeps.ite | apply Core.memOk_putD
    | apply Team.memOk_modCore | split | dsimp only)

theorem execMaskBind_keeps (team : Nat) (x : Args) (s : State) (t : State)
    (h : execMaskBind team x s = .next t) : Keeps s t := by
  cases h
  with_reducible repeat' (first
    | assumption | exact Keeps.rfl' _ | intro _ | apply State.issue_keeps | apply State.maskBindCore_keeps
    | dsimp only)

theorem State.mergeCore_keeps {s0 : State} (s : State) (t q : Nat) (w : LumfyWord) (hs : Keeps s0 s) :
    Keeps s0 (State.mergeCore s t q w) := by
  unfold State.mergeCore
  with_reducible repeat' (first
    | assumption | intro _ | apply State.finish_keeps | apply State.bumpFree_keeps | apply State.gatherDone_keeps
    | apply Keeps.ite | split | dsimp only)

theorem execMergeBsr_keeps (team : Nat) (x : Args) (s : State) (t : State)
    (h : execMergeBsr team x s = .next t) : Keeps s t := by
  cases h
  with_reducible repeat' (first
    | assumption | exact Keeps.rfl' _ | intro _ | apply State.issueTiles_keeps | apply State.mergeCore_keeps
    | dsimp only)

/-! ### Spares -/

theorem State.modFaults_keeps {s0 : State} (s : State) (f : Faults → Faults) (hs : Keeps s0 s) :
    Keeps s0 (State.modFaults s f) := by
  unfold State.modFaults
  with_reducible repeat' (first
    | assumption | (apply Keeps.upd; first | assumption) | dsimp only)

theorem State.recordFault_keeps {s0 : State} (s : State) (cls unit : Nat) (hs : Keeps s0 s) :
    Keeps s0 (State.recordFault s cls unit) := by
  unfold State.recordFault
  with_reducible repeat' (first
    | assumption | apply State.modFaults_keeps | apply State.pulse_keeps)

theorem State.spareChange_keeps {s0 : State} (s : State) (hs : Keeps s0 s) :
    Keeps s0 (State.spareChange s) := by
  unfold State.spareChange
  with_reducible repeat' (first
    | assumption | apply State.modFaults_keeps | apply State.pulse_keeps)

theorem State.retire_keeps {s0 : State} (s : State) (r : Retired) (hs : Keeps s0 s) :
    Keeps s0 (State.retire s r) := by
  unfold State.retire
  with_reducible repeat' (first
    | assumption | (apply Keeps.upd; first | assumption) | dsimp only)

theorem State.clusterOff_keeps {s0 : State} (s : State) (t : Nat) (hs : Keeps s0 s) :
    Keeps s0 (State.clusterOff s t) := by
  unfold State.clusterOff
  with_reducible repeat' (first
    | assumption | intro _ | apply State.modFaults_keeps | apply State.spareChange_keeps | apply Keeps.ite | split
    | dsimp only)

theorem State.writeBlock_keeps {s0 : State} (s : State) (t : Nat) (u : UpdReq) (b : Block) (hs : Keeps s0 s) :
    Keeps s0 (State.writeBlock s t u b) := by
  unfold State.writeBlock
  with_reducible repeat' (first
    | assumption | apply State.markBlock_keeps | apply State.putBlock_keeps)

theorem State.tearBlock_keeps {s0 : State} (s : State) (u : UpdReq) (b : Block) (hs : Keeps s0 s) :
    Keeps s0 (State.tearBlock s u b) := by
  unfold State.tearBlock
  with_reducible repeat' (first
    | assumption | apply State.markBlock_keeps | apply State.writeStack_keeps)

theorem State.cutShort_keeps {s0 : State} (s : State) (fault : Bool) (t : Nat) (hs : Keeps s0 s) :
    Keeps s0 (State.cutShort s fault t) := by
  unfold State.cutShort
  with_reducible repeat' (first
    | assumption | intro _ | apply State.writeBlock_keeps | apply State.bumpFree_keeps | apply State.tearBlock_keeps
    | apply Keeps.foldl | apply Keeps.ite | split | dsimp only)

theorem State.pauseBlocks_keeps {s0 : State} (s : State) (t : Nat) (hs : Keeps s0 s) :
    Keeps s0 (State.pauseBlocks s t) := by
  unfold State.pauseBlocks
  with_reducible repeat' (first
    | assumption | intro _ | apply State.putBlock_keeps | apply State.bumpFree_keeps | apply State.modCtx_keeps
    | apply Keeps.foldl | apply Keeps.ite
    | exact ⟨And.left (by assumption), launchesOk_modWhere (And.right (by assumption)) _ _ fun _ h => h⟩ | split
    | dsimp only)

theorem State.emptyLoads_keeps {s0 : State} (s : State) (c : W32) (hs : Keeps s0 s) :
    Keeps s0 (State.emptyLoads s c) := by
  unfold State.emptyLoads
  with_reducible repeat' (first
    | assumption | intro _ | apply State.modTeam_keeps | apply State.bumpFree_keeps | apply State.modSaved_keeps
    | apply Team.memOk_load | apply Keeps.foldl | apply Keeps.foldl_fst | apply Keeps.ite | apply Keeps.ite_fst
    | refine Keeps.of_fst (by assumption) ?_
    | exact ⟨And.left (by assumption), launchesOk_modWhere (And.right (by assumption)) _ _ fun _ h => h⟩
    | exact ⟨And.left (by assumption), launchesOk_filter (And.right (by assumption)) _⟩
    | exact ⟨And.left (by assumption), launchesOk_nil⟩ | split | dsimp only)

theorem State.restartPreempt_keeps {s0 : State} (s : State) (c : W32) (x : Ctx) (hs : Keeps s0 s) :
    Keeps s0 (State.restartPreempt s c x) := by
  unfold State.restartPreempt
  with_reducible repeat' (first
    | assumption | intro _ | apply State.modCtx_keeps | apply State.modCtx_keeps | apply State.modCmd_keeps
    | apply Keeps.ite | apply Keeps.ite_fst | refine Keeps.of_fst (by assumption) ?_
    | exact ⟨And.left (by assumption), launchesOk_modWhere (And.right (by assumption)) _ _ fun _ h => h⟩
    | exact ⟨And.left (by assumption), launchesOk_filter (And.right (by assumption)) _⟩
    | exact ⟨And.left (by assumption), launchesOk_nil⟩ | split
    | (apply Keeps.upd; first | assumption | intro _ | apply State.modCtx_keeps | apply State.modCtx_keeps | apply State.modCmd_keeps | apply Keeps.ite | apply Keeps.ite_fst | refine Keeps.of_fst (by assumption) ?_ | split)
    | dsimp only)

theorem State.restartCmds_keeps {s0 : State} (s : State) (c : W32) (hs : Keeps s0 s) :
    Keeps s0 (State.restartCmds s c) := by
  unfold State.restartCmds
  with_reducible repeat' (first
    | assumption | intro _ | apply State.modCtx_keeps | apply State.modCtx_keeps | apply State.modCmds_keeps
    | apply State.emptyLoads_keeps | apply State.restartPreempt_keeps | apply Keeps.ite | apply Keeps.ite_fst
    | refine Keeps.of_fst (by assumption) ?_
    | exact ⟨And.left (by assumption), launchesOk_modWhere (And.right (by assumption)) _ _ fun _ h => h⟩
    | exact ⟨And.left (by assumption), launchesOk_filter (And.right (by assumption)) _⟩
    | exact ⟨And.left (by assumption), launchesOk_nil⟩ | split
    | (apply Keeps.upd; first | assumption | intro _ | apply State.modCtx_keeps | apply State.modCtx_keeps | apply State.modCmds_keeps | apply State.emptyLoads_keeps | apply State.restartPreempt_keeps | apply Keeps.ite | apply Keeps.ite_fst | refine Keeps.of_fst (by assumption) ?_ | split)
    | dsimp only)

theorem State.contain_keeps {s0 : State} (s : State) (c : W32) (hs : Keeps s0 s) :
    Keeps s0 (State.contain s c) := by
  unfold State.contain
  with_reducible repeat' (first
    | assumption | apply State.emptyLoads_keeps | apply State.faultContext_keeps)

theorem State.openWindow_keeps {s0 : State} (s : State) (touched : List Nat) (hs : Keeps s0 s) :
    Keeps s0 (State.openWindow s touched) := Keeps.upd _ hs ..

theorem State.endReplay_keeps {s0 : State} (s : State) (c : W32) (hs : Keeps s0 s) :
    Keeps s0 (State.endReplay s c) := Keeps.upd _ hs ..

theorem State.modPower_keeps {s0 : State} (s : State) (f : Power → Power) (hs : Keeps s0 s) :
    Keeps s0 (State.modPower s f) := by
  unfold State.modPower
  with_reducible repeat' (first
    | assumption | (apply Keeps.upd; first | assumption) | dsimp only)

theorem State.modDie_keeps {s0 : State} (s : State) (d : Nat) (f : Die → Die) (hs : Keeps s0 s) :
    Keeps s0 (State.modDie s d f) := by
  unfold State.modDie
  with_reducible repeat' (first
    | assumption | apply State.modPower_keeps)

theorem State.fence_keeps {s0 : State} (s : State) (hs : Keeps s0 s) :
    Keeps s0 (State.fence s) := by
  unfold State.fence
  with_reducible repeat' (first
    | assumption | intro _ | apply State.modFaults_keeps | apply State.recordFault_keeps | apply State.contain_keeps
    | apply Keeps.foldl | apply Keeps.foldl_fst | apply Keeps.ite | apply Keeps.ite_fst
    | refine Keeps.of_fst (by assumption) ?_ | split
    | (apply Keeps.upd; first | assumption | intro _ | apply State.modFaults_keeps | apply State.recordFault_keeps | apply State.contain_keeps | apply Keeps.foldl | apply Keeps.foldl_fst | apply Keeps.ite | apply Keeps.ite_fst | refine Keeps.of_fst (by assumption) ?_ | split)
    | dsimp only)

theorem State.toReplayed_keeps {s0 : State} (s : State) (c : W32) (hs : Keeps s0 s) :
    Keeps s0 (State.toReplayed s c) := by
  unfold State.toReplayed
  with_reducible repeat' (first
    | assumption | (apply Keeps.upd; first | assumption) | dsimp only)

theorem State.interrupt_keeps {s0 : State} (s : State) (c : W32) (l : Launch) (fault : Bool) (hs : Keeps s0 s) :
    Keeps s0 (State.interrupt s c l fault) := by
  unfold State.interrupt
  with_reducible repeat' (first
    | assumption | intro _ | apply State.cutShort_keeps | apply State.modTeam_keeps | apply State.withdraw_keeps
    | apply State.dropUnfenced_keeps | apply State.modCtx_keeps | apply State.modFabric_keeps
    | apply State.toReplayed_keeps | apply Keeps.foldl | apply Team.memOk_halt
    | exact ⟨And.left (by assumption), launchesOk_modWhere (And.right (by assumption)) _ _ fun _ h => h⟩
    | dsimp only)

theorem State.loseUnit_keeps {s0 : State} (s : State) (c : W32) (hs : Keeps s0 s) :
    Keeps s0 (State.loseUnit s c) := by
  unfold State.loseUnit
  with_reducible repeat' (first
    | assumption | apply State.emptyLoads_keeps | apply State.stopCtx_keeps | apply State.recoverRole_keeps
    | apply State.contain_keeps | apply Keeps.ite | split | dsimp only)

theorem State.touch_keeps {s0 : State} (s : State) (c : W32) (core : Bool) (uses : Launch → Bool) (hs : Keeps s0 s) :
    Keeps s0 (State.touch s c core uses) := by
  unfold State.touch
  split
  · exact hs
  · split
    · exact State.contain_keeps _ _ hs
    · dsimp only
      split
      · exact State.loseUnit_keeps _ _ hs
      · exact Keeps.foldl _ _ _ (State.toReplayed_keeps _ _ (State.restartCmds_keeps _ _ hs)) fun s l h =>
          State.interrupt_keeps _ _ _ _ h

theorem State.emptySlots_keeps {s0 : State} (s : State) (teams : List Nat) (hs : Keeps s0 s) :
    Keeps s0 (State.emptySlots s teams) := by
  unfold State.emptySlots
  with_reducible repeat' (first
    | assumption | intro _ | apply State.modRows_keeps | apply Keeps.foldl | dsimp only)

theorem State.clusterFails_keeps {s0 : State} (s : State) (t : Nat) (hs : Keeps s0 s) :
    Keeps s0 (State.clusterFails s t) := by
  unfold State.clusterFails
  with_reducible repeat' (first
    | assumption | intro _ | apply State.recordFault_keeps | apply State.clusterOff_keeps | apply State.loseUnit_keeps
    | apply State.emptySlots_keeps | apply Keeps.foldl | apply Keeps.foldl_fst | apply Keeps.ite | apply Keeps.ite_fst
    | refine Keeps.of_fst (by assumption) ?_ | split
    | (apply Keeps.upd; first | assumption | intro _ | apply State.recordFault_keeps | apply State.clusterOff_keeps | apply State.loseUnit_keeps | apply State.emptySlots_keeps | apply Keeps.foldl | apply Keeps.foldl_fst | apply Keeps.ite | apply Keeps.ite_fst | refine Keeps.of_fst (by assumption) ?_ | split)
    | dsimp only)

theorem State.retireCore_keeps {s0 : State} (s : State) (t q : Nat) (hs : Keeps s0 s) :
    Keeps s0 (State.retireCore s t q) := by
  unfold State.retireCore
  with_reducible repeat' (first
    | assumption | intro _ | apply State.modFaults_keeps | apply State.spareChange_keeps | apply State.retire_keeps
    | apply State.clusterFails_keeps | apply Keeps.ite | apply Keeps.ite_fst | refine Keeps.of_fst (by assumption) ?_
    | split | dsimp only)

theorem State.retireCluster_keeps {s0 : State} (s : State) (t : Nat) (hs : Keeps s0 s) :
    Keeps s0 (State.retireCluster s t) := by
  unfold State.retireCluster
  with_reducible repeat' (first
    | assumption | intro _ | apply State.retire_keeps | apply State.clusterFails_keeps | apply Keeps.ite
    | apply Keeps.ite_fst | refine Keeps.of_fst (by assumption) ?_ | split | dsimp only)

theorem execCoreFault_keeps (team core : Nat) (s : State) (t : State)
    (h : execCoreFault team core s = .next t) : Keeps s t := by
  cases h
  extract_lets s1 s2
  split
  · exact Keeps.rfl' _
  · split
    · exact State.clusterFails_keeps _ _ (State.retire_keeps _ _ (Keeps.rfl' _))
    · have h1 : Keeps s s1 := State.modFaults_keeps _ _ (State.retire_keeps _ _ (State.recordFault_keeps _ _ _ (Keeps.rfl' _)))
      have h2 : Keeps s s2 := by
        unfold s2
        split
        · exact State.openWindow_keeps _ _ (State.touch_keeps _ _ _ _ h1)
        · exact h1
      exact State.modCore_keeps _ _ _ _ (State.emptySlots_keeps _ _ h2) fun _ _ => rfl

theorem State.acsRowLost_keeps {s0 : State} (s : State) (team : Nat) (hs : Keeps s0 s) :
    Keeps s0 (State.acsRowLost s team) := by
  unfold State.acsRowLost
  with_reducible repeat' (first
    | assumption | (apply Keeps.upd; first | assumption) | dsimp only)

theorem execClusterFault_keeps (team : Nat) (s : State) (t : State)
    (h : execClusterFault team s = .next t) : Keeps s t := by
  cases h
  with_reducible repeat' (first
    | assumption | exact Keeps.rfl' _ | apply State.acsRowLost_keeps | apply State.bumpFree_keeps
    | apply State.clusterFails_keeps | apply Keeps.ite | split | dsimp only)

theorem State.armAudit_keeps {s0 : State} (s : State) (team : Nat) (passed : Bool) (hs : Keeps s0 s) :
    Keeps s0 (State.armAudit s team passed) := by
  unfold State.armAudit
  with_reducible repeat' (first
    | assumption | intro _ | apply State.modFaults_keeps | apply State.finishRef_keeps | apply State.setTake_keeps
    | apply Keeps.ite | split | dsimp only)

theorem execRecoveryAuditComplete_keeps (team : Nat) (passed : Bool) (s : State) (t : State)
    (h : execRecoveryAuditComplete team passed s = .next t) : Keeps s t := by
  cases h
  with_reducible repeat' (first
    | assumption | exact Keeps.rfl' _ | intro _ | apply State.modFaults_keeps | apply State.spareChange_keeps
    | apply State.retire_keeps | apply State.clusterFails_keeps | apply State.armAudit_keeps | apply Keeps.ite
    | split | dsimp only)

theorem State.inFlight_keeps {s0 : State} (s : State) (k : Nat) (hs : Keeps s0 s) :
    Keeps s0 (State.inFlight s k) := by
  unfold State.inFlight
  with_reducible repeat' (first
    | assumption | intro _ | apply State.bumpFree_keeps | apply State.writeStack_keeps | apply Keeps.ite | split
    | (apply Keeps.upd; first | assumption | apply State.bumpFree_keeps | apply State.writeStack_keeps) | dsimp only)

theorem State.channelFails_keeps {s0 : State} (s : State) (k : Nat) (hs : Keeps s0 s) :
    Keeps s0 (State.channelFails s k) := by
  unfold State.channelFails
  with_reducible repeat' (first
    | assumption | intro _ | apply State.modFaults_keeps | apply State.recordFault_keeps | apply State.retire_keeps
    | apply State.contain_keeps | apply State.openWindow_keeps | apply State.touch_keeps | apply State.inFlight_keeps
    | apply Keeps.foldl | apply Keeps.foldl_fst | apply Keeps.ite | apply Keeps.ite_fst
    | refine Keeps.of_fst (by assumption) ?_ | split | dsimp only)

theorem State.loseStack_keeps {s0 : State} (s : State) (k : Nat) (hs : Keeps s0 s) :
    Keeps s0 (State.loseStack s k) :=
  ⟨hs.pending, hs.part, hs.metal, fun m =>
    have h := hs.mem m
    ⟨Memory.wf_cellsOf _ _ _ _ h.stack, h.host, h.teams, h.ctxs, h.snaps⟩⟩

theorem State.abandonControl_keeps {s0 : State} (s : State) (c : W32) (hs : Keeps s0 s) : Keeps s0 (State.abandonControl s c) := by
  unfold State.abandonControl
  extract_lets mine tested s1 free s2 pending
  have h1 : Keeps s0 s1 := Keeps.foldl _ _ _ hs fun s t h => State.modTeam_keeps _ _ _ h fun _ hk => hk
  exact Keeps.updMem _ (State.abandonAll_keeps s1 c (fun _ => false) h1) (h1 := State.MemOk.stack)
    (h2 := State.MemOk.host) (h3 := State.MemOk.teams) (h4 := fun m => ctxsOk_map m.ctxs _ fun _ h => h)
    (h5 := State.MemOk.snaps) ..

theorem State.loseLedgers_keeps {s0 : State} (s : State) (hs : Keeps s0 s) :
    Keeps s0 (State.loseLedgers s) := by
  unfold State.loseLedgers
  with_reducible repeat' (first
    | assumption | intro _ | apply Keeps.ite | apply Keeps.ite_fst | refine Keeps.of_fst (by assumption) ?_ | split
    | (apply Keeps.upd; first | assumption | intro _ | apply Keeps.ite | apply Keeps.ite_fst | refine Keeps.of_fst (by assumption) ?_ | split)
    | dsimp only)

theorem State.loseCopy_keeps {s0 : State} (s : State) (k : Nat) (hs : Keeps s0 s) :
    Keeps s0 (State.loseCopy s k) := by
  unfold State.loseCopy
  with_reducible repeat' (first
    | assumption | intro _ | apply State.modFn_keeps | apply State.pulse_keeps | apply State.contain_keeps
    | apply State.abandonControl_keeps | apply State.loseLedgers_keeps | apply Keeps.foldl | apply Keeps.foldl_fst
    | apply Keeps.ite | apply Keeps.ite_fst | refine Keeps.of_fst (by assumption) ?_ | split
    | (apply Keeps.upd; first | assumption | intro _ | apply State.modFn_keeps | apply State.pulse_keeps | apply State.contain_keeps | apply State.abandonControl_keeps | apply State.loseLedgers_keeps | apply Keeps.foldl | apply Keeps.foldl_fst | apply Keeps.ite | apply Keeps.ite_fst | refine Keeps.of_fst (by assumption) ?_ | split)
    | dsimp only)

theorem State.stackFails_keeps {s0 : State} (s : State) (k : Nat) (hs : Keeps s0 s) :
    Keeps s0 (State.stackFails s k) := by
  unfold State.stackFails
  with_reducible repeat' (first
    | assumption | intro _ | apply State.recordFault_keeps | apply State.modFaults_keeps
    | apply State.spareChange_keeps | apply State.loseUnit_keeps | apply State.emptySlots_keeps
    | apply State.retire_keeps | apply State.loseStack_keeps | apply State.loseCopy_keeps | apply Keeps.foldl
    | dsimp only)

theorem execPseudoChannelFault_keeps (stack : Nat) (s : State) (t : State)
    (h : execPseudoChannelFault stack s = .next t) : Keeps s t := by
  cases h
  with_reducible repeat' (first
    | assumption | exact Keeps.rfl' _ | apply State.stackFails_keeps | apply State.channelFails_keeps
    | apply Keeps.ite | split | dsimp only)

theorem execSpareFillComplete_keeps (stack : Nat) (s : State) (t : State)
    (h : execSpareFillComplete stack s = .next t) : Keeps s t := by
  cases h
  with_reducible repeat' (first
    | assumption | exact Keeps.rfl' _ | intro _ | apply State.bumpFree_keeps | apply State.modFaults_keeps
    | apply State.spareChange_keeps | apply Keeps.ite | split | dsimp only)

theorem execStackFault_keeps (stack : Nat) (cause : StackCause) (s : State) (t : State)
    (h : execStackFault stack cause s = .next t) : Keeps s t := by
  cases h
  with_reducible repeat' (first
    | assumption | exact Keeps.rfl' _ | apply State.stackFails_keeps | apply Keeps.ite | split | dsimp only)

theorem execJournalRebuildComplete_keeps (s : State) (t : State)
    (h : execJournalRebuildComplete s = .next t) : Keeps s t := by
  cases h
  with_reducible repeat' (first
    | assumption | exact Keeps.rfl' _ | apply State.bumpFree_keeps | apply Keeps.ite | split
    | (apply Keeps.upd; first | assumption | apply State.bumpFree_keeps) | dsimp only)

theorem State.readAgain_keeps {s0 : State} (s : State) (f : Nat) (hs : Keeps s0 s) :
    Keeps s0 (State.readAgain s f) := by
  unfold State.readAgain
  extract_lets k
  split
  · exact hs
  · split
    · exact hs
    · rename_i n tail s1 _ _ _ _ _
      have h1 : Keeps s0 s1 := State.modFn_keeps _ _ _ hs
      split
      · exact State.modFn_keeps _ _ _ (Keeps.updMem _ h1 (h1 := State.MemOk.stack)
          (h2 := fun m => Memory.wf_memWrite _ _ _ m.host) (h3 := State.MemOk.teams) (h4 := State.MemOk.ctxs)
          (h5 := State.MemOk.snaps) ..)
      · exact h1

theorem State.coreFails_keeps {s0 : State} (s : State) (hs : Keeps s0 s) :
    Keeps s0 (State.coreFails s) := by
  unfold State.coreFails
  with_reducible repeat' (first
    | assumption | intro _ | apply State.bumpFree_keeps | apply State.modCmds_keeps | apply State.restartCmds_keeps
    | apply State.contain_keeps | apply State.openWindow_keeps | apply State.readAgain_keeps | apply Keeps.foldl
    | apply Keeps.foldl_fst | apply Keeps.ite | apply Keeps.ite_fst | refine Keeps.of_fst (by assumption) ?_ | split
    | dsimp only)

theorem execMcHeartbeatMiss_keeps (core : Nat) (s : State) (t : State)
    (h : execMcHeartbeatMiss core s = .next t) : Keeps s t := by
  cases h
  with_reducible repeat' (first
    | assumption | exact Keeps.rfl' _ | intro _ | apply State.recordFault_keeps | apply State.modFaults_keeps
    | apply State.coreFails_keeps | apply State.fence_keeps | apply Keeps.ite | split | dsimp only)

theorem execDieLinkFault_keeps (_die : Nat) (s : State) (t : State)
    (h : execDieLinkFault _die s = .next t) : Keeps s t := by
  cases h
  with_reducible repeat' (first
    | assumption | exact Keeps.rfl' _ | intro _ | apply State.fence_keeps | apply Keeps.ite | apply Keeps.ite_fst
    | refine Keeps.of_fst (by assumption) ?_ | split | dsimp only)

theorem execRailFault_keeps (s : State) (t : State)
    (h : execRailFault s = .next t) : Keeps s t := by
  cases h
  with_reducible repeat' (first
    | assumption | exact Keeps.rfl' _ | apply State.fence_keeps | apply Keeps.ite | split
    | (apply Keeps.upd; first | assumption | apply State.fence_keeps) | dsimp only)

theorem State.noteTemps_keeps {s0 : State} (s : State) (hs : Keeps s0 s) :
    Keeps s0 (State.noteTemps s) := by
  unfold State.noteTemps
  with_reducible repeat' (first
    | assumption | intro _ | apply Keeps.ite | apply Keeps.ite_fst | refine Keeps.of_fst (by assumption) ?_ | split
    | (apply Keeps.upd; first | assumption | intro _ | apply Keeps.ite | apply Keeps.ite_fst | refine Keeps.of_fst (by assumption) ?_ | split)
    | dsimp only)

theorem State.readJunction_keeps {s0 : State} (s : State) (d tj : Nat) (hs : Keeps s0 s) :
    Keeps s0 (State.readJunction s d tj) := by
  unfold State.readJunction
  with_reducible repeat' (first
    | assumption | intro _ | apply State.modPower_keeps | apply State.modDie_keeps | apply State.noteTemps_keeps
    | apply Keeps.ite | apply Keeps.ite_fst | refine Keeps.of_fst (by assumption) ?_ | split | dsimp only)

theorem execThermalTrip_keeps (_die : Nat) (s : State) (t : State)
    (h : execThermalTrip _die s = .next t) : Keeps s t := by
  cases h
  with_reducible repeat' (first
    | assumption | exact Keeps.rfl' _ | intro _ | apply State.modPower_keeps | apply State.fence_keeps
    | apply State.readJunction_keeps | apply Keeps.ite | apply Keeps.ite_fst | refine Keeps.of_fst (by assumption) ?_
    | split | dsimp only)

theorem execFaultInAssert_keeps (heldNs : Nat) (s : State) (t : State)
    (h : execFaultInAssert heldNs s = .next t) : Keeps s t := by
  cases h
  with_reducible repeat' (first
    | assumption | exact Keeps.rfl' _ | intro _ | apply State.bumpFree_keeps | apply State.modFaults_keeps
    | apply State.fence_keeps | apply Keeps.ite | split | dsimp only)

theorem execFaultInRelease_keeps (s : State) (t : State)
    (h : execFaultInRelease s = .next t) : Keeps s t := by
  cases h
  with_reducible repeat' (first
    | assumption | exact Keeps.rfl' _ | apply State.modFaults_keeps)

theorem State.modPort_keeps {s0 : State} (s : State) (p : Nat) (f : Port → Port) (hs : Keeps s0 s) :
    Keeps s0 (State.modPort s p f) := by
  unfold State.modPort
  with_reducible repeat' (first
    | assumption | apply State.modFabric_keeps)

theorem State.movePort_keeps {s0 : State} (s : State) (p : Nat) (st : PortState) (hs : Keeps s0 s) :
    Keeps s0 (State.movePort s p st) := by
  unfold State.movePort
  with_reducible repeat' (first
    | assumption | intro _ | apply State.modPort_keeps | apply State.pulse_keeps | apply Keeps.ite | split
    | dsimp only)

theorem State.spareLane_keeps {s0 : State} (s : State) (p : Nat) (hs : Keeps s0 s) :
    Keeps s0 (State.spareLane s p) := by
  unfold State.spareLane
  with_reducible repeat' (first
    | assumption | intro _ | apply State.modFaults_keeps | apply State.spareChange_keeps | apply Keeps.ite | split
    | dsimp only)

theorem State.portUp_keeps {s0 : State} (s : State) (p : Nat) (hs : Keeps s0 s) :
    Keeps s0 (State.portUp s p) := by
  unfold State.portUp
  with_reducible repeat' (first
    | assumption | apply State.spareLane_keeps | apply State.modPort_keeps | apply State.movePort_keeps
    | apply State.flushWaiting_keeps)

theorem State.portStop_keeps {s0 : State} (s : State) (p : Nat) (st : PortState) (hs : Keeps s0 s) :
    Keeps s0 (State.portStop s p st) := by
  unfold State.portStop
  with_reducible repeat' (first
    | assumption | apply State.modPort_keeps | apply State.movePort_keeps)

theorem State.resendFrames_keeps {s0 : State} (s : State) (p least : Nat) (hs : Keeps s0 s) :
    Keeps s0 (State.resendFrames s p least) := by
  unfold State.resendFrames
  with_reducible repeat' (first
    | assumption | intro _ | apply State.drop_keeps | apply State.transmit_keeps | apply State.bumpFree_keeps
    | apply Keeps.foldl | dsimp only)

theorem State.portDown_keeps {s0 : State} (s : State) (p : Nat) (st : PortState) (least : Nat) (hs : Keeps s0 s) :
    Keeps s0 (State.portDown s p st least) := by
  unfold State.portDown
  with_reducible repeat' (first
    | assumption | apply State.portStop_keeps | apply State.resendFrames_keeps | apply Keeps.ite | split
    | dsimp only)

theorem execPortPartnerDetect_keeps (port : Nat) (s : State) (t : State)
    (h : execPortPartnerDetect port s = .next t) : Keeps s t := by
  cases h
  with_reducible repeat' (first
    | assumption | exact Keeps.rfl' _ | intro _ | apply State.modPort_keeps | apply Keeps.ite | split | dsimp only)

theorem State.forgetWays_keeps {s0 : State} (s : State) (p : Nat) (hs : Keeps s0 s) :
    Keeps s0 (State.forgetWays s p) := by
  unfold State.forgetWays
  with_reducible repeat' (first
    | assumption | apply State.modFabric_keeps)

theorem State.trainingFails_keeps {s0 : State} (s : State) (p : Nat) (hs : Keeps s0 s) :
    Keeps s0 (State.trainingFails s p) := by
  unfold State.trainingFails
  with_reducible repeat' (first
    | assumption | intro _ | apply State.portDown_keeps | apply State.modPort_keeps | apply State.recordFault_keeps
    | apply Keeps.ite | split | dsimp only)

theorem execTrainingComplete_keeps (port : Nat) (result : TrainResult) (s : State) (t : State)
    (h : execTrainingComplete port result s = .next t) : Keeps s t := by
  cases h
  with_reducible repeat' (first
    | assumption | exact Keeps.rfl' _ | intro _ | apply State.trainingFails_keeps | apply State.bumpFree_keeps
    | apply State.forgetWays_keeps | apply State.modPort_keeps | apply State.portUp_keeps | apply Keeps.ite | split
    | dsimp only)

theorem execPortPartnerLoss_keeps (port : Nat) (s : State) (t : State)
    (h : execPortPartnerLoss port s = .next t) : Keeps s t := by
  cases h
  with_reducible repeat' (first
    | assumption | exact Keeps.rfl' _ | apply State.portDown_keeps | split | dsimp only)

theorem execLaneRetire_keeps (port lane : Nat) (s : State) (t : State)
    (h : execLaneRetire port lane s = .next t) : Keeps s t := by
  cases h
  with_reducible repeat' (first
    | assumption | exact Keeps.rfl' _ | intro _ | apply State.retire_keeps | apply State.modPort_keeps
    | apply State.pulse_keeps | apply State.recordFault_keeps | apply State.portDown_keeps
    | apply State.modFaults_keeps | apply State.spareChange_keeps | apply Keeps.ite | split | dsimp only)

theorem execSwapComplete_keeps (port : Nat) (s : State) (t : State)
    (h : execSwapComplete port s = .next t) : Keeps s t := by
  cases h
  with_reducible repeat' (first
    | assumption | exact Keeps.rfl' _ | apply State.portUp_keeps | apply Keeps.ite | split | dsimp only)

theorem execLinkLevelResend_keeps (port : Nat) (failed : Bool) (s : State) (t : State)
    (h : execLinkLevelResend port failed s = .next t) : Keeps s t := by
  cases h
  with_reducible repeat' (first
    | assumption | exact Keeps.rfl' _ | intro _ | apply State.modStats_keeps | apply State.modPort_keeps
    | apply State.portDown_keeps | apply Keeps.ite | split | dsimp only)

theorem State.cartChange_keeps {s0 : State} (s : State) (hs : Keeps s0 s) :
    Keeps s0 (State.cartChange s) := by
  unfold State.cartChange
  with_reducible repeat' (first
    | assumption | apply State.modStats_keeps | apply State.pulse_keeps)

theorem State.setCart_keeps {s0 : State} (s : State) (n : Nat) (on : Bool) (hs : Keeps s0 s) :
    Keeps s0 (State.setCart s n on) := by
  unfold State.setCart
  with_reducible repeat' (first
    | assumption | apply State.modFabric_keeps | apply State.cartChange_keeps)

theorem execCartridgeFail_keeps (cartridge : Nat) (s : State) (t : State)
    (h : execCartridgeFail cartridge s = .next t) : Keeps s t := by
  cases h
  with_reducible repeat' (first
    | assumption | exact Keeps.rfl' _ | intro _ | apply State.modFabric_keeps | apply State.recordFault_keeps
    | apply State.fence_keeps | apply State.portStop_keeps | apply State.resendFrames_keeps
    | apply State.setCart_keeps | apply Keeps.foldl | apply Keeps.foldl_fst | apply Keeps.ite | apply Keeps.ite_fst
    | refine Keeps.of_fst (by assumption) ?_ | split | dsimp only)

theorem execCartridgeInsert_keeps (cartridge : Nat) (s : State) (t : State)
    (h : execCartridgeInsert cartridge s = .next t) : Keeps s t := by
  cases h
  with_reducible repeat' (first
    | assumption | exact Keeps.rfl' _ | apply State.cartChange_keeps | apply Keeps.ite | split | dsimp only)

theorem State.lightPorts_keeps {s0 : State} (s : State) (hs : Keeps s0 s) :
    Keeps s0 (State.lightPorts s) := by
  unfold State.lightPorts
  with_reducible repeat' (first
    | assumption | intro _ | apply State.modPort_keeps | apply Keeps.foldl | apply Keeps.foldl_fst | apply Keeps.ite
    | apply Keeps.ite_fst | refine Keeps.of_fst (by assumption) ?_ | split | dsimp only)

theorem execCartridgeReady_keeps (cartridge : Nat) (s : State) (t : State)
    (h : execCartridgeReady cartridge s = .next t) : Keeps s t := by
  cases h
  with_reducible repeat' (first
    | assumption | exact Keeps.rfl' _ | intro _ | apply State.setCart_keeps | apply State.lightPorts_keeps
    | apply Keeps.ite | apply Keeps.ite_fst | refine Keeps.of_fst (by assumption) ?_ | split | dsimp only)

theorem State.settleBlock_keeps {s0 : State} (s : State) (c : W32) (t : Nat) (b : Block) (hs : Keeps s0 s) :
    Keeps s0 (State.settleBlock s c t b).1 := by
  unfold State.settleBlock
  with_reducible repeat' (first
    | assumption | intro _ | apply State.putBlock_keeps | apply State.bumpFree_keeps
    | apply State.writeStackAt_keeps | apply Keeps.foldl | apply Keeps.foldl_fst | apply Keeps.ite
    | apply Keeps.ite_fst | split | dsimp only)

theorem State.settleBlocks_keeps {s0 : State} (s : State) (c : W32) (l : Launch) (hs : Keeps s0 s) :
    Keeps s0 (State.settleBlocks s c l).1 := by
  unfold State.settleBlocks
  with_reducible repeat' (first
    | assumption | intro _ | apply State.settleBlock_keeps | apply Keeps.foldl | apply Keeps.foldl_fst
    | refine Keeps.of_fst (by assumption) ?_ | dsimp only)

theorem State.rerun_keeps {s0 : State} (s : State) (c : W32) (l : Launch) (hs : Keeps s0 s) :
    Keeps s0 (State.rerun s c l) := by
  unfold State.rerun
  refine State.modCmd_keeps _ _ _ _ (State.modFabric_keeps _ _ (State.modCtx_keeps _ _ _ ?_ fun x h =>
    ⟨h.1, launchesOk_filter h.2 _⟩))
  exact Keeps.foldl _ _ _ (State.settleBlocks_keeps _ _ _ hs) fun s t h => State.modTeam_keeps _ _ _ h fun _ hk =>
    Team.memOk_rerun hk _ _ _

theorem State.rerunAll_keeps {s0 : State} (s : State) (c : W32) (hs : Keeps s0 s) :
    Keeps s0 (State.rerunAll s c) := by
  unfold State.rerunAll
  split
  · exact hs
  · dsimp only
    split
    · exact State.contain_keeps _ _ hs
    · exact Keeps.foldl _ _ _ hs fun s l h => State.rerun_keeps _ _ _ h

theorem execJournalReplay_keeps (ctx : W32) (s : State) (t : State)
    (h : execJournalReplay ctx s = .next t) : Keeps s t := by
  cases h
  with_reducible repeat' (first
    | assumption | exact Keeps.rfl' _ | intro _ | apply State.modCtx_keeps | apply State.modCtx_keeps
    | apply State.restoreTeams_keeps | apply State.endReplay_keeps | apply State.rerunAll_keeps | apply Keeps.ite
    | apply Keeps.ite_fst | refine Keeps.of_fst (by assumption) ?_
    | exact ⟨And.left (by assumption), launchesOk_modWhere (And.right (by assumption)) _ _ fun _ h => h⟩
    | exact ⟨And.left (by assumption), launchesOk_filter (And.right (by assumption)) _⟩
    | exact ⟨And.left (by assumption), launchesOk_nil⟩ | split | dsimp only)

/-! ### Finish -/

theorem State.takePoint_keeps {s0 : State} (s : State) (ctx : W32) (hs : Keeps s0 s) :
    Keeps s0 (State.takePoint s ctx) := by
  unfold State.takePoint
  with_reducible repeat' (first
    | assumption | intro _ | apply State.modCtx_keeps | apply State.modCtx_keeps | apply State.endDoze_keeps
    | apply Keeps.ite | apply Keeps.ite_fst | refine Keeps.of_fst (by assumption) ?_
    | exact ⟨And.left (by assumption), launchesOk_modWhere (And.right (by assumption)) _ _ fun _ h => h⟩
    | exact ⟨And.left (by assumption), launchesOk_filter (And.right (by assumption)) _⟩
    | exact ⟨And.left (by assumption), launchesOk_nil⟩ | split | dsimp only)

theorem execSnapshotStart_keeps (ctx : W32) (s : State) (t : State)
    (h : execSnapshotStart ctx s = .next t) : Keeps s t := by
  cases h
  with_reducible repeat' (first
    | assumption | exact Keeps.rfl' _ | intro _ | apply State.modCtx_keeps | apply State.modCtx_keeps
    | apply State.lateEvent_keeps | apply State.endDoze_keeps | apply Keeps.ite | apply Keeps.ite_fst
    | refine Keeps.of_fst (by assumption) ?_
    | exact ⟨And.left (by assumption), launchesOk_modWhere (And.right (by assumption)) _ _ fun _ h => h⟩
    | exact ⟨And.left (by assumption), launchesOk_filter (And.right (by assumption)) _⟩
    | exact ⟨And.left (by assumption), launchesOk_nil⟩ | split | dsimp only)

theorem State.regionPut_keeps {s0 : State} (s : State) (x : Ctx) (off : Nat) (b : List Byte) (hs : Keeps s0 s) :
    Keeps s0 (State.regionPut s x off b) := by
  unfold State.regionPut
  with_reducible repeat' (first
    | assumption | intro _ | apply State.busWrite_keeps | apply Keeps.ite | apply Keeps.ite_fst
    | refine Keeps.of_fst (by assumption) ?_ | split | dsimp only)

theorem execSnapshotComplete_keeps (ctx : W32) (s : State) (t : State)
    (h : execSnapshotComplete ctx s = .next t) : Keeps s t := by
  cases h
  split
  · exact Keeps.rfl' _
  · split
    · exact Keeps.rfl' _
    · split
      · exact Keeps.rfl' _
      · extract_lets steps n body size img s1 r s2 s3 s4 pc s5
        have h1 : Keeps s s1 := by
          apply State.regionPut_keeps
          apply State.bumpFree_keeps
          apply State.correctStores_keeps
          exact Keeps.rfl' _
        clear_value s1 body
        have h2 : Keeps s s2 := State.modFn_keeps _ _ _ h1
        have hc : ∀ x l, s.MemOk → teamsOk (s.onChip ctx x l).teams := fun x l k =>
          teamsOk_of _ fun t => Team.memOk_toSave (k.team t) _
        have h3 : Keeps s s3 := by
          apply Keeps.snapped h2
          intro k g
          apply snapsOk_cons
          · exact hc _ _ k
          · exact snapsOk_filter g.snaps _
        clear_value s3
        have h4 : Keeps s s4 := State.takePoint_keeps _ _ (State.modCtx_keeps _ _ _ h3 fun _ h => h)
        have h5 : Keeps s s5 := Keeps.ite _ (State.emitOut_keeps _ _ h4) h4
        clear_value s5
        apply State.finishRef_keeps
        exact h5

theorem State.writeBack_keeps {s0 : State} (s : State) (x : Ctx) (dest : Nat) (hs : Keeps s0 s) :
    Keeps s0 (State.writeBack s x dest) := by
  unfold State.writeBack
  with_reducible repeat' (first
    | assumption | intro _ | apply State.regionPut_keeps | apply Keeps.foldl | apply Keeps.foldl_fst | apply Keeps.ite
    | apply Keeps.ite_fst | refine Keeps.of_fst (by assumption) ?_ | split | dsimp only)

theorem State.hubAsRestored_keeps {s0 : State} (s : State) (c : W32) (fabric : Bool) (next : W64) (hs : Keeps s0 s) :
    Keeps s0 (State.hubAsRestored s c fabric next) := by
  unfold State.hubAsRestored
  with_reducible repeat' (first
    | assumption | intro _ | apply Keeps.ite | split | (apply Keeps.upd; first | assumption) | dsimp only)

theorem State.putChip_keeps {s0 : State} (s : State) (c : W32) (x : Ctx) (chip : OnChip) (next : W64) (hs : Keeps s0 s)
    (hc : s0.MemOk → teamsOk chip.teams) : Keeps s0 (State.putChip s c x chip next) := by
  unfold State.putChip
  extract_lets s1 fabric s2
  have put : ∀ (l : List (Nat × Team)) (s : State), Keeps s0 s → (s0.MemOk → teamsOk l) →
      Keeps s0 (l.foldl (fun s y => { s with teams := mapPut s.teams y.1 (y.2.streamsAfter s.stackLog.length) }) s) := by
    intro l
    induction l with
    | nil => exact fun s h _ => h
    | cons y r ih =>
      intro s h hl
      refine ih _ ⟨h.pending, h.part, h.metal, fun m => ?_⟩ fun m z hz => hl m z (List.mem_cons_of_mem _ hz)
      have k := h.mem m
      have hy := hl m y (by simp)
      exact ⟨k.stack, k.host, teamsOk_put k.teams _ ⟨hy.1, hy.2⟩, k.ctxs, k.snaps⟩
  have h1 : Keeps s0 s1 := put (x.teams.zip (mapVals chip.teams)) _ (State.dropUnfenced_keeps _ x.teams hs) fun m z hz => by
    obtain ⟨y, hy, e⟩ := List.mem_map.mp (List.of_mem_zip hz).2
    exact e ▸ hc m y hy
  have h2 : Keeps s0 s2 := Keeps.foldl _ _ _ h1 fun s o h => by
    split
    · split
      · exact Keeps.upd _ h ..
      · exact h
    · exact Keeps.upd _ h ..
  exact State.modCtx_keeps _ _ _ (State.hubAsRestored_keeps _ _ _ _ h2) fun _ h => h

theorem State.restoreFromSources_keeps {s0 : State} (s : State) (c : W32) (x : Ctx) (y : Cmd)
    (r : List Byte × List Byte) (hs : Keeps s0 s) :
    Keeps s0 (State.restoreFromSources s c x y r) := by
  unfold State.restoreFromSources
  with_reducible repeat' (first
    | assumption | intro _ | apply State.emitOut_keeps | apply State.finishCmd_keeps | apply State.modFaults_keeps
    | apply State.regionPut_keeps | apply Keeps.foldl | apply Keeps.foldl_fst | apply Keeps.ite | apply Keeps.ite_fst
    | refine Keeps.of_fst (by assumption) ?_ | split | dsimp only)

theorem State.restoreCopied_keeps {s0 : State} (s : State) (ref : CmdRef) (x : Ctx) (copies : List (List Byte))
    (failed : Bool) (hs : Keeps s0 s) :
    Keeps s0 (State.restoreCopied s ref x copies failed) := by
  unfold State.restoreCopied
  with_reducible repeat' (first
    | assumption | intro _ | apply State.modTeam_keeps | apply State.modTeam_keeps | apply State.modCtx_keeps
    | apply State.modCtx_keeps | apply State.forgetReleases_keeps | apply State.finishRef_keeps
    | apply State.modFaults_keeps | apply State.regionPut_keeps | apply State.hubAsRestored_keeps | apply Keeps.foldl
    | apply Keeps.foldl_fst | apply Keeps.ite | apply Keeps.ite_fst | refine Keeps.of_fst (by assumption) ?_
    | exact ⟨And.left (by assumption), launchesOk_modWhere (And.right (by assumption)) _ _ fun _ h => h⟩
    | exact ⟨And.left (by assumption), launchesOk_filter (And.right (by assumption)) _⟩
    | exact ⟨And.left (by assumption), launchesOk_nil⟩ | split | dsimp only)

theorem State.MemOk.image {s : State} (h : s.MemOk) {r : SnapRec} {chip : OnChip} (e : s.imageOk r = some chip) :
    teamsOk chip.teams := by
  unfold State.imageOk at e
  dsimp only at e
  split at e
  · obtain ⟨y, hy, rfl⟩ := Option.map_eq_some_iff.mp e
    exact h.snaps y (List.mem_of_find?_eq_some hy)
  · cases e

theorem State.restore_keeps {s0 : State} (s : State) (c : W32) (y : Cmd) (hs : Keeps s0 s) : Keeps s0 (State.restore s c y) := by
  unfold State.restore
  split
  · exact hs
  · split
    · split
      · exact State.restoreFromSources_keeps _ _ _ _ _ hs
      · exact State.finishCmd_keeps _ _ _ _ _ _ hs
    · split
      · exact State.finishCmd_keeps _ _ _ _ _ _ hs
      · rename_i e
        exact State.finishCmd_keeps _ _ _ _ _ _ (State.forgetReleases_keeps _ _ (State.putChip_keeps _ _ _ _ _
          (State.writeBack_keeps _ _ _ hs) fun m => (hs.mem m).image e))

theorem State.restoreEnds_keeps {s0 : State} (s : State) (copies : List (List Byte)) (failed : Bool)
    (hs : Keeps s0 s) :
    Keeps s0 (State.restoreEnds s copies failed) := by
  unfold State.restoreEnds
  with_reducible repeat' (first
    | assumption | intro _ | apply State.restoreCopied_keeps | apply State.modFaults_keeps | split | dsimp only)

theorem execTakeoverCopyComplete_keeps (copies : List (List Byte)) (failed : Bool) (s : State) (t : State)
    (h : execTakeoverCopyComplete copies failed s = .next t) : Keeps s t := by
  cases h
  with_reducible repeat' (first
    | assumption | exact Keeps.rfl' _ | intro _ | apply State.endTake_keeps | apply State.regionPut_keeps
    | apply State.restoreEnds_keeps | apply Keeps.foldl | apply Keeps.foldl_fst | apply Keeps.ite
    | apply Keeps.ite_fst | refine Keeps.of_fst (by assumption) ?_ | split
    | (apply Keeps.upd; first | assumption | exact Keeps.rfl' _ | intro _ | apply State.endTake_keeps | apply State.regionPut_keeps | apply State.restoreEnds_keeps | apply Keeps.foldl | apply Keeps.foldl_fst | apply Keeps.ite | apply Keeps.ite_fst | refine Keeps.of_fst (by assumption) ?_ | split)
    | dsimp only)

theorem State.selftest_keeps {s0 : State} (s : State) (c : W32) (y : Cmd) (hs : Keeps s0 s) :
    Keeps s0 (State.selftest s c y) := by
  unfold State.selftest
  with_reducible repeat' (first
    | assumption | intro _ | apply State.modTeam_keeps | apply State.bumpFree_keeps | apply State.finishCmd_keeps
    | apply State.endDoze_keeps | apply State.retireCore_keeps | apply State.retireCluster_keeps
    | apply Team.memOk_tested | apply Keeps.foldl | apply Keeps.foldl_fst | apply Keeps.ite | apply Keeps.ite_fst
    | refine Keeps.of_fst (by assumption) ?_ | split | dsimp only)

theorem State.settleCmd_keeps {s0 : State} (s : State) (c : W32) (y : Cmd) (hs : Keeps s0 s) :
    Keeps s0 (State.settleCmd s c y) := by
  unfold State.settleCmd
  with_reducible repeat' (first
    | assumption | intro _ | apply State.answerCopies_keeps | apply State.tryFinishLaunch_keeps
    | apply State.endDoze_keeps | apply State.tryFinishTable_keeps | apply State.restore_keeps
    | apply State.selftest_keeps | apply Keeps.ite | apply Keeps.ite_fst | refine Keeps.of_fst (by assumption) ?_
    | split | dsimp only)

theorem execCommandComplete_keeps (ctx : W32) (seq : W64) (s : State) (t : State)
    (h : execCommandComplete ctx seq s = .next t) : Keeps s t := by
  cases h
  with_reducible repeat' (first
    | assumption | exact Keeps.rfl' _ | apply State.settleCmd_keeps | apply State.completeCmd_keeps | split
    | dsimp only)

/-! ### Requests -/

theorem State.modPm_keeps {s0 : State} (s : State) (f : Postmaster → Postmaster) (hs : Keeps s0 s) :
    Keeps s0 (State.modPm s f) := by
  unfold State.modPm
  with_reducible repeat' (first
    | assumption | (apply Keeps.upd; first | assumption) | dsimp only)

theorem State.setLayout_keeps {s0 : State} (s : State) (b : List Byte) (hs : Keeps s0 s) :
    Keeps s0 (State.setLayout s b).1 := by
  unfold State.setLayout
  with_reducible repeat' (first
    | assumption | intro _ | apply State.modPm_keeps | apply Keeps.ite | apply Keeps.ite_fst | split | dsimp only)

theorem State.setIso_keeps {s0 : State} (s : State) (b : List Byte) (hs : Keeps s0 s) :
    Keeps s0 (State.setIso s b).1 := by
  unfold State.setIso
  with_reducible repeat' (first
    | assumption | intro _ | apply State.drop_keeps | apply State.modFn_keeps | apply Keeps.ite
    | apply Keeps.ite_fst | split | dsimp only)

theorem State.setPool_keeps {s0 : State} (s : State) (b : List Byte) (hs : Keeps s0 s) :
    Keeps s0 (State.setPool s b).1 := by
  unfold State.setPool
  with_reducible repeat' (first
    | assumption | intro _ | apply Keeps.ite | apply Keeps.ite_fst | split | (apply Keeps.upd; first | assumption)
    | dsimp only)

theorem State.limits_keeps {s0 : State} (s : State) (hs : Keeps s0 s) :
    Keeps s0 (State.limits s) := by
  unfold State.limits
  with_reducible repeat' (first
    | assumption | (apply Keeps.upd; first | assumption) | dsimp only)

theorem State.setLimits_keeps {s0 : State} (s : State) (b : List Byte) (hs : Keeps s0 s) :
    Keeps s0 (State.setLimits s b).1 := by
  unfold State.setLimits
  with_reducible repeat' (first
    | assumption | intro _ | apply State.modPm_keeps | apply State.limits_keeps | apply Keeps.ite
    | apply Keeps.ite_fst | split | dsimp only)

theorem State.setTime_keeps {s0 : State} (s : State) (b : List Byte) (hs : Keeps s0 s) :
    Keeps s0 (State.setTime s b).1 := by
  unfold State.setTime
  with_reducible repeat' (first
    | assumption | intro _ | apply State.modPm_keeps | apply Keeps.ite | apply Keeps.ite_fst | split | dsimp only)

theorem State.setKey_keeps {s0 : State} (s : State) (b : List Byte) (hs : Keeps s0 s) :
    Keeps s0 (State.setKey s b).1 := by
  unfold State.setKey
  with_reducible repeat' (first
    | assumption | intro _ | apply State.modPm_keeps | apply Keeps.ite | apply Keeps.ite_fst | split | dsimp only)

theorem State.revokeKey_keeps {s0 : State} (s : State) (b : List Byte) (hs : Keeps s0 s) :
    Keeps s0 (State.revokeKey s b).1 := by
  unfold State.revokeKey
  with_reducible repeat' (first
    | assumption | intro _ | apply State.modPm_keeps | apply Keeps.ite | apply Keeps.ite_fst | split | dsimp only)

theorem State.stageFirmware_keeps {s0 : State} (s : State) (b : List Byte) (hs : Keeps s0 s) :
    Keeps s0 (State.stageFirmware s b).1 := by
  unfold State.stageFirmware
  with_reducible repeat' (first
    | assumption | apply State.bumpFree_keeps | apply Keeps.ite | apply Keeps.ite_fst | split
    | (apply Keeps.upd; first | assumption | apply State.bumpFree_keeps) | dsimp only)

theorem State.operate_keeps {s0 : State} (s : State) (b : List Byte) (hs : Keeps s0 s) :
    Keeps s0 (State.operate s b).1 := by
  unfold State.operate
  with_reducible repeat' (first
    | assumption | apply State.setLayout_keeps | apply State.setIso_keeps | apply State.setPool_keeps
    | apply State.setLimits_keeps | apply State.setTime_keeps | apply State.setKey_keeps
    | apply State.revokeKey_keeps | apply State.stageFirmware_keeps | apply Keeps.ite | apply Keeps.ite_fst
    | refine Keeps.of_fst (by assumption) ?_ | split | dsimp only)

theorem State.runRequest_keeps {s0 : State} (s : State) (b : List Byte) (hs : Keeps s0 s) :
    Keeps s0 (State.runRequest s b).1 := by
  unfold State.runRequest
  with_reducible repeat' (first
    | assumption | intro _ | apply State.operate_keeps | apply State.bumpFree_keeps | apply State.modPm_keeps
    | apply Keeps.ite | apply Keeps.ite_fst | refine Keeps.of_fst (by assumption) ?_ | split | dsimp only)

theorem State.requestI3c_keeps {s0 : State} (s : State) (b : List Byte) (verified : Bool) (hs : Keeps s0 s) :
    Keeps s0 (State.requestI3c s b verified) := by
  unfold State.requestI3c
  with_reducible repeat' (first
    | assumption | intro _ | apply State.bumpFree_keeps | apply State.answer_keeps | apply State.takeCounter_keeps
    | apply State.refuseRequest_keeps | apply State.runRequest_keeps | apply Keeps.ite | apply Keeps.ite_fst
    | refine Keeps.of_fst (by assumption) ?_ | split | dsimp only)

theorem State.request_keeps {s0 : State} (s : State) (path : ReqPath) (p : Packet) (verified mine : Bool)
    (hs : Keeps s0 s) :
    Keeps s0 (State.request s path p verified mine) := by
  unfold State.request
  with_reducible repeat' (first
    | assumption | apply State.takeRequest_keeps | apply State.requestI3c_keeps | apply Keeps.ite | split
    | dsimp only)

theorem execSetLayout_keeps (path : ReqPath) (p : Packet) (verified : Bool) (s : State) (t : State)
    (h : execSetLayout path p verified s = .next t) : Keeps s t := by
  cases h
  with_reducible repeat' (first
    | assumption | exact Keeps.rfl' _ | apply State.request_keeps)

theorem execSetIso_keeps (path : ReqPath) (p : Packet) (verified : Bool) (s : State) (t : State)
    (h : execSetIso path p verified s = .next t) : Keeps s t := by
  cases h
  with_reducible repeat' (first
    | assumption | exact Keeps.rfl' _ | apply State.request_keeps)

theorem execSetPool_keeps (path : ReqPath) (p : Packet) (verified : Bool) (s : State) (t : State)
    (h : execSetPool path p verified s = .next t) : Keeps s t := by
  cases h
  with_reducible repeat' (first
    | assumption | exact Keeps.rfl' _ | apply State.request_keeps)

theorem execSetLimits_keeps (path : ReqPath) (p : Packet) (verified : Bool) (s : State) (t : State)
    (h : execSetLimits path p verified s = .next t) : Keeps s t := by
  cases h
  with_reducible repeat' (first
    | assumption | exact Keeps.rfl' _ | apply State.request_keeps)

theorem execSetTime_keeps (path : ReqPath) (p : Packet) (verified : Bool) (s : State) (t : State)
    (h : execSetTime path p verified s = .next t) : Keeps s t := by
  cases h
  with_reducible repeat' (first
    | assumption | exact Keeps.rfl' _ | apply State.request_keeps)

theorem execSetKey_keeps (path : ReqPath) (p : Packet) (verified : Bool) (s : State) (t : State)
    (h : execSetKey path p verified s = .next t) : Keeps s t := by
  cases h
  with_reducible repeat' (first
    | assumption | exact Keeps.rfl' _ | apply State.request_keeps)

theorem execRevokeKey_keeps (path : ReqPath) (p : Packet) (verified : Bool) (s : State) (t : State)
    (h : execRevokeKey path p verified s = .next t) : Keeps s t := by
  cases h
  with_reducible repeat' (first
    | assumption | exact Keeps.rfl' _ | apply State.request_keeps)

theorem execStageFirmware_keeps (path : ReqPath) (p : Packet) (verified : Bool) (s : State) (t : State)
    (h : execStageFirmware path p verified s = .next t) : Keeps s t := by
  cases h
  with_reducible repeat' (first
    | assumption | exact Keeps.rfl' _ | apply State.request_keeps)

theorem execUnknownPostmasterOp_keeps (path : ReqPath) (p : Packet) (verified : Bool) (s : State) (t : State)
    (h : execUnknownPostmasterOp path p verified s = .next t) : Keeps s t := by
  cases h
  with_reducible repeat' (first
    | assumption | exact Keeps.rfl' _ | apply State.request_keeps)

/-! ### Start -/

theorem State.startTeam_keeps {s0 : State} (s : State) (c : W32) (x : Ctx) (y : Cmd) (table : Memory) (t : Nat) (hs : Keeps s0 s) :
    Keeps s0 (State.startTeam s c x y table t) := by
  unfold State.startTeam
  extract_lets bank args step pc
  split
  · split
    · refine State.modTeam_keeps _ _ _ hs fun k h => ⟨h.1, fun z hz => ?_⟩
      obtain ⟨q, _, e⟩ := List.mem_map.mp hz
      exact e ▸ Core.memOk_start (h.core q) _
    · exact hs
  · exact hs

theorem State.launchesOk_keepRows (s : State) (ts : List Nat) {l : List Launch} (h : launchesOk l) :
    launchesOk (s.keepRows ts l) := by
  unfold State.keepRows
  induction ts generalizing l with
  | nil => exact h
  | cons t r ih =>
    refine ih ?_
    dsimp only
    split
    · exact launchesOk_modWhere h _ _ fun _ h => h
    · exact h

theorem State.beginLaunch_keeps {s0 : State} (s : State) (c : W32) (y : Cmd) (hs : Keeps s0 s) : Keeps s0 (State.beginLaunch s c y) := by
  unfold State.beginLaunch
  split
  · exact hs
  · dsimp only
    split
    · exact hs
    · split
      · exact State.finishCmd_keeps _ _ _ _ _ _ (Keeps.foldl _ _ _ hs fun s t h => State.modTeam_keeps _ _ _ h fun _ hk => hk)
      · split
        · exact State.finishCmd_keeps _ _ _ _ _ _ hs
        · refine Keeps.foldl _ _ _ ?_ fun s t h => State.startTeam_keeps _ _ _ _ _ _ h
          exact State.modCtx_keeps' _ _ _ (State.seesHost_keeps _ _ (State.endDoze_keeps _ hs)) fun _ m x h =>
            ⟨h.1, launchesOk_append (State.launchesOk_keepRows s _ h.2) (launchesOk_cons (teamsOk_of _ fun t => m.team t) launchesOk_nil)⟩

theorem State.beginLaunches_keeps {s0 : State} (s : State) (c : W32) (hs : Keeps s0 s) :
    Keeps s0 (State.beginLaunches s c) := by
  unfold State.beginLaunches
  with_reducible repeat' (first
    | assumption | intro _ | apply State.beginLaunch_keeps | apply Keeps.foldl | dsimp only)

theorem execKernelEnd_keeps (team : Nat) (s : State) (t : State)
    (h : execKernelEnd team s = .next t) : Keeps s t := by
  cases h
  split
  · exact Keeps.rfl' _
  · extract_lets drained s1 put s2 last s3
    split
    · exact Keeps.rfl' _
    · have h1 : Keeps s s1 := State.modTeam_keeps _ _ _ (Keeps.rfl' _) fun _ h => h
      have h2 : Keeps s s2 := State.modCtx_keeps _ _ _ h1 fun x h => ⟨h.1, launchesOk_map h.2 _ fun l hl => by
        show teamsOk (if _ then _ else _ : Launch).startTeams
        split <;> exact hl⟩
      have h3 : Keeps s s3 := by
        show Keeps s (if _ then _ else _)
        split
        · exact State.answerCopies_keeps _ (State.tryFinishLaunch_keeps _ _ _ (State.offerHeld_keeps _
            (State.dropSkipped_keeps _ _ _ (State.endIncomplete_keeps _ _ _ h2))))
        · exact h2
      exact State.beginLaunches_keeps _ _ h3

theorem execTranslationComplete_keeps (ctx : W32) (seq : W64) (s : State) (t : State)
    (h : execTranslationComplete ctx seq s = .next t) : Keeps s t := by
  cases h
  with_reducible repeat' (first
    | assumption | exact Keeps.rfl' _ | intro _ | apply State.modTeam_keeps | apply State.finishCmd_keeps
    | apply State.endDoze_keeps | apply State.settleDeferred_keeps | apply State.beginLaunches_keeps
    | apply Team.memOk_load | apply Team.memOk_refuse | apply Keeps.foldl | apply Keeps.foldl_fst | apply Keeps.ite
    | apply Keeps.ite_fst | refine Keeps.of_fst (by assumption) ?_ | split
    | (apply Keeps.upd; first | assumption | exact Keeps.rfl' _ | intro _ | apply State.modTeam_keeps | apply State.finishCmd_keeps | apply State.endDoze_keeps | apply State.settleDeferred_keeps | apply State.beginLaunches_keeps | apply Team.memOk_load | apply Team.memOk_refuse | apply Keeps.foldl | apply Keeps.foldl_fst | apply Keeps.ite | apply Keeps.ite_fst | refine Keeps.of_fst (by assumption) ?_ | split)
    | dsimp only)

theorem State.createContext_keeps {s0 : State} (s : State) (c : W32) (y : Cmd) (hs : Keeps s0 s) : Keeps s0 (State.createContext s c y) := by
  unfold State.createContext
  extract_lets p new mask ts f running x s1
  split
  · exact State.finishCmd_keeps _ _ _ _ _ _ hs
  · have h1 : Keeps s0 s1 := by
      show Keeps s0 (if _ then _ else _)
      split
      · exact State.freshTeams_keeps _ _ hs
      · exact hs
    refine State.finishCmd_keeps _ _ _ _ _ _ (Keeps.updMem _ h1 (h1 := State.MemOk.stack) (h2 := State.MemOk.host)
      (h3 := State.MemOk.teams) (h4 := fun m => forall_mapPut _ _ _ m.ctxs ⟨?_, launchesOk_nil⟩) (h5 := State.MemOk.snaps) ..)
    show teamsOk (if _ then _ else _)
    split
    · exact teamsOk_nil
    · exact teamsOk_of _ fun _ => Team.memOk_reset

theorem State.startPreempt_keeps {s0 : State} (s : State) (c : W32) (y : Cmd) (hs : Keeps s0 s) :
    Keeps s0 (State.startPreempt s c y) := by
  unfold State.startPreempt
  with_reducible repeat' (first
    | assumption | intro _ | apply State.finishCmd_keeps | apply State.modCtx_keeps | apply State.lateEvent_keeps
    | apply Keeps.ite | split | dsimp only)

theorem State.startResume_keeps {s0 : State} (s : State) (c : W32) (y : Cmd) (hs : Keeps s0 s) :
    Keeps s0 (State.startResume s c y) := by
  unfold State.startResume
  with_reducible repeat' (first
    | assumption | intro _ | apply State.finishCmd_keeps | apply State.modCtx_keeps | apply Keeps.ite | split
    | dsimp only)

theorem State.dropReplay_keeps {s0 : State} (s : State) (c : W32) (hs : Keeps s0 s) :
    Keeps s0 (State.dropReplay s c) := by
  unfold State.dropReplay
  with_reducible repeat' (first
    | assumption | intro _ | apply State.endReplay_keeps | apply Keeps.ite | apply Keeps.ite_fst
    | refine Keeps.of_fst (by assumption) ?_ | split | dsimp only)

theorem State.runReset_keeps {s0 : State} (s : State) (c : W32) (y : Cmd) (hs : Keeps s0 s) :
    Keeps s0 (State.runReset s c y) := by
  unfold State.runReset
  with_reducible repeat' (first
    | assumption | intro _ | apply State.finishCmd_keeps | apply State.resetContext_keeps
    | apply State.dropReplay_keeps | apply State.modCtx_keeps | refine Keeps.of_fst (by assumption) ?_ | split
    | dsimp only)

theorem State.runDestroy_keeps {s0 : State} (s : State) (c : W32) (y : Cmd) (hs : Keeps s0 s) :
    Keeps s0 (State.runDestroy s c y) := by
  unfold State.runDestroy
  with_reducible repeat' (first
    | assumption | apply State.finishCmd_keeps | apply State.destroyContext_keeps | apply State.dropReplay_keeps
    | split | dsimp only)

theorem State.runRoleAssign_keeps {s0 : State} (s : State) (c : W32) (y : Cmd) (hs : Keeps s0 s) :
    Keeps s0 (State.runRoleAssign s c y) := by
  unfold State.runRoleAssign
  with_reducible repeat' (first
    | assumption | intro _ | apply State.finishCmd_keeps | apply State.bindRole_keeps
    | apply State.flushWaiting_keeps | apply Keeps.ite | split | dsimp only)

theorem State.runSpareArm_keeps {s0 : State} (s : State) (c : W32) (y : Cmd) (hs : Keeps s0 s) :
    Keeps s0 (State.runSpareArm s c y) := by
  unfold State.runSpareArm
  with_reducible repeat' (first
    | assumption | intro _ | apply State.setTake_keeps | apply State.modFaults_keeps | apply State.finishCmd_keeps
    | apply Keeps.ite | split | dsimp only)

theorem State.runTakeover_keeps {s0 : State} (s : State) (c : W32) (y : Cmd) (hs : Keeps s0 s) :
    Keeps s0 (State.runTakeover s c y) := by
  unfold State.runTakeover
  with_reducible repeat' (first
    | assumption | apply State.finishCmd_keeps | apply State.yieldRole_keeps | apply State.takeRole_keeps
    | apply Keeps.ite | split | dsimp only)

theorem State.runFrankRead_keeps {s0 : State} (s : State) (c : W32) (y : Cmd) (hs : Keeps s0 s) : Keeps s0 (State.runFrankRead s c y) := by
  unfold State.runFrankRead
  exact State.finishCmd_keeps _ _ _ _ _ _ (Keeps.updMem _ hs (h1 := State.MemOk.stack)
    (h2 := fun m => Memory.wf_memWrite _ _ _ m.host) (h3 := State.MemOk.teams) (h4 := State.MemOk.ctxs) (h5 := State.MemOk.snaps) ..)

theorem State.startSnapshot_keeps {s0 : State} (s : State) (c : W32) (y : Cmd) (hs : Keeps s0 s) :
    Keeps s0 (State.startSnapshot s c y) := by
  unfold State.startSnapshot
  with_reducible repeat' (first
    | assumption | intro _ | apply State.modCtx_keeps | dsimp only)

theorem State.runTableCreate_keeps {s0 : State} (s : State) (c : W32) (y : Cmd) (hs : Keeps s0 s) :
    Keeps s0 (State.runTableCreate s c y) := by
  unfold State.runTableCreate
  with_reducible repeat' (first
    | assumption | intro _ | apply State.createTable_keeps | apply State.bumpFree_keeps | apply State.modCmd_keeps
    | apply State.tryFinishTable_keeps | apply State.finishCmd_keeps | apply Keeps.ite | apply Keeps.ite_fst
    | refine Keeps.of_fst (by assumption) ?_ | split | dsimp only)

theorem State.runCmd_keeps {s0 : State} (s : State) (c : W32) (y : Cmd) (hs : Keeps s0 s) :
    Keeps s0 (State.runCmd s c y) := by
  unfold State.runCmd
  with_reducible repeat' (first
    | assumption | apply State.finishCmd_keeps | apply State.beginLaunches_keeps | apply State.runTableCreate_keeps
    | apply State.beginReplace_keeps | apply State.loadGraph_keeps | apply State.createContext_keeps
    | apply State.startPreempt_keeps | apply State.startResume_keeps | apply State.runDestroy_keeps
    | apply State.runReset_keeps | apply State.startSnapshot_keeps | apply State.runRoleAssign_keeps
    | apply State.runSpareArm_keeps | apply State.runTakeover_keeps | apply State.runFrankRead_keeps
    | apply State.runRequest_keeps | apply Keeps.ite | apply Keeps.ite_fst | refine Keeps.of_fst (by assumption) ?_
    | split | (apply Keeps.upd; first | assumption) | dsimp only)

theorem execCommandStart_keeps (ctx : W32) (seq : W64) (s : State) (t : State)
    (h : execCommandStart ctx seq s = .next t) : Keeps s t := by
  cases h
  with_reducible repeat' (first
    | assumption | exact Keeps.rfl' _ | intro _ | apply State.modCmd_keeps | apply State.runCmd_keeps
    | apply Keeps.ite | split
    | (apply Keeps.upd; first | assumption | apply State.modCmd_keeps | apply State.runCmd_keeps) | dsimp only)

theorem execPreemptionPoint_keeps (ctx : W32) (s : State) (t : State)
    (h : execPreemptionPoint ctx s = .next t) : Keeps s t := by
  cases h
  with_reducible repeat' (first
    | assumption | exact Keeps.rfl' _ | apply State.takePoint_keeps | apply Keeps.ite | split | dsimp only)

theorem execQuiesceTimeout_keeps (ctx : W32) (s : State) (t : State)
    (h : execQuiesceTimeout ctx s = .next t) : Keeps s t := by
  cases h
  with_reducible repeat' (first
    | assumption | exact Keeps.rfl' _ | intro _ | apply State.modCtx_keeps | apply State.modCtx_keeps
    | apply State.finishRef_keeps | apply State.takePoint_keeps | apply Keeps.ite | apply Keeps.ite_fst
    | refine Keeps.of_fst (by assumption) ?_
    | exact ⟨And.left (by assumption), launchesOk_modWhere (And.right (by assumption)) _ _ fun _ h => h⟩
    | exact ⟨And.left (by assumption), launchesOk_filter (And.right (by assumption)) _⟩
    | exact ⟨And.left (by assumption), launchesOk_nil⟩ | split | dsimp only)

theorem execPreemptSaveComplete_keeps (ctx : W32) (s : State) (t : State)
    (h : execPreemptSaveComplete ctx s = .next t) : Keeps s t := by
  cases h
  with_reducible repeat' (first
    | assumption | exact Keeps.rfl' _ | intro _ | apply State.pauseBlocks_keeps | apply State.bumpFree_keeps
    | apply State.saveTeams_keeps | apply State.modCtx_keeps | apply State.finishRef_keeps | apply Keeps.foldl
    | apply Keeps.ite | split | dsimp only)

theorem execResumeRestore_keeps (ctx : W32) (s : State) (t : State)
    (h : execResumeRestore ctx s = .next t) : Keeps s t := by
  cases h
  split
  · exact Keeps.rfl' _
  · split
    · exact Keeps.rfl' _
    · split
      · exact Keeps.rfl' _
      · refine State.beginLaunches_keeps _ _ (State.finishRef_keeps _ _ _ _ _
          (State.chargeRestore_keeps _ _ _ _ (State.restoreTeams_keeps _ _ ?_)))
        exact State.modCtx_keeps _ _ _ (State.bumpFree_keeps _ (State.endDoze_keeps _ (Keeps.rfl' _))) fun x h =>
          ⟨h.1, launchesOk_map h.2 _ fun _ hl => hl⟩

end Sys2Proof.Machine
end

