-- ==== Sys2Proof/Laws/KeepsModule.lean ====
section
/-! SUPPORT. What is kept (Laws/Keeps.lean) by time, reset, register access, power and the tick: one lemma for each operation. -/

namespace Sys2Proof.Machine

open Sys2Proof

/-! ### Order -/

/-! ### Time -/

theorem State.modTime_keeps {s0 : State} (s : State) (f : TimeUnit → TimeUnit) (hs : Keeps s0 s) :
    Keeps s0 (State.modTime s f) := by
  unfold State.modTime
  with_reducible repeat' (first
    | assumption | (apply Keeps.upd; first | assumption) | dsimp only)

theorem State.stepTo_keeps {s0 : State} (s : State) (p : W64) (hs : Keeps s0 s) : Keeps s0 (State.stepTo s p) :=
  Keeps.updMem _ hs (h1 := State.MemOk.stack) (h2 := State.MemOk.host)
    (h3 := fun m => teamsOk_map m.teams _ fun _ h => Team.memOk_shift h _)
    (h4 := fun m => ctxsOk_map m.ctxs _ fun _ h => Ctx.memOk_shift h _) (h5 := State.MemOk.snaps) ..

theorem State.everyFn_keeps {s0 : State} (s : State) (g : Fn → Fn) (hs : Keeps s0 s) :
    Keeps s0 (State.everyFn s g) := by
  unfold State.everyFn
  with_reducible repeat' (first
    | assumption | intro _ | apply State.modFn_keeps | apply Keeps.foldl | apply Keeps.foldl_fst | apply Keeps.ite
    | apply Keeps.ite_fst | refine Keeps.of_fst (by assumption) ?_ | split | dsimp only)

theorem State.frankFirst_keeps {s0 : State} (s : State) (hs : Keeps s0 s) :
    Keeps s0 (State.frankFirst s) := by
  unfold State.frankFirst
  with_reducible repeat' (first
    | assumption | intro _ | apply State.everyFn_keeps | apply Keeps.ite | apply Keeps.ite_fst
    | refine Keeps.of_fst (by assumption) ?_ | split | dsimp only)

theorem State.lock_keeps {s0 : State} (s : State) (hs : Keeps s0 s) :
    Keeps s0 (State.lock s) := by
  unfold State.lock
  with_reducible repeat' (first
    | assumption | intro _ | apply State.frankFirst_keeps | apply State.modTime_keeps | apply State.pulse_keeps
    | apply Keeps.ite | split | dsimp only)

theorem State.holdover_keeps {s0 : State} (s : State) (hs : Keeps s0 s) :
    Keeps s0 (State.holdover s) := by
  unfold State.holdover
  with_reducible repeat' (first
    | assumption | intro _ | apply State.modTime_keeps | apply State.pulse_keeps | split | dsimp only)

theorem State.follow_keeps {s0 : State} (s : State) (hs : Keeps s0 s) :
    Keeps s0 (State.follow s) := by
  unfold State.follow
  with_reducible repeat' (first
    | assumption | intro _ | apply State.modTime_keeps | split | dsimp only)

theorem State.discipline_keeps {s0 : State} (s : State) (f : TimeFrame) (x : Port) (hs : Keeps s0 s) :
    Keeps s0 (State.discipline s f x) := by
  unfold State.discipline
  with_reducible repeat' (first
    | assumption | intro _ | apply State.modTime_keeps | apply State.stepTo_keeps | apply State.lock_keeps
    | apply State.holdover_keeps | apply Keeps.ite | split | dsimp only)

theorem execTimeFrame_keeps (port : Nat) (frame : TimeFrame) (s : State) (t : State)
    (h : execTimeFrame port frame s = .next t) : Keeps s t := by
  cases h
  with_reducible repeat' (first
    | assumption | exact Keeps.rfl' _ | intro _ | apply State.modPort_keeps | apply State.modTime_keeps
    | apply State.follow_keeps | apply State.discipline_keeps | apply Keeps.ite | split | dsimp only)

theorem execTimeFrameSend_keeps (s : State) (t : State)
    (h : execTimeFrameSend s = .next t) : Keeps s t := by
  cases h
  with_reducible repeat' (first
    | assumption | exact Keeps.rfl' _ | intro _ | apply State.emitOut_keeps | apply State.advertise_keeps
    | apply Keeps.foldl | apply Keeps.ite | split | dsimp only)

theorem execLockLoss_keeps (cause : LossCause) (s : State) (t : State)
    (h : execLockLoss cause s = .next t) : Keeps s t := by
  cases h
  with_reducible repeat' (first
    | assumption | exact Keeps.rfl' _ | apply State.holdover_keeps | apply Keeps.ite | split | dsimp only)

theorem execMasterTimeout_keeps (s : State) (t : State)
    (h : execMasterTimeout s = .next t) : Keeps s t := by
  cases h
  with_reducible repeat' (first
    | assumption | exact Keeps.rfl' _ | intro _ | apply State.modPort_keeps | apply State.modTime_keeps
    | apply Keeps.foldl | apply Keeps.ite | split | dsimp only)

theorem execPpsEdge_keeps (s : State) (t : State)
    (h : execPpsEdge s = .next t) : Keeps s t := by
  cases h
  with_reducible repeat' (first
    | assumption | exact Keeps.rfl' _ | intro _ | apply State.pulse_keeps | apply State.modTime_keeps
    | apply State.stepTo_keeps | apply State.lock_keeps | apply Keeps.ite | split | dsimp only)

theorem execReferenceAcquire_keeps (s : State) (t : State)
    (h : execReferenceAcquire s = .next t) : Keeps s t := by
  cases h
  with_reducible repeat' (first
    | assumption | exact Keeps.rfl' _ | intro _ | apply State.modTime_keeps | apply State.holdover_keeps
    | apply Keeps.ite | split | dsimp only)

theorem execReferenceLoss_keeps (_cause : RefCause) (s : State) (t : State)
    (h : execReferenceLoss _cause s = .next t) : Keeps s t := by
  cases h
  with_reducible repeat' (first
    | assumption | exact Keeps.rfl' _ | intro _ | apply State.modTime_keeps | apply State.holdover_keeps
    | apply Keeps.ite | split | dsimp only)

theorem execRoundBoundary_keeps (s : State) (t : State)
    (h : execRoundBoundary s = .next t) : Keeps s t := by
  cases h
  with_reducible repeat' (first
    | assumption | exact Keeps.rfl' _ | intro _ | apply State.modTime_keeps | apply State.sendAcks_keeps
    | apply Keeps.ite | apply Core.memOk_start | split | dsimp only)

theorem execScheduleActivate_keeps (s : State) (t : State)
    (h : execScheduleActivate s = .next t) : Keeps s t := by
  cases h
  with_reducible repeat' (first
    | assumption | exact Keeps.rfl' _ | intro _ | apply State.modFabric_keeps | apply State.finishRef_keeps
    | apply State.modTime_keeps | apply Keeps.ite | apply Keeps.ite_fst | refine Keeps.of_fst (by assumption) ?_
    | split | dsimp only)

theorem execFrankingBoundary_keeps (s : State) (t : State)
    (h : execFrankingBoundary s = .next t) : Keeps s t := by
  cases h
  with_reducible repeat' (first
    | assumption | exact Keeps.rfl' _ | intro _ | apply State.modFn_keeps | apply State.pulse_keeps
    | apply Keeps.foldl | apply Keeps.ite | split | dsimp only)

theorem State.shareEnergy_keeps {s0 : State} (s : State) (amount unheld : Nat) (use : Fn → Nat) (hs : Keeps s0 s) :
    Keeps s0 (State.shareEnergy s amount unheld use) := by
  unfold State.shareEnergy
  with_reducible repeat' (first
    | assumption | intro _ | apply State.modFn_keeps | apply Keeps.foldl | apply Keeps.ite | split | dsimp only)

theorem execEnergyInterval_keeps (dieMillijoules : List Nat) (restMillijoules : Nat) (s : State) (t : State)
    (h : execEnergyInterval dieMillijoules restMillijoules s = .next t) : Keeps s t := by
  cases h
  with_reducible repeat' (first
    | assumption | exact Keeps.rfl' _ | intro _ | apply State.everyFn_keeps | apply State.shareEnergy_keeps
    | apply Keeps.foldl | apply Keeps.foldl_fst | apply Keeps.ite | apply Keeps.ite_fst
    | refine Keeps.of_fst (by assumption) ?_ | split
    | (apply Keeps.upd; first | assumption | exact Keeps.rfl' _ | intro _ | apply State.everyFn_keeps | apply State.shareEnergy_keeps | apply Keeps.foldl | apply Keeps.foldl_fst | apply Keeps.ite | apply Keeps.ite_fst | refine Keeps.of_fst (by assumption) ?_ | split)
    | dsimp only)

theorem execTelemetryRefresh_keeps (vin iin pin pinPeak : W16) (temps : List Nat) (hubTj : Nat) (s : State) (t : State)
    (h : execTelemetryRefresh vin iin pin pinPeak temps hubTj s = .next t) : Keeps s t := by
  cases h
  with_reducible repeat' (first
    | assumption | exact Keeps.rfl' _ | intro _ | apply State.noteTemps_keeps | apply State.everyFn_keeps
    | apply Keeps.ite | apply Keeps.ite_fst | refine Keeps.of_fst (by assumption) ?_ | split
    | (apply Keeps.upd; first | assumption | exact Keeps.rfl' _ | intro _ | apply State.noteTemps_keeps | apply State.everyFn_keeps | apply Keeps.ite | apply Keeps.ite_fst | refine Keeps.of_fst (by assumption) ?_ | split)
    | dsimp only)

/-! ### Reset -/

theorem State.loadTime_keeps {s0 : State} (s : State) (hs : Keeps s0 s) :
    Keeps s0 (State.loadTime s) := by
  unfold State.loadTime
  with_reducible repeat' (first
    | assumption | apply State.modTime_keeps)

theorem State.saveForReset_keeps {s0 : State} (s : State) (c : W32) (hs : Keeps s0 s) :
    Keeps s0 (State.saveForReset s c) := by
  unfold State.saveForReset
  with_reducible repeat' (first
    | assumption | intro _ | apply State.interrupt_keeps | apply State.saveTeams_keeps | apply State.modCtx_keeps
    | apply Keeps.foldl | exact ⟨And.left (by assumption), launchesOk_filter (And.right (by assumption)) _⟩ | split
    | dsimp only)

theorem State.loseFabric_keeps {s0 : State} (s : State) (c : W32) (hs : Keeps s0 s) :
    Keeps s0 (State.loseFabric s c) := by
  unfold State.loseFabric
  with_reducible repeat' (first
    | assumption | intro _ | apply State.stopCtx_keeps | apply State.abandonAll_keeps | apply Keeps.ite
    | apply Keeps.ite_fst | refine Keeps.of_fst (by assumption) ?_ | split | dsimp only)

theorem State.restoreHub_keeps {s0 : State} (s : State) (hs : Keeps s0 s) : Keeps s0 (State.restoreHub s) :=
  Keeps.updMem _ hs (h1 := State.MemOk.stack) (h2 := State.MemOk.host) (h3 := State.MemOk.teams)
    (h4 := fun m => ctxsOk_map m.ctxs _ fun _ h => h) (h5 := State.MemOk.snaps) ..

theorem State.resetUnits_keeps {s0 : State} (s : State) (hs : Keeps s0 s) : Keeps s0 (State.resetUnits s) := by
  refine Keeps.updMem _ hs (h1 := State.MemOk.stack) (h2 := State.MemOk.host) (h3 := fun _ x hx => ?_)
    (h4 := State.MemOk.ctxs) (h5 := State.MemOk.snaps) ..
  obtain ⟨y, _, e⟩ := List.mem_map.mp hx
  exact e ▸ ⟨rfl, Team.memOk_reset.2⟩

theorem State.downReset_keeps {s0 : State} (s : State) (fenced : Bool) (hs : Keeps s0 s) : Keeps s0 (State.downReset s fenced) := by
  unfold State.downReset
  extract_lets s1 fabric s2 lost q s3 s4 r
  have h1 : Keeps s0 s1 := by
    show Keeps s0 (if _ then _ else _)
    split
    · exact hs
    · exact Keeps.foldl _ _ _ hs fun s x h => State.saveForReset_keeps _ _ h
  have h2 : Keeps s0 s2 := Keeps.foldl _ _ _ h1 fun s x h => State.loseFabric_keeps _ _ h
  have h3 : Keeps s0 s3 := by
    refine Keeps.updMem _ h2 (h1 := State.MemOk.stack) (h2 := State.MemOk.host) (h3 := State.MemOk.teams)
      (h4 := fun m => ctxsOk_map m.ctxs _ fun x h => ⟨h.1, ?_⟩) (h5 := State.MemOk.snaps) ..
    show launchesOk (if _ then _ else _)
    split
    · exact launchesOk_nil
    · exact h.2
  have h4 : Keeps s0 s4 := State.modTime_keeps _ _ (State.loadTime_keeps _ (State.holdover_keeps _ (State.resetUnits_keeps _ h3)))
  exact Keeps.upd _ h4 ..

theorem State.countReset_keeps {s0 : State} (s : State) (type : Nat) (hs : Keeps s0 s) :
    Keeps s0 (State.countReset s type) := by
  unfold State.countReset
  with_reducible repeat' (first
    | assumption | (apply Keeps.upd; first | assumption) | dsimp only)

theorem State.moduleReset_keeps {s0 : State} (s : State) (type : Nat) (boot : BootPhase) (hs : Keeps s0 s) :
    Keeps s0 (State.moduleReset s type boot) := by
  unfold State.moduleReset
  with_reducible repeat' (first
    | assumption | apply State.downReset_keeps | apply State.countReset_keeps
    | (apply Keeps.upd; first | assumption | apply State.downReset_keeps | apply State.countReset_keeps)
    | dsimp only)

theorem State.loseSupply_keeps {s0 : State} (s : State) (hs : Keeps s0 s) : Keeps s0 (State.loseSupply s) :=
  ⟨hs.pending, hs.part, hs.metal, fun m =>
    have h := hs.mem m
    ⟨rfl, h.host, fun _ h => absurd h List.not_mem_nil, fun _ h => absurd h List.not_mem_nil,
      fun _ h => absurd h List.not_mem_nil⟩⟩

theorem State.retireAtStart_keeps {s0 : State} (s : State) (r : Retired) (hs : Keeps s0 s) :
    Keeps s0 (State.retireAtStart s r) := by
  unfold State.retireAtStart
  with_reducible repeat' (first
    | assumption | intro _ | apply State.pulse_keeps | apply State.modFaults_keeps | apply State.spareChange_keeps
    | apply State.retire_keeps | apply State.clusterFails_keeps | apply State.stackFails_keeps
    | apply State.modPort_keeps | apply Keeps.ite | apply Keeps.ite_fst | refine Keeps.of_fst (by assumption) ?_
    | split
    | (apply Keeps.upd; first | assumption | intro _ | apply State.pulse_keeps | apply State.modFaults_keeps | apply State.spareChange_keeps | apply State.retire_keeps | apply State.clusterFails_keeps | apply State.stackFails_keeps | apply State.modPort_keeps | apply Keeps.ite | apply Keeps.ite_fst | refine Keeps.of_fst (by assumption) ?_ | split)
    | dsimp only)

theorem State.lockMaster_keeps {s0 : State} (s : State) (hs : Keeps s0 s) :
    Keeps s0 (State.lockMaster s) := by
  unfold State.lockMaster
  with_reducible repeat' (first
    | assumption | intro _ | apply State.lock_keeps | apply State.holdover_keeps | apply State.modTime_keeps
    | apply Keeps.ite | split | dsimp only)

theorem State.settleMaster_keeps {s0 : State} (s : State) (hs : Keeps s0 s) :
    Keeps s0 (State.settleMaster s) := by
  unfold State.settleMaster
  with_reducible repeat' (first
    | assumption | apply State.lock_keeps | apply Keeps.ite | split | dsimp only)

theorem State.loadFlash_keeps {s0 : State} (s : State) (hs : Keeps s0 s) :
    Keeps s0 (State.loadFlash s) := by
  unfold State.loadFlash
  with_reducible repeat' (first
    | assumption | intro _ | apply State.loadTime_keeps | apply State.modTime_keeps | apply State.modPm_keeps
    | apply State.stepTo_keeps | apply Keeps.ite | split
    | (apply Keeps.upd; first | assumption | apply State.loadTime_keeps | apply State.modTime_keeps | apply State.modPm_keeps | apply State.stepTo_keeps)
    | dsimp only)

theorem State.startupEffect_keeps {s0 : State} (s : State) (n : Nat) (hs : Keeps s0 s) :
    Keeps s0 (State.startupEffect s n) := by
  unfold State.startupEffect State.raiseRails
  with_reducible repeat' (first
    | assumption | intro _ | apply State.loadFlash_keeps | apply State.modTime_keeps | apply State.lockMaster_keeps
    | apply State.settleMaster_keeps | apply State.restoreHub_keeps | apply Keeps.ite | split
    | (apply Keeps.upd; first | assumption | apply State.loadFlash_keeps | apply State.modTime_keeps | apply State.lockMaster_keeps | apply State.settleMaster_keeps | apply State.restoreHub_keeps)
    | dsimp only)

/-! ### Access -/

theorem State.writePwrCtrl_keeps {s0 : State} (s : State) (v : Nat) (low high : Bool) (hs : Keeps s0 s) :
    Keeps s0 (State.writePwrCtrl s v low high) := by
  unfold State.writePwrCtrl
  with_reducible repeat' (first
    | assumption | apply State.writePwrFields_keeps | apply State.writeSleep_keeps | apply State.moduleReset_keeps
    | apply Keeps.ite | split | dsimp only)

theorem State.writeStatusReg_keeps {s0 : State} (s : State) (who off v : Nat) (low high : Bool) (hs : Keeps s0 s) :
    Keeps s0 (State.writeStatusReg s who off v low high) := by
  unfold State.writeStatusReg
  with_reducible repeat' (first
    | assumption | apply State.writeScSelect_keeps | apply State.writeRowPlace_keeps | apply State.popDlq_keeps
    | apply State.writePwrCtrl_keeps | apply Keeps.ite | split | dsimp only)

theorem State.writePmReg_keeps {s0 : State} (s : State) (off : Nat) (hs : Keeps s0 s) :
    Keeps s0 (State.writePmReg s off) := by
  unfold State.writePmReg
  with_reducible repeat' (first
    | assumption | apply State.ignoreWrite_keeps | apply Keeps.ite | split | dsimp only)

theorem State.writeReg_keeps {s0 : State} (s : State) (who off width v : Nat) (hs : Keeps s0 s) :
    Keeps s0 (State.writeReg s who off width v) := by
  unfold State.writeReg
  with_reducible repeat' (first
    | assumption | intro _ | apply State.writeLetterbox_keeps | apply State.writeBank_keeps
    | apply State.writeSrcCfg_keeps | apply State.writeMsix_keeps | apply State.modFn_keeps
    | apply State.writeStatusReg_keeps | apply State.writePmReg_keeps | apply Keeps.ite | split | dsimp only)

theorem State.access_keeps {s0 : State} (s : State) (who off width v : Nat) (hs : Keeps s0 s) :
    Keeps s0 (State.access s who off width v) := by
  unfold State.access
  with_reducible repeat' (first
    | assumption | apply State.writeReg_keeps | apply State.drop_keeps | apply Keeps.ite | split | dsimp only)

theorem execRegisterWrite_keeps (who offset width : Nat) (value : W64) (s : State) (t : State)
    (h : execRegisterWrite who offset width value s = .next t) : Keeps s t := by
  cases h
  with_reducible repeat' (first
    | assumption | exact Keeps.rfl' _ | apply State.access_keeps)

theorem execSqCfgEnable_keeps (fn : Nat) (value : W64) (s : State) (t : State)
    (h : execSqCfgEnable fn value s = .next t) : Keeps s t := by
  cases h
  with_reducible repeat' (first
    | assumption | exact Keeps.rfl' _ | apply State.writeSqCfg_keeps | apply Keeps.ite | split | dsimp only)

theorem execSqDoorbell_keeps (fn : Nat) (value : W64) (s : State) (t : State)
    (h : execSqDoorbell fn value s = .next t) : Keeps s t := by
  cases h
  with_reducible repeat' (first
    | assumption | exact Keeps.rfl' _ | apply State.writeDoorbell_keeps | apply Keeps.ite | split | dsimp only)

theorem execRqCfgEnable_keeps (fn : Nat) (value : W64) (s : State) (t : State)
    (h : execRqCfgEnable fn value s = .next t) : Keeps s t := by
  cases h
  with_reducible repeat' (first
    | assumption | exact Keeps.rfl' _ | apply State.writeRqCfg_keeps | apply Keeps.ite | split | dsimp only)

theorem execRqConsumed_keeps (fn : Nat) (value : W64) (s : State) (t : State)
    (h : execRqConsumed fn value s = .next t) : Keeps s t := by
  cases h
  with_reducible repeat' (first
    | assumption | exact Keeps.rfl' _ | apply State.writeRqConsumed_keeps | apply Keeps.ite | split | dsimp only)

theorem execScSelect_keeps (who : Nat) (value : W64) (s : State) (t : State)
    (h : execScSelect who value s = .next t) : Keeps s t := by
  cases h
  with_reducible repeat' (first
    | assumption | exact Keeps.rfl' _ | apply State.writeScSelect_keeps | apply Keeps.ite | split | dsimp only)

theorem execPendWrite_keeps (fn g : Nat) (value : W32) (s : State) (t : State)
    (h : execPendWrite fn g value s = .next t) : Keeps s t := by
  cases h
  with_reducible repeat' (first
    | assumption | exact Keeps.rfl' _ | apply State.writePend_keeps | apply Keeps.ite | split | dsimp only)

theorem execMaskWrite_keeps (fn g : Nat) (value : W32) (s : State) (t : State)
    (h : execMaskWrite fn g value s = .next t) : Keeps s t := by
  cases h
  with_reducible repeat' (first
    | assumption | exact Keeps.rfl' _ | apply State.writeMask_keeps | apply Keeps.ite | split | dsimp only)

theorem execRearm_keeps (fn : Nat) (value : W64) (s : State) (t : State)
    (h : execRearm fn value s = .next t) : Keeps s t := by
  cases h
  with_reducible repeat' (first
    | assumption | exact Keeps.rfl' _ | apply State.writeRearm_keeps | apply Keeps.ite | split | dsimp only)

theorem execDlqPop_keeps (who : Nat) (value : W64) (s : State) (t : State)
    (h : execDlqPop who value s = .next t) : Keeps s t := by
  cases h
  with_reducible repeat' (first
    | assumption | exact Keeps.rfl' _ | apply State.popDlq_keeps | apply Keeps.ite | split | dsimp only)

theorem execSleepRequest_keeps (who : Nat) (value : W64) (s : State) (t : State)
    (h : execSleepRequest who value s = .next t) : Keeps s t := by
  cases h
  with_reducible repeat' (first
    | assumption | exact Keeps.rfl' _ | apply State.access_keeps | apply Keeps.ite | split | dsimp only)

theorem execReset_keeps (who : Nat) (value : W64) (s : State) (t : State)
    (h : execReset who value s = .next t) : Keeps s t := by
  cases h
  with_reducible repeat' (first
    | assumption | exact Keeps.rfl' _ | apply State.access_keeps | apply Keeps.ite | split | dsimp only)

theorem State.readAnswer_keeps {s0 : State} (s : State) (who off : Nat) (hs : Keeps s0 s) :
    Keeps s0 (State.readAnswer s who off) := by
  unfold State.readAnswer
  with_reducible repeat' (first
    | assumption | apply State.read64Reg_keeps | apply State.answer_keeps | split | dsimp only)

theorem execLbStatusRead_keeps (fn : Nat) (s : State) (t : State)
    (h : execLbStatusRead fn s = .next t) : Keeps s t := by
  cases h
  with_reducible repeat' (first
    | assumption | exact Keeps.rfl' _ | apply State.readAnswer_keeps | apply Keeps.ite | split | dsimp only)

theorem execSrcStateRead_keeps (who g : Nat) (s : State) (t : State)
    (h : execSrcStateRead who g s = .next t) : Keeps s t := by
  cases h
  with_reducible repeat' (first
    | assumption | exact Keeps.rfl' _ | apply State.readAnswer_keeps | apply Keeps.ite | split | dsimp only)

theorem execPwrStatusRead_keeps (who : Nat) (s : State) (t : State)
    (h : execPwrStatusRead who s = .next t) : Keeps s t := by
  cases h
  with_reducible repeat' (first
    | assumption | exact Keeps.rfl' _ | apply State.readAnswer_keeps | apply Keeps.ite | split | dsimp only)

theorem State.badRead_keeps {s0 : State} (s : State) (who off n : Nat) (hs : Keeps s0 s) :
    Keeps s0 (State.badRead s who off n) := by
  unfold State.badRead
  with_reducible repeat' (first
    | assumption | apply State.answer_keeps | apply State.drop_keeps | apply Keeps.ite | split | dsimp only)

theorem execLowHalfRead_keeps (who offset : Nat) (s : State) (t : State)
    (h : execLowHalfRead who offset s = .next t) : Keeps s t := by
  cases h
  with_reducible repeat' (first
    | assumption | exact Keeps.rfl' _ | apply State.readLow_keeps | apply State.answer_keeps
    | apply State.badRead_keeps | apply Keeps.ite | split | dsimp only)

theorem execHighHalfRead_keeps (who offset : Nat) (s : State) (t : State)
    (h : execHighHalfRead who offset s = .next t) : Keeps s t := by
  cases h
  with_reducible repeat' (first
    | assumption | exact Keeps.rfl' _ | apply State.readHigh_keeps | apply State.answer_keeps
    | apply State.badRead_keeps | apply Keeps.ite | apply Keeps.ite_fst | refine Keeps.of_fst (by assumption) ?_
    | split | dsimp only)

theorem State.readHalf_keeps {s0 : State} (s : State) (who off : Nat) (hs : Keeps s0 s) :
    Keeps s0 (State.readHalf s who off) := by
  unfold State.readHalf
  with_reducible repeat' (first
    | assumption | intro _ | apply State.answer_keeps | apply State.readLow_keeps | apply State.readHigh_keeps
    | apply Keeps.ite | apply Keeps.ite_fst | refine Keeps.of_fst (by assumption) ?_ | split | dsimp only)

theorem State.readPart_keeps {s0 : State} (who : Nat) (x : State × List Byte) (off : Nat) (hs : Keeps s0 x.1) :
    Keeps s0 (State.readPart who x off).1 := by
  unfold State.readPart
  split
  · exact State.read64Reg_keeps _ _ _ _ hs
  · exact State.drop_keeps _ _ _ _ hs

theorem State.readParts_keeps {s0 : State} (s : State) (who off len : Nat) (hs : Keeps s0 s) :
    Keeps s0 (State.readParts s who off len) := by
  unfold State.readParts
  apply State.answer_keeps
  apply Keeps.foldl_fst
  · exact hs
  · intro x off hx
    exact State.readPart_keeps _ _ _ hx

theorem execBar0InvalidAccess_keeps (who offset len : Nat) (kind : AccessKind) (s : State) (t : State)
    (h : execBar0InvalidAccess who offset len kind s = .next t) : Keeps s t := by
  cases h
  with_reducible repeat' (first
    | assumption | exact Keeps.rfl' _ | intro _ | apply State.answer_keeps | apply State.drop_keeps
    | apply State.readHalf_keeps | apply State.readParts_keeps | apply Keeps.foldl | apply Keeps.foldl_fst
    | apply Keeps.ite | apply Keeps.ite_fst | refine Keeps.of_fst (by assumption) ?_ | split | dsimp only)

theorem State.apertureDrop_keeps {s0 : State} (s : State) (f off len : Nat) (hs : Keeps s0 s) :
    Keeps s0 (State.apertureDrop s f off len) := by
  unfold State.apertureDrop
  with_reducible repeat' (first
    | assumption | intro _ | apply State.drop_keeps | apply Keeps.ite | split | dsimp only)

theorem execBar2Read_keeps (fn offset len : Nat) (s : State) (t : State)
    (h : execBar2Read fn offset len s = .next t) : Keeps s t := by
  cases h
  with_reducible repeat' (first
    | assumption | exact Keeps.rfl' _ | intro _ | apply State.answer_keeps | apply State.bumpFree_keeps
    | apply State.apertureDrop_keeps | apply Keeps.ite | split | dsimp only)

theorem State.hostWrite_keeps {s0 : State} (s : State) (cells : List (Nat × Byte)) (hs : Keeps s0 s) :
    Keeps s0 (State.hostWrite s cells) := by
  unfold State.hostWrite
  with_reducible repeat' (first
    | assumption | intro _ | apply State.store_keeps | apply State.busWrite_keeps | apply Keeps.ite
    | apply Keeps.ite_fst | refine Keeps.of_fst (by assumption) ?_ | split | dsimp only)

theorem execBar2Write_keeps (fn offset : Nat) (data : List Byte) (s : State) (t : State)
    (h : execBar2Write fn offset data s = .next t) : Keeps s t := by
  cases h
  with_reducible repeat' (first
    | assumption | exact Keeps.rfl' _ | intro _ | apply State.bumpFree_keeps | apply State.apertureDrop_keeps
    | apply State.hostWrite_keeps | apply Keeps.ite | apply Keeps.ite_fst | refine Keeps.of_fst (by assumption) ?_
    | split | dsimp only)

theorem State.levelReset_keeps {s0 : State} (s : State) (f : Nat) (hs : Keeps s0 s) :
    Keeps s0 (State.levelReset s f) := by
  unfold State.levelReset
  with_reducible repeat' (first
    | assumption | intro _ | apply State.resetContext_keeps | apply State.dropReplay_keeps
    | apply State.modCtx_keeps | apply State.modFn_keeps | apply State.abandonControl_keeps
    | apply State.modCmds_keeps | apply Keeps.foldl | apply Keeps.foldl_fst | apply Keeps.ite | apply Keeps.ite_fst
    | refine Keeps.of_fst (by assumption) ?_ | split
    | (apply Keeps.upd; first | assumption | apply State.resetContext_keeps | apply State.dropReplay_keeps | apply State.modCtx_keeps | apply State.modFn_keeps | apply State.abandonControl_keeps | apply State.modCmds_keeps)
    | dsimp only)

theorem execFunctionLevelReset_keeps (fn : Nat) (s : State) (t : State)
    (h : execFunctionLevelReset fn s = .next t) : Keeps s t := by
  cases h
  with_reducible repeat' (first
    | assumption | exact Keeps.rfl' _ | apply State.levelReset_keeps | apply Keeps.ite | split | dsimp only)

theorem State.configure_keeps {s0 : State} (s : State) (fn : Nat) (what : CfgWrite) (hs : Keeps s0 s) :
    Keeps s0 (State.configure s fn what) := by
  unfold State.configure
  with_reducible repeat' (first
    | assumption | intro _ | apply State.modFn_keeps | apply State.sendPending_keeps | apply Keeps.ite
    | apply Keeps.ite_fst | refine Keeps.of_fst (by assumption) ?_ | split
    | (apply Keeps.upd; first | assumption | intro _ | apply State.modFn_keeps | apply State.sendPending_keeps | apply Keeps.ite | apply Keeps.ite_fst | refine Keeps.of_fst (by assumption) ?_ | split)
    | dsimp only)

theorem execConfigurationWrite_keeps (fn : Nat) (what : CfgWrite) (s : State) (t : State)
    (h : execConfigurationWrite fn what s = .next t) : Keeps s t := by
  cases h
  with_reducible repeat' (first
    | assumption | exact Keeps.rfl' _ | intro _ | apply State.answer_keeps | apply State.configure_keeps
    | apply Keeps.ite | apply Keeps.ite_fst | refine Keeps.of_fst (by assumption) ?_ | split | dsimp only)

theorem execRead64_keeps (offset : Nat) (s : State) (t : State)
    (h : execRead64 offset s = .next t) : Keeps s t := by
  cases h
  with_reducible repeat' (first
    | assumption | exact Keeps.rfl' _ | apply State.readAnswer_keeps | apply State.badRead_keeps | apply Keeps.ite
    | split | dsimp only)

theorem execWrite64_keeps (offset : Nat) (value : W64) (s : State) (t : State)
    (h : execWrite64 offset value s = .next t) : Keeps s t := by
  cases h
  with_reducible repeat' (first
    | assumption | exact Keeps.rfl' _ | apply State.writeReg_keeps | apply State.answer_keeps | apply Keeps.ite
    | split | dsimp only)

theorem execRead32_keeps (offset : Nat) (s : State) (t : State)
    (h : execRead32 offset s = .next t) : Keeps s t := by
  cases h
  with_reducible repeat' (first
    | assumption | exact Keeps.rfl' _ | apply State.badRead_keeps | apply State.readLow_keeps
    | apply State.answer_keeps | apply State.readHigh_keeps | apply Keeps.ite | apply Keeps.ite_fst
    | refine Keeps.of_fst (by assumption) ?_ | split | dsimp only)

theorem execMctpControl_keeps (request : List Byte) (s : State) (t : State)
    (h : execMctpControl request s = .next t) : Keeps s t := by
  cases h
  with_reducible repeat' (first
    | assumption | exact Keeps.rfl' _ | apply State.bumpFree_keeps | apply State.answer_keeps
    | apply State.request_keeps | apply Keeps.ite | split | dsimp only)

theorem execPldm_keeps (kind : Byte) (sensor : Nat) (s : State) (t : State)
    (h : execPldm kind sensor s = .next t) : Keeps s t := by
  cases h
  with_reducible repeat' (first
    | assumption | exact Keeps.rfl' _ | apply State.bumpFree_keeps | apply State.answer_keeps | apply Keeps.ite
    | split | dsimp only)

theorem execDynamicAddressAssign_keeps (address : BitVec 7) (s : State) (t : State)
    (h : execDynamicAddressAssign address s = .next t) : Keeps s t := by
  cases h
  with_reducible repeat' (first
    | assumption | exact Keeps.rfl' _ | apply State.answer_keeps | apply Keeps.ite | split
    | (apply Keeps.upd; first | assumption | exact Keeps.rfl' _) | dsimp only)

theorem execStormWindowEnd_keeps (s : State) (t : State)
    (h : execStormWindowEnd s = .next t) : Keeps s t := by
  cases h
  with_reducible repeat' (first
    | assumption | exact Keeps.rfl' _ | intro _ | apply Keeps.ite | split
    | (apply Keeps.upd; first | assumption | exact Keeps.rfl' _) | dsimp only)

theorem execStuckTimeout_keeps (source : Nat) (s : State) (t : State)
    (h : execStuckTimeout source s = .next t) : Keeps s t := by
  cases h
  with_reducible repeat' (first
    | assumption | exact Keeps.rfl' _ | apply Keeps.ite | split
    | (apply Keeps.upd; first | assumption | exact Keeps.rfl' _) | dsimp only)

/-! ### Power -/

theorem execSupplyOutOfRange_keeps (vin : W16) (s : State) (t : State)
    (h : execSupplyOutOfRange vin s = .next t) : Keeps s t := by
  cases h
  with_reducible repeat' (first
    | assumption | exact Keeps.rfl' _ | intro _ | apply State.modPower_keeps | apply Keeps.ite | split | dsimp only)

theorem execSupplyInRange_keeps (vin : W16) (s : State) (t : State)
    (h : execSupplyInRange vin s = .next t) : Keeps s t := by
  cases h
  with_reducible repeat' (first
    | assumption | exact Keeps.rfl' _ | intro _ | apply State.modPower_keeps | apply Keeps.ite | split | dsimp only)

theorem execSupplyUndervoltage_keeps (s : State) (t : State)
    (h : execSupplyUndervoltage s = .next t) : Keeps s t := by
  cases h
  with_reducible repeat' (first
    | assumption | exact Keeps.rfl' _ | apply State.loseSupply_keeps | apply Keeps.ite | split | dsimp only)

theorem execSupplyOvervoltage_keeps (s : State) (t : State)
    (h : execSupplyOvervoltage s = .next t) : Keeps s t := by
  cases h
  with_reducible repeat' (first
    | assumption | exact Keeps.rfl' _ | apply State.loseSupply_keeps | apply Keeps.ite | split | dsimp only)

theorem execPowerOn_keeps (s : State) (t : State)
    (h : execPowerOn s = .next t) : Keeps s t := by
  cases h
  with_reducible repeat' (first
    | assumption | exact Keeps.rfl' _ | intro _ | apply State.modPower_keeps | apply State.lightPorts_keeps
    | apply Keeps.ite | apply Keeps.ite_fst | refine Keeps.of_fst (by assumption) ?_ | split | dsimp only)

theorem State.darkPorts_keeps {s0 : State} (s : State) (hs : Keeps s0 s) :
    Keeps s0 (State.darkPorts s) := by
  unfold State.darkPorts
  with_reducible repeat' (first
    | assumption | intro _ | apply State.modPort_keeps | apply Keeps.foldl | apply Keeps.foldl_fst | apply Keeps.ite
    | apply Keeps.ite_fst | refine Keeps.of_fst (by assumption) ?_ | split | dsimp only)

theorem execPwrEnFall_keeps (s : State) (t : State)
    (h : execPwrEnFall s = .next t) : Keeps s t := by
  cases h
  with_reducible repeat' (first
    | assumption | exact Keeps.rfl' _ | intro _ | apply State.modPower_keeps | apply State.downReset_keeps
    | apply State.darkPorts_keeps | apply Keeps.ite | apply Keeps.ite_fst | refine Keeps.of_fst (by assumption) ?_
    | split | dsimp only)

theorem execPwrEnRise_keeps (s : State) (t : State)
    (h : execPwrEnRise s = .next t) : Keeps s t := by
  cases h
  with_reducible repeat' (first
    | assumption | exact Keeps.rfl' _ | intro _ | apply State.modPower_keeps | apply State.lightPorts_keeps
    | apply State.loadTime_keeps | apply State.countReset_keeps | apply Keeps.ite | apply Keeps.ite_fst
    | refine Keeps.of_fst (by assumption) ?_ | split | dsimp only)

theorem execModResetAssert_keeps (s : State) (t : State)
    (h : execModResetAssert s = .next t) : Keeps s t := by
  cases h
  with_reducible repeat' (first
    | assumption | exact Keeps.rfl' _ | intro _ | apply State.modPower_keeps | apply State.moduleReset_keeps
    | apply Keeps.ite | split | dsimp only)

theorem execModResetRelease_keeps (s : State) (t : State)
    (h : execModResetRelease s = .next t) : Keeps s t := by
  cases h
  with_reducible repeat' (first
    | assumption | exact Keeps.rfl' _ | intro _ | apply State.modPower_keeps | apply State.loadTime_keeps
    | apply Keeps.ite | apply Keeps.ite_fst | refine Keeps.of_fst (by assumption) ?_ | split | dsimp only)

theorem execPerst_keeps (s : State) (t : State)
    (h : execPerst s = .next t) : Keeps s t := by
  cases h
  with_reducible repeat' (first
    | assumption | exact Keeps.rfl' _ | intro _ | apply State.levelReset_keeps | apply Keeps.foldl | apply Keeps.ite
    | split | dsimp only)

theorem execStartupStepComplete_keeps (retired : List Retired) (failed : Bool) (s : State) (t : State)
    (h : execStartupStepComplete retired failed s = .next t) : Keeps s t := by
  cases h
  with_reducible repeat' (first
    | assumption | exact Keeps.rfl' _ | intro _ | apply State.fence_keeps | apply State.modPower_keeps
    | apply State.retireAtStart_keeps | apply State.startupEffect_keeps | apply Keeps.foldl | apply Keeps.ite
    | split | dsimp only)

theorem execFrequencyAdjust_keeps (die mhz millivolts tj : Nat) (s : State) (t : State)
    (h : execFrequencyAdjust die mhz millivolts tj s = .next t) : Keeps s t := by
  cases h
  with_reducible repeat' (first
    | assumption | exact Keeps.rfl' _ | intro _ | apply State.modDie_keeps | apply State.noteTemps_keeps
    | apply Keeps.ite | apply Keeps.ite_fst | refine Keeps.of_fst (by assumption) ?_ | split | dsimp only)

theorem execTjLimitCrossing_keeps (die tj : Nat) (s : State) (t : State)
    (h : execTjLimitCrossing die tj s = .next t) : Keeps s t := by
  cases h
  with_reducible repeat' (first
    | assumption | exact Keeps.rfl' _ | intro _ | apply State.readJunction_keeps | apply Keeps.ite
    | apply Keeps.ite_fst | refine Keeps.of_fst (by assumption) ?_ | split | dsimp only)

theorem execDroopDetect_keeps (die : Nat) (s : State) (t : State)
    (h : execDroopDetect die s = .next t) : Keeps s t := by
  cases h
  with_reducible repeat' (first
    | assumption | exact Keeps.rfl' _ | intro _ | apply State.modDie_keeps | apply Keeps.ite | split | dsimp only)

theorem execStretchEnd_keeps (die : Nat) (s : State) (t : State)
    (h : execStretchEnd die s = .next t) : Keeps s t := by
  cases h
  with_reducible repeat' (first
    | assumption | exact Keeps.rfl' _ | intro _ | apply State.modDie_keeps | apply Keeps.ite | split | dsimp only)

theorem execDozeEntry_keeps (s : State) (t : State)
    (h : execDozeEntry s = .next t) : Keeps s t := by
  cases h
  with_reducible repeat' (first
    | assumption | exact Keeps.rfl' _ | intro _ | apply State.modPower_keeps | apply Keeps.ite | split | dsimp only)

theorem execSleepEntry_keeps (s : State) (t : State)
    (h : execSleepEntry s = .next t) : Keeps s t := by
  cases h
  with_reducible repeat' (first
    | assumption | exact Keeps.rfl' _ | intro _ | apply State.evalIrq_keeps | apply State.modPower_keeps
    | apply Keeps.ite | split
    | (apply Keeps.upd; first | assumption | apply State.evalIrq_keeps | apply State.modPower_keeps) | dsimp only)

theorem execSleepRefusal_keeps (s : State) (t : State)
    (h : execSleepRefusal s = .next t) : Keeps s t := by
  cases h
  with_reducible repeat' (first
    | assumption | exact Keeps.rfl' _ | intro _ | apply State.modPower_keeps | apply Keeps.ite | split | dsimp only)

theorem State.refreshMc_keeps {s0 : State} (s : State) (i : Nat) (hs : Keeps s0 s) :
    Keeps s0 (State.refreshMc s i) := by
  unfold State.refreshMc
  with_reducible repeat' (first
    | assumption | apply State.emitOut_keeps | apply Keeps.ite | split | (apply Keeps.upd; first | assumption)
    | dsimp only)

theorem State.wakeIrq_keeps {s0 : State} (s : State) (hs : Keeps s0 s) :
    Keeps s0 (State.wakeIrq s) := by
  unfold State.wakeIrq
  with_reducible repeat' (first
    | assumption | intro _ | apply State.evalIrq_keeps | apply State.modPower_keeps | apply State.refreshMc_keeps
    | apply State.refresh_keeps | apply Keeps.foldl | apply Keeps.ite | split
    | (apply Keeps.upd; first | assumption | apply State.evalIrq_keeps | apply State.modPower_keeps | apply State.refreshMc_keeps | apply State.refresh_keeps)
    | dsimp only)

theorem execWake_keeps (s : State) (t : State)
    (h : execWake s = .next t) : Keeps s t := by
  cases h
  with_reducible repeat' (first
    | assumption | exact Keeps.rfl' _ | apply State.wakeIrq_keeps | apply State.wakeFrames_keeps | apply Keeps.ite
    | split | dsimp only)

/-! ### Tick -/

theorem State.chargeNs_keeps {s0 : State} (s : State) (c : Nat) (x : Ctx) (hs : Keeps s0 s) :
    Keeps s0 (State.chargeNs s c x) := by
  unfold State.chargeNs
  with_reducible repeat' (first
    | assumption | apply State.modFn_keeps)

theorem State.chargeAll_keeps {s0 : State} (s : State) (hs : Keeps s0 s) :
    Keeps s0 (State.chargeAll s) := by
  unfold State.chargeAll
  with_reducible repeat' (first
    | assumption | intro _ | apply State.chargeNs_keeps | apply Keeps.foldl | dsimp only)

theorem State.eccReads_keeps {s0 : State} (s : State) (hs : Keeps s0 s) :
    Keeps s0 (State.eccReads s) := by
  unfold State.eccReads
  with_reducible repeat' (first
    | assumption | intro _ | apply State.modFaults_keeps | apply Keeps.ite | apply Keeps.ite_fst
    | refine Keeps.of_fst (by assumption) ?_ | split | dsimp only)

theorem State.tick_keeps {s0 : State} (s : State) (hs : Keeps s0 s) :
    Keeps s0 (State.tick s) := by
  unfold State.tick
  with_reducible repeat' (first
    | assumption | intro _ | apply State.evalIrq_keeps | apply State.chargeAll_keeps | apply State.eccReads_keeps
    | apply Keeps.ite | apply Keeps.ite_fst | refine Keeps.of_fst (by assumption) ?_ | split
    | (apply Keeps.upd; first | assumption | intro _ | apply State.evalIrq_keeps | apply State.chargeAll_keeps | apply State.eccReads_keeps | apply Keeps.ite | apply Keeps.ite_fst | refine Keeps.of_fst (by assumption) ?_ | split)
    | dsimp only)

end Sys2Proof.Machine
end

