-- ==== Sys2Proof/Laws/PerInstr.lean ====
section
/-! SUPPORT. The laws stated command by command: family Listed says that every instruction row spells an OPCODE of the
instruction tables, which the ten bits of an instruction word can hold (R137, R149). -/

namespace Sys2Proof.Laws

open Sys2Proof Sys2Proof.Machine

/-- Where a command is an instruction row, its OPCODE is assigned and fits its field. -/
def Listed.Statement (i : Instr) : Prop :=
  ∀ t w, i.lumfy = some (t, w) → w.code < 1024 ∧ ∃ r, opRow w.code = some r

/-- A row whose OPCODE the table assigns meets the statement. -/
theorem listed_row {i : Instr} {t n : Nat} {x : Args} (h : i.lumfy = some (t, ⟨n, x⟩)) (k : n < 1024)
    (r : (opRow n).isSome = true) : Listed.Statement i := by
  intro t' w' h'
  rw [h] at h'
  obtain ⟨rfl, rfl⟩ : t = t' ∧ ⟨n, x⟩ = w' := by simpa using h'
  exact ⟨k, Option.isSome_iff_exists.mp r⟩

/-- A command that is no instruction row meets the statement. -/
theorem listed_other {i : Instr} (h : i.lumfy = none) : Listed.Statement i := by
  intro t w k
  rw [h] at k
  cases k

theorem Listed.nop (p : Packet) : Listed.Statement (.nop p) := listed_other rfl
theorem Listed.loadProgram (p : Packet) : Listed.Statement (.loadProgram p) := listed_other rfl
theorem Listed.launch (p : Packet) : Listed.Statement (.launch p) := listed_other rfl
theorem Listed.tableCreate (p : Packet) : Listed.Statement (.tableCreate p) := listed_other rfl
theorem Listed.tableReplace (p : Packet) : Listed.Statement (.tableReplace p) := listed_other rfl
theorem Listed.graphLoad (p : Packet) : Listed.Statement (.graphLoad p) := listed_other rfl
theorem Listed.contextCreate (p : Packet) : Listed.Statement (.contextCreate p) := listed_other rfl
theorem Listed.contextPreempt (p : Packet) : Listed.Statement (.contextPreempt p) := listed_other rfl
theorem Listed.contextResume (p : Packet) : Listed.Statement (.contextResume p) := listed_other rfl
theorem Listed.contextDestroy (p : Packet) : Listed.Statement (.contextDestroy p) := listed_other rfl
theorem Listed.contextReset (p : Packet) : Listed.Statement (.contextReset p) := listed_other rfl
theorem Listed.snapshot (p : Packet) : Listed.Statement (.snapshot p) := listed_other rfl
theorem Listed.restore (p : Packet) : Listed.Statement (.restore p) := listed_other rfl
theorem Listed.scheduleLoad (p : Packet) : Listed.Statement (.scheduleLoad p) := listed_other rfl
theorem Listed.roleAssign (p : Packet) : Listed.Statement (.roleAssign p) := listed_other rfl
theorem Listed.spareArm (p : Packet) : Listed.Statement (.spareArm p) := listed_other rfl
theorem Listed.takeover (p : Packet) : Listed.Statement (.takeover p) := listed_other rfl
theorem Listed.frankRead (p : Packet) : Listed.Statement (.frankRead p) := listed_other rfl
theorem Listed.selftest (p : Packet) : Listed.Statement (.selftest p) := listed_other rfl
theorem Listed.unlistedOpcodePacket (opcode : W16) (p : Packet) : Listed.Statement (.unlistedOpcodePacket opcode p) := listed_other rfl
theorem Listed.setLayout (path : ReqPath) (p : Packet) (verified : Bool) : Listed.Statement (.setLayout path p verified) := listed_other rfl
theorem Listed.setIso (path : ReqPath) (p : Packet) (verified : Bool) : Listed.Statement (.setIso path p verified) := listed_other rfl
theorem Listed.setPool (path : ReqPath) (p : Packet) (verified : Bool) : Listed.Statement (.setPool path p verified) := listed_other rfl
theorem Listed.setLimits (path : ReqPath) (p : Packet) (verified : Bool) : Listed.Statement (.setLimits path p verified) := listed_other rfl
theorem Listed.setTime (path : ReqPath) (p : Packet) (verified : Bool) : Listed.Statement (.setTime path p verified) := listed_other rfl
theorem Listed.setKey (path : ReqPath) (p : Packet) (verified : Bool) : Listed.Statement (.setKey path p verified) := listed_other rfl
theorem Listed.revokeKey (path : ReqPath) (p : Packet) (verified : Bool) : Listed.Statement (.revokeKey path p verified) := listed_other rfl
theorem Listed.stageFirmware (path : ReqPath) (p : Packet) (verified : Bool) : Listed.Statement (.stageFirmware path p verified) := listed_other rfl
theorem Listed.unknownPostmasterOp (path : ReqPath) (p : Packet) (verified : Bool) : Listed.Statement (.unknownPostmasterOp path p verified) := listed_other rfl
theorem Listed.commandStart (ctx : W32) (seq : W64) : Listed.Statement (.commandStart ctx seq) := listed_other rfl
theorem Listed.commandComplete (ctx : W32) (seq : W64) : Listed.Statement (.commandComplete ctx seq) := listed_other rfl
theorem Listed.translationComplete (ctx : W32) (seq : W64) : Listed.Statement (.translationComplete ctx seq) := listed_other rfl
theorem Listed.kernelEnd (team : Nat) : Listed.Statement (.kernelEnd team) := listed_other rfl
theorem Listed.sqCfgEnable (fn : Nat) (value : W64) : Listed.Statement (.sqCfgEnable fn value) := listed_other rfl
theorem Listed.sqDoorbell (fn : Nat) (value : W64) : Listed.Statement (.sqDoorbell fn value) := listed_other rfl
theorem Listed.rqCfgEnable (fn : Nat) (value : W64) : Listed.Statement (.rqCfgEnable fn value) := listed_other rfl
theorem Listed.rqConsumed (fn : Nat) (value : W64) : Listed.Statement (.rqConsumed fn value) := listed_other rfl
theorem Listed.lbStatusRead (fn : Nat) : Listed.Statement (.lbStatusRead fn) := listed_other rfl
theorem Listed.scSelect (who : Nat) (value : W64) : Listed.Statement (.scSelect who value) := listed_other rfl
theorem Listed.pendWrite (fn g : Nat) (value : W32) : Listed.Statement (.pendWrite fn g value) := listed_other rfl
theorem Listed.maskWrite (fn g : Nat) (value : W32) : Listed.Statement (.maskWrite fn g value) := listed_other rfl
theorem Listed.rearm (fn : Nat) (value : W64) : Listed.Statement (.rearm fn value) := listed_other rfl
theorem Listed.srcStateRead (who g : Nat) : Listed.Statement (.srcStateRead who g) := listed_other rfl
theorem Listed.dlqPop (who : Nat) (value : W64) : Listed.Statement (.dlqPop who value) := listed_other rfl
theorem Listed.pwrStatusRead (who : Nat) : Listed.Statement (.pwrStatusRead who) := listed_other rfl
theorem Listed.sleepRequest (who : Nat) (value : W64) : Listed.Statement (.sleepRequest who value) := listed_other rfl
theorem Listed.reset (who : Nat) (value : W64) : Listed.Statement (.reset who value) := listed_other rfl
theorem Listed.registerWrite (who offset width : Nat) (value : W64) : Listed.Statement (.registerWrite who offset width value) := listed_other rfl
theorem Listed.lowHalfRead (who offset : Nat) : Listed.Statement (.lowHalfRead who offset) := listed_other rfl
theorem Listed.highHalfRead (who offset : Nat) : Listed.Statement (.highHalfRead who offset) := listed_other rfl
theorem Listed.bar0InvalidAccess (who offset len : Nat) (kind : AccessKind) : Listed.Statement (.bar0InvalidAccess who offset len kind) := listed_other rfl
theorem Listed.bar2Read (fn offset len : Nat) : Listed.Statement (.bar2Read fn offset len) := listed_other rfl
theorem Listed.bar2Write (fn offset : Nat) (data : List Byte) : Listed.Statement (.bar2Write fn offset data) := listed_other rfl
theorem Listed.functionLevelReset (fn : Nat) : Listed.Statement (.functionLevelReset fn) := listed_other rfl
theorem Listed.read64 (offset : Nat) : Listed.Statement (.read64 offset) := listed_other rfl
theorem Listed.write64 (offset : Nat) (value : W64) : Listed.Statement (.write64 offset value) := listed_other rfl
theorem Listed.read32 (offset : Nat) : Listed.Statement (.read32 offset) := listed_other rfl
theorem Listed.mctpControl (request : List Byte) : Listed.Statement (.mctpControl request) := listed_other rfl
theorem Listed.pldm (kind : Byte) (sensor : Nat) : Listed.Statement (.pldm kind sensor) := listed_other rfl
theorem Listed.dynamicAddressAssign (address : BitVec 7) : Listed.Statement (.dynamicAddressAssign address) := listed_other rfl
theorem Listed.nopInstruction (t : Nat) (x : Args) : Listed.Statement (.nopInstruction t x) :=
  listed_row rfl (by decide) (by decide)
theorem Listed.endI (t : Nat) (x : Args) : Listed.Statement (.endI t x) :=
  listed_row rfl (by decide) (by decide)
theorem Listed.br (t : Nat) (x : Args) : Listed.Statement (.br t x) :=
  listed_row rfl (by decide) (by decide)
theorem Listed.brAny (t : Nat) (x : Args) : Listed.Statement (.brAny t x) :=
  listed_row rfl (by decide) (by decide)
theorem Listed.brAll (t : Nat) (x : Args) : Listed.Statement (.brAll t x) :=
  listed_row rfl (by decide) (by decide)
theorem Listed.loop (t : Nat) (x : Args) : Listed.Statement (.loop t x) :=
  listed_row rfl (by decide) (by decide)
theorem Listed.endloop (t : Nat) (x : Args) : Listed.Statement (.endloop t x) :=
  listed_row rfl (by decide) (by decide)
theorem Listed.statptr (t : Nat) (x : Args) : Listed.Statement (.statptr t x) :=
  listed_row rfl (by decide) (by decide)
theorem Listed.pmread (t : Nat) (x : Args) : Listed.Statement (.pmread t x) :=
  listed_row rfl (by decide) (by decide)
theorem Listed.mov (t : Nat) (x : Args) : Listed.Statement (.mov t x) :=
  listed_row rfl (by decide) (by decide)
theorem Listed.movhi (t : Nat) (x : Args) : Listed.Statement (.movhi t x) :=
  listed_row rfl (by decide) (by decide)
theorem Listed.ldc (t : Nat) (x : Args) : Listed.Statement (.ldc t x) :=
  listed_row rfl (by decide) (by decide)
theorem Listed.ld (t : Nat) (x : Args) : Listed.Statement (.ld t x) :=
  listed_row rfl (by decide) (by decide)
theorem Listed.st (t : Nat) (x : Args) : Listed.Statement (.st t x) :=
  listed_row rfl (by decide) (by decide)
theorem Listed.add (t : Nat) (x : Args) : Listed.Statement (.add t x) :=
  listed_row rfl (by decide) (by decide)
theorem Listed.sub (t : Nat) (x : Args) : Listed.Statement (.sub t x) :=
  listed_row rfl (by decide) (by decide)
theorem Listed.mul (t : Nat) (x : Args) : Listed.Statement (.mul t x) :=
  listed_row rfl (by decide) (by decide)
theorem Listed.mulhiS (t : Nat) (x : Args) : Listed.Statement (.mulhiS t x) :=
  listed_row rfl (by decide) (by decide)
theorem Listed.mulhiU (t : Nat) (x : Args) : Listed.Statement (.mulhiU t x) :=
  listed_row rfl (by decide) (by decide)
theorem Listed.divU (t : Nat) (x : Args) : Listed.Statement (.divU t x) :=
  listed_row rfl (by decide) (by decide)
theorem Listed.remU (t : Nat) (x : Args) : Listed.Statement (.remU t x) :=
  listed_row rfl (by decide) (by decide)
theorem Listed.andI (t : Nat) (x : Args) : Listed.Statement (.andI t x) :=
  listed_row rfl (by decide) (by decide)
theorem Listed.orI (t : Nat) (x : Args) : Listed.Statement (.orI t x) :=
  listed_row rfl (by decide) (by decide)
theorem Listed.xorI (t : Nat) (x : Args) : Listed.Statement (.xorI t x) :=
  listed_row rfl (by decide) (by decide)
theorem Listed.shl (t : Nat) (x : Args) : Listed.Statement (.shl t x) :=
  listed_row rfl (by decide) (by decide)
theorem Listed.shr (t : Nat) (x : Args) : Listed.Statement (.shr t x) :=
  listed_row rfl (by decide) (by decide)
theorem Listed.sar (t : Nat) (x : Args) : Listed.Statement (.sar t x) :=
  listed_row rfl (by decide) (by decide)
theorem Listed.minS (t : Nat) (x : Args) : Listed.Statement (.minS t x) :=
  listed_row rfl (by decide) (by decide)
theorem Listed.minU (t : Nat) (x : Args) : Listed.Statement (.minU t x) :=
  listed_row rfl (by decide) (by decide)
theorem Listed.maxS (t : Nat) (x : Args) : Listed.Statement (.maxS t x) :=
  listed_row rfl (by decide) (by decide)
theorem Listed.maxU (t : Nat) (x : Args) : Listed.Statement (.maxU t x) :=
  listed_row rfl (by decide) (by decide)
theorem Listed.cmpEq (t : Nat) (x : Args) : Listed.Statement (.cmpEq t x) :=
  listed_row rfl (by decide) (by decide)
theorem Listed.cmpNe (t : Nat) (x : Args) : Listed.Statement (.cmpNe t x) :=
  listed_row rfl (by decide) (by decide)
theorem Listed.cmpLt (t : Nat) (x : Args) : Listed.Statement (.cmpLt t x) :=
  listed_row rfl (by decide) (by decide)
theorem Listed.cmpLe (t : Nat) (x : Args) : Listed.Statement (.cmpLe t x) :=
  listed_row rfl (by decide) (by decide)
theorem Listed.cmpLtu (t : Nat) (x : Args) : Listed.Statement (.cmpLtu t x) :=
  listed_row rfl (by decide) (by decide)
theorem Listed.cmpLeu (t : Nat) (x : Args) : Listed.Statement (.cmpLeu t x) :=
  listed_row rfl (by decide) (by decide)
theorem Listed.fadd (t : Nat) (x : Args) : Listed.Statement (.fadd t x) :=
  listed_row rfl (by decide) (by decide)
theorem Listed.fsub (t : Nat) (x : Args) : Listed.Statement (.fsub t x) :=
  listed_row rfl (by decide) (by decide)
theorem Listed.fmul (t : Nat) (x : Args) : Listed.Statement (.fmul t x) :=
  listed_row rfl (by decide) (by decide)
theorem Listed.fma (t : Nat) (x : Args) : Listed.Statement (.fma t x) :=
  listed_row rfl (by decide) (by decide)
theorem Listed.fmin (t : Nat) (x : Args) : Listed.Statement (.fmin t x) :=
  listed_row rfl (by decide) (by decide)
theorem Listed.fmax (t : Nat) (x : Args) : Listed.Statement (.fmax t x) :=
  listed_row rfl (by decide) (by decide)
theorem Listed.itof (t : Nat) (x : Args) : Listed.Statement (.itof t x) :=
  listed_row rfl (by decide) (by decide)
theorem Listed.ftoi (t : Nat) (x : Args) : Listed.Statement (.ftoi t x) :=
  listed_row rfl (by decide) (by decide)
theorem Listed.fcmpEq (t : Nat) (x : Args) : Listed.Statement (.fcmpEq t x) :=
  listed_row rfl (by decide) (by decide)
theorem Listed.fcmpLt (t : Nat) (x : Args) : Listed.Statement (.fcmpLt t x) :=
  listed_row rfl (by decide) (by decide)
theorem Listed.fcmpLe (t : Nat) (x : Args) : Listed.Statement (.fcmpLe t x) :=
  listed_row rfl (by decide) (by decide)
theorem Listed.pand (t : Nat) (x : Args) : Listed.Statement (.pand t x) :=
  listed_row rfl (by decide) (by decide)
theorem Listed.por (t : Nat) (x : Args) : Listed.Statement (.por t x) :=
  listed_row rfl (by decide) (by decide)
theorem Listed.pxor (t : Nat) (x : Args) : Listed.Statement (.pxor t x) :=
  listed_row rfl (by decide) (by decide)
theorem Listed.pnot (t : Nat) (x : Args) : Listed.Statement (.pnot t x) :=
  listed_row rfl (by decide) (by decide)
theorem Listed.pset (t : Nat) (x : Args) : Listed.Statement (.pset t x) :=
  listed_row rfl (by decide) (by decide)
theorem Listed.pget (t : Nat) (x : Args) : Listed.Statement (.pget t x) :=
  listed_row rfl (by decide) (by decide)
theorem Listed.cset (t : Nat) (x : Args) : Listed.Statement (.cset t x) :=
  listed_row rfl (by decide) (by decide)
theorem Listed.cget (t : Nat) (x : Args) : Listed.Statement (.cget t x) :=
  listed_row rfl (by decide) (by decide)
theorem Listed.desc (t : Nat) (x : Args) : Listed.Statement (.desc t x) :=
  listed_row rfl (by decide) (by decide)
theorem Listed.tsetbase (t : Nat) (x : Args) : Listed.Statement (.tsetbase t x) :=
  listed_row rfl (by decide) (by decide)
theorem Listed.taddbase (t : Nat) (x : Args) : Listed.Statement (.taddbase t x) :=
  listed_row rfl (by decide) (by decide)
theorem Listed.tsetdim (t : Nat) (x : Args) : Listed.Statement (.tsetdim t x) :=
  listed_row rfl (by decide) (by decide)
theorem Listed.tsetstride (t : Nat) (x : Args) : Listed.Statement (.tsetstride t x) :=
  listed_row rfl (by decide) (by decide)
theorem Listed.tsettype (t : Nat) (x : Args) : Listed.Statement (.tsettype t x) :=
  listed_row rfl (by decide) (by decide)
theorem Listed.tgetbase (t : Nat) (x : Args) : Listed.Statement (.tgetbase t x) :=
  listed_row rfl (by decide) (by decide)
theorem Listed.tflip (t : Nat) (x : Args) : Listed.Statement (.tflip t x) :=
  listed_row rfl (by decide) (by decide)
theorem Listed.tcopy (t : Nat) (x : Args) : Listed.Statement (.tcopy t x) :=
  listed_row rfl (by decide) (by decide)
theorem Listed.tfill (t : Nat) (x : Args) : Listed.Statement (.tfill t x) :=
  listed_row rfl (by decide) (by decide)
theorem Listed.mma (t : Nat) (x : Args) : Listed.Statement (.mma t x) :=
  listed_row rfl (by decide) (by decide)
theorem Listed.mmaDrv (t : Nat) (x : Args) : Listed.Statement (.mmaDrv t x) :=
  listed_row rfl (by decide) (by decide)
theorem Listed.mmaAcs (t : Nat) (x : Args) : Listed.Statement (.mmaAcs t x) :=
  listed_row rfl (by decide) (by decide)
theorem Listed.acsRead (t : Nat) (x : Args) : Listed.Statement (.acsRead t x) :=
  listed_row rfl (by decide) (by decide)
theorem Listed.acsZero (t : Nat) (x : Args) : Listed.Statement (.acsZero t x) :=
  listed_row rfl (by decide) (by decide)
theorem Listed.tileQueueDrain (team core : Nat) : Listed.Statement (.tileQueueDrain team core) := listed_other rfl
theorem Listed.vadd (t : Nat) (x : Args) : Listed.Statement (.vadd t x) :=
  listed_row rfl (by decide) (by decide)
theorem Listed.vsub (t : Nat) (x : Args) : Listed.Statement (.vsub t x) :=
  listed_row rfl (by decide) (by decide)
theorem Listed.vmul (t : Nat) (x : Args) : Listed.Statement (.vmul t x) :=
  listed_row rfl (by decide) (by decide)
theorem Listed.vdiv (t : Nat) (x : Args) : Listed.Statement (.vdiv t x) :=
  listed_row rfl (by decide) (by decide)
theorem Listed.vmax (t : Nat) (x : Args) : Listed.Statement (.vmax t x) :=
  listed_row rfl (by decide) (by decide)
theorem Listed.vmin (t : Nat) (x : Args) : Listed.Statement (.vmin t x) :=
  listed_row rfl (by decide) (by decide)
theorem Listed.vfma (t : Nat) (x : Args) : Listed.Statement (.vfma t x) :=
  listed_row rfl (by decide) (by decide)
theorem Listed.vand (t : Nat) (x : Args) : Listed.Statement (.vand t x) :=
  listed_row rfl (by decide) (by decide)
theorem Listed.vor (t : Nat) (x : Args) : Listed.Statement (.vor t x) :=
  listed_row rfl (by decide) (by decide)
theorem Listed.vxor (t : Nat) (x : Args) : Listed.Statement (.vxor t x) :=
  listed_row rfl (by decide) (by decide)
theorem Listed.vshl (t : Nat) (x : Args) : Listed.Statement (.vshl t x) :=
  listed_row rfl (by decide) (by decide)
theorem Listed.vshr (t : Nat) (x : Args) : Listed.Statement (.vshr t x) :=
  listed_row rfl (by decide) (by decide)
theorem Listed.vneg (t : Nat) (x : Args) : Listed.Statement (.vneg t x) :=
  listed_row rfl (by decide) (by decide)
theorem Listed.vabs (t : Nat) (x : Args) : Listed.Statement (.vabs t x) :=
  listed_row rfl (by decide) (by decide)
theorem Listed.vsqrt (t : Nat) (x : Args) : Listed.Statement (.vsqrt t x) :=
  listed_row rfl (by decide) (by decide)
theorem Listed.vrsqrt (t : Nat) (x : Args) : Listed.Statement (.vrsqrt t x) :=
  listed_row rfl (by decide) (by decide)
theorem Listed.vrcp (t : Nat) (x : Args) : Listed.Statement (.vrcp t x) :=
  listed_row rfl (by decide) (by decide)
theorem Listed.vexp (t : Nat) (x : Args) : Listed.Statement (.vexp t x) :=
  listed_row rfl (by decide) (by decide)
theorem Listed.vlog (t : Nat) (x : Args) : Listed.Statement (.vlog t x) :=
  listed_row rfl (by decide) (by decide)
theorem Listed.vtanh (t : Nat) (x : Args) : Listed.Statement (.vtanh t x) :=
  listed_row rfl (by decide) (by decide)
theorem Listed.vsigmoid (t : Nat) (x : Args) : Listed.Statement (.vsigmoid t x) :=
  listed_row rfl (by decide) (by decide)
theorem Listed.vgelu (t : Nat) (x : Args) : Listed.Statement (.vgelu t x) :=
  listed_row rfl (by decide) (by decide)
theorem Listed.vsilu (t : Nat) (x : Args) : Listed.Statement (.vsilu t x) :=
  listed_row rfl (by decide) (by decide)
theorem Listed.vrelu (t : Nat) (x : Args) : Listed.Statement (.vrelu t x) :=
  listed_row rfl (by decide) (by decide)
theorem Listed.vlrelu (t : Nat) (x : Args) : Listed.Statement (.vlrelu t x) :=
  listed_row rfl (by decide) (by decide)
theorem Listed.vcvt (t : Nat) (x : Args) : Listed.Statement (.vcvt t x) :=
  listed_row rfl (by decide) (by decide)
theorem Listed.vcmpEq (t : Nat) (x : Args) : Listed.Statement (.vcmpEq t x) :=
  listed_row rfl (by decide) (by decide)
theorem Listed.vcmpLt (t : Nat) (x : Args) : Listed.Statement (.vcmpLt t x) :=
  listed_row rfl (by decide) (by decide)
theorem Listed.vcmpLe (t : Nat) (x : Args) : Listed.Statement (.vcmpLe t x) :=
  listed_row rfl (by decide) (by decide)
theorem Listed.vsel (t : Nat) (x : Args) : Listed.Statement (.vsel t x) :=
  listed_row rfl (by decide) (by decide)
theorem Listed.vrand (t : Nat) (x : Args) : Listed.Statement (.vrand t x) :=
  listed_row rfl (by decide) (by decide)
theorem Listed.vdropout (t : Nat) (x : Args) : Listed.Statement (.vdropout t x) :=
  listed_row rfl (by decide) (by decide)
theorem Listed.vredAdd (t : Nat) (x : Args) : Listed.Statement (.vredAdd t x) :=
  listed_row rfl (by decide) (by decide)
theorem Listed.vredMax (t : Nat) (x : Args) : Listed.Statement (.vredMax t x) :=
  listed_row rfl (by decide) (by decide)
theorem Listed.vredMin (t : Nat) (x : Args) : Listed.Statement (.vredMin t x) :=
  listed_row rfl (by decide) (by decide)
theorem Listed.scan (op : ScanOp) (t : Nat) (x : Args) : Listed.Statement (.scan op t x) := by
  cases op <;> exact listed_row rfl (by decide) (by decide)
theorem Listed.segscan (op : ScanOp) (t : Nat) (x : Args) : Listed.Statement (.segscan op t x) := by
  cases op <;> exact listed_row rfl (by decide) (by decide)
theorem Listed.segred (op : RedOp) (t : Nat) (x : Args) : Listed.Statement (.segred op t x) := by
  cases op <;> exact listed_row rfl (by decide) (by decide)
theorem Listed.gatherRows (t : Nat) (x : Args) : Listed.Statement (.gatherRows t x) :=
  listed_row rfl (by decide) (by decide)
theorem Listed.gatherStaged (t : Nat) (x : Args) : Listed.Statement (.gatherStaged t x) :=
  listed_row rfl (by decide) (by decide)
theorem Listed.gatherEdge (t : Nat) (x : Args) : Listed.Statement (.gatherEdge t x) :=
  listed_row rfl (by decide) (by decide)
theorem Listed.gatherRoute (t : Nat) (x : Args) : Listed.Statement (.gatherRoute t x) :=
  listed_row rfl (by decide) (by decide)
theorem Listed.mergeBsr (t : Nat) (x : Args) : Listed.Statement (.mergeBsr t x) :=
  listed_row rfl (by decide) (by decide)
theorem Listed.maskBind (t : Nat) (x : Args) : Listed.Statement (.maskBind t x) :=
  listed_row rfl (by decide) (by decide)
theorem Listed.sampleUniform (t : Nat) (x : Args) : Listed.Statement (.sampleUniform t x) :=
  listed_row rfl (by decide) (by decide)
theorem Listed.sampleWeighted (t : Nat) (x : Args) : Listed.Statement (.sampleWeighted t x) :=
  listed_row rfl (by decide) (by decide)
theorem Listed.sampleRecent (t : Nat) (x : Args) : Listed.Statement (.sampleRecent t x) :=
  listed_row rfl (by decide) (by decide)
theorem Listed.sampleWalk (t : Nat) (x : Args) : Listed.Statement (.sampleWalk t x) :=
  listed_row rfl (by decide) (by decide)
theorem Listed.parcelInfo (t : Nat) (x : Args) : Listed.Statement (.parcelInfo t x) :=
  listed_row rfl (by decide) (by decide)
theorem Listed.parcelFree (t : Nat) (x : Args) : Listed.Statement (.parcelFree t x) :=
  listed_row rfl (by decide) (by decide)
theorem Listed.tblPrefetch (t : Nat) (x : Args) : Listed.Statement (.tblPrefetch t x) :=
  listed_row rfl (by decide) (by decide)
theorem Listed.tblRelease (t : Nat) (x : Args) : Listed.Statement (.tblRelease t x) :=
  listed_row rfl (by decide) (by decide)
theorem Listed.tblVersion (t : Nat) (x : Args) : Listed.Statement (.tblVersion t x) :=
  listed_row rfl (by decide) (by decide)
theorem Listed.updTensor (t : Nat) (x : Args) : Listed.Statement (.updTensor t x) :=
  listed_row rfl (by decide) (by decide)
theorem Listed.updRows (t : Nat) (x : Args) : Listed.Statement (.updRows t x) :=
  listed_row rfl (by decide) (by decide)
theorem Listed.updNorm (t : Nat) (x : Args) : Listed.Statement (.updNorm t x) :=
  listed_row rfl (by decide) (by decide)
theorem Listed.signalAdd (t : Nat) (x : Args) : Listed.Statement (.signalAdd t x) :=
  listed_row rfl (by decide) (by decide)
theorem Listed.signalSub (t : Nat) (x : Args) : Listed.Statement (.signalSub t x) :=
  listed_row rfl (by decide) (by decide)
theorem Listed.syncInit (t : Nat) (x : Args) : Listed.Statement (.syncInit t x) :=
  listed_row rfl (by decide) (by decide)
theorem Listed.watchGe (t : Nat) (x : Args) : Listed.Statement (.watchGe t x) :=
  listed_row rfl (by decide) (by decide)
theorem Listed.watchEq (t : Nat) (x : Args) : Listed.Statement (.watchEq t x) :=
  listed_row rfl (by decide) (by decide)
theorem Listed.watchClaim (t : Nat) (x : Args) : Listed.Statement (.watchClaim t x) :=
  listed_row rfl (by decide) (by decide)
theorem Listed.fenceLocal (t : Nat) (x : Args) : Listed.Statement (.fenceLocal t x) :=
  listed_row rfl (by decide) (by decide)
theorem Listed.fenceModule (t : Nat) (x : Args) : Listed.Statement (.fenceModule t x) :=
  listed_row rfl (by decide) (by decide)
theorem Listed.fenceFabric (t : Nat) (x : Args) : Listed.Statement (.fenceFabric t x) :=
  listed_row rfl (by decide) (by decide)
theorem Listed.commitArrive (t : Nat) (x : Args) : Listed.Statement (.commitArrive t x) :=
  listed_row rfl (by decide) (by decide)
theorem Listed.collRedscat (t : Nat) (x : Args) : Listed.Statement (.collRedscat t x) :=
  listed_row rfl (by decide) (by decide)
theorem Listed.collAllgather (t : Nat) (x : Args) : Listed.Statement (.collAllgather t x) :=
  listed_row rfl (by decide) (by decide)
theorem Listed.collAllreduce (t : Nat) (x : Args) : Listed.Statement (.collAllreduce t x) :=
  listed_row rfl (by decide) (by decide)
theorem Listed.collBcast (t : Nat) (x : Args) : Listed.Statement (.collBcast t x) :=
  listed_row rfl (by decide) (by decide)
theorem Listed.collHalo (t : Nat) (x : Args) : Listed.Statement (.collHalo t x) :=
  listed_row rfl (by decide) (by decide)
theorem Listed.collectiveComplete (role : W16) (number : W32) : Listed.Statement (.collectiveComplete role number) := listed_other rfl
theorem Listed.samplerTakeRequest (team : Nat) : Listed.Statement (.samplerTakeRequest team) := listed_other rfl
theorem Listed.parcelComplete (team : Nat) : Listed.Statement (.parcelComplete team) := listed_other rfl
theorem Listed.stagingStart (team : Nat) : Listed.Statement (.stagingStart team) := listed_other rfl
theorem Listed.stagingComplete (team slot : Nat) : Listed.Statement (.stagingComplete team slot) := listed_other rfl
theorem Listed.updateRequestBegin (team : Nat) : Listed.Statement (.updateRequestBegin team) := listed_other rfl
theorem Listed.updateRequestComplete (team : Nat) : Listed.Statement (.updateRequestComplete team) := listed_other rfl
theorem Listed.placementWindowEnd (team : Nat) (choice : PlaceChoice) : Listed.Statement (.placementWindowEnd team choice) := listed_other rfl
theorem Listed.migrationDrained (team : Nat) : Listed.Statement (.migrationDrained team) := listed_other rfl
theorem Listed.migrationSwapped (team : Nat) : Listed.Statement (.migrationSwapped team) := listed_other rfl
theorem Listed.tableReplaceFlip (ctx : W32) (table : Nat) : Listed.Statement (.tableReplaceFlip ctx table) := listed_other rfl
theorem Listed.timeFrame (port : Nat) (frame : TimeFrame) : Listed.Statement (.timeFrame port frame) := listed_other rfl
theorem Listed.timeFrameSend : Listed.Statement (.timeFrameSend) := listed_other rfl
theorem Listed.lockLoss (cause : LossCause) : Listed.Statement (.lockLoss cause) := listed_other rfl
theorem Listed.masterTimeout : Listed.Statement (.masterTimeout) := listed_other rfl
theorem Listed.ppsEdge : Listed.Statement (.ppsEdge) := listed_other rfl
theorem Listed.referenceLoss (cause : RefCause) : Listed.Statement (.referenceLoss cause) := listed_other rfl
theorem Listed.roundBoundary : Listed.Statement (.roundBoundary) := listed_other rfl
theorem Listed.scheduleActivate : Listed.Statement (.scheduleActivate) := listed_other rfl
theorem Listed.slotSend (entry : Nat) : Listed.Statement (.slotSend entry) := listed_other rfl
theorem Listed.barrierRelease (index : Nat) : Listed.Statement (.barrierRelease index) := listed_other rfl
theorem Listed.prefetchDeadline (team slot : Nat) : Listed.Statement (.prefetchDeadline team slot) := listed_other rfl
theorem Listed.snapshotStart (ctx : W32) : Listed.Statement (.snapshotStart ctx) := listed_other rfl
theorem Listed.snapshotComplete (ctx : W32) : Listed.Statement (.snapshotComplete ctx) := listed_other rfl
theorem Listed.frankingBoundary : Listed.Statement (.frankingBoundary) := listed_other rfl
theorem Listed.preemptionPoint (ctx : W32) : Listed.Statement (.preemptionPoint ctx) := listed_other rfl
theorem Listed.quiesceTimeout (ctx : W32) : Listed.Statement (.quiesceTimeout ctx) := listed_other rfl
theorem Listed.preemptSaveComplete (ctx : W32) : Listed.Statement (.preemptSaveComplete ctx) := listed_other rfl
theorem Listed.resumeRestore (ctx : W32) : Listed.Statement (.resumeRestore ctx) := listed_other rfl
theorem Listed.frameForward (port : Nat) (frame : Frame) : Listed.Statement (.frameForward port frame) := listed_other rfl
theorem Listed.syncOperationFrame (port : Nat) (frame : Frame) : Listed.Statement (.syncOperationFrame port frame) := listed_other rfl
theorem Listed.syncReplyFrame (port : Nat) (frame : Frame) : Listed.Statement (.syncReplyFrame port frame) := listed_other rfl
theorem Listed.barrierArrival (index : Nat) : Listed.Statement (.barrierArrival index) := listed_other rfl
theorem Listed.fabricWriteFrame (port : Nat) (frame : Frame) : Listed.Statement (.fabricWriteFrame port frame) := listed_other rfl
theorem Listed.fabricReadRequest (port : Nat) (frame : Frame) : Listed.Statement (.fabricReadRequest port frame) := listed_other rfl
theorem Listed.fabricReadData (port : Nat) (frame : Frame) : Listed.Statement (.fabricReadData port frame) := listed_other rfl
theorem Listed.mirrorWrite (port : Nat) (frame : Frame) : Listed.Statement (.mirrorWrite port frame) := listed_other rfl
theorem Listed.mirrorWriteAck (port : Nat) (frame : Frame) : Listed.Statement (.mirrorWriteAck port frame) := listed_other rfl
theorem Listed.divertedMailbagPart (port : Nat) (frame : Frame) : Listed.Statement (.divertedMailbagPart port frame) := listed_other rfl
theorem Listed.mailbagAcknowledgement (port : Nat) (frame : Frame) : Listed.Statement (.mailbagAcknowledgement port frame) := listed_other rfl
theorem Listed.collectiveControl (port : Nat) (frame : Frame) : Listed.Statement (.collectiveControl port frame) := listed_other rfl
theorem Listed.returnedFrame (port : Nat) (frame : Frame) : Listed.Statement (.returnedFrame port frame) := listed_other rfl
theorem Listed.flowBreak (src dest : W16) : Listed.Statement (.flowBreak src dest) := listed_other rfl
theorem Listed.mailbagArrive (port : Nat) (bag : Mailbag) (corrected damaged : Bool) : Listed.Statement (.mailbagArrive port bag corrected damaged) := listed_other rfl
theorem Listed.mailbagResendTimeout (channel : W16) (chanSeq : W32) : Listed.Statement (.mailbagResendTimeout channel chanSeq) := listed_other rfl
theorem Listed.roleAdvertisement (port : Nat) (advert : Advert) : Listed.Statement (.roleAdvertisement port advert) := listed_other rfl
theorem Listed.roleLossTimeout (postcode : W16) : Listed.Statement (.roleLossTimeout postcode) := listed_other rfl
theorem Listed.autoTakeover (postcode : W16) : Listed.Statement (.autoTakeover postcode) := listed_other rfl
theorem Listed.joinReleaseReceived (postcode : W16) (release : Release) : Listed.Statement (.joinReleaseReceived postcode release) := listed_other rfl
theorem Listed.takeoverCopyComplete (copies : List (List Byte)) (failed : Bool) : Listed.Statement (.takeoverCopyComplete copies failed) := listed_other rfl
theorem Listed.homeRelayWindowEnd (index : Nat) : Listed.Statement (.homeRelayWindowEnd index) := listed_other rfl
theorem Listed.snapshotRecordReceived (postcode : W16) (header streams : List Byte) : Listed.Statement (.snapshotRecordReceived postcode header streams) := listed_other rfl
theorem Listed.portPartnerDetect (port : Nat) : Listed.Statement (.portPartnerDetect port) := listed_other rfl
theorem Listed.trainingComplete (port : Nat) (result : TrainResult) : Listed.Statement (.trainingComplete port result) := listed_other rfl
theorem Listed.portPartnerLoss (port : Nat) : Listed.Statement (.portPartnerLoss port) := listed_other rfl
theorem Listed.routeChange (postcode : W16) (port : Nat) : Listed.Statement (.routeChange postcode port) := listed_other rfl
theorem Listed.laneRetire (port lane : Nat) : Listed.Statement (.laneRetire port lane) := listed_other rfl
theorem Listed.swapComplete (port : Nat) : Listed.Statement (.swapComplete port) := listed_other rfl
theorem Listed.cartridgeFail (cartridge : Nat) : Listed.Statement (.cartridgeFail cartridge) := listed_other rfl
theorem Listed.cartridgeInsert (cartridge : Nat) : Listed.Statement (.cartridgeInsert cartridge) := listed_other rfl
theorem Listed.cartridgeReady (cartridge : Nat) : Listed.Statement (.cartridgeReady cartridge) := listed_other rfl
theorem Listed.coreFault (team core : Nat) : Listed.Statement (.coreFault team core) := listed_other rfl
theorem Listed.clusterFault (team : Nat) : Listed.Statement (.clusterFault team) := listed_other rfl
theorem Listed.recoveryAuditComplete (team : Nat) (passed : Bool) : Listed.Statement (.recoveryAuditComplete team passed) := listed_other rfl
theorem Listed.pseudoChannelFault (stack : Nat) : Listed.Statement (.pseudoChannelFault stack) := listed_other rfl
theorem Listed.spareFillComplete (stack : Nat) : Listed.Statement (.spareFillComplete stack) := listed_other rfl
theorem Listed.stackFault (stack : Nat) (cause : StackCause) : Listed.Statement (.stackFault stack cause) := listed_other rfl
theorem Listed.journalRebuildComplete : Listed.Statement (.journalRebuildComplete) := listed_other rfl
theorem Listed.mcHeartbeatMiss (core : Nat) : Listed.Statement (.mcHeartbeatMiss core) := listed_other rfl
theorem Listed.journalReplay (ctx : W32) : Listed.Statement (.journalReplay ctx) := listed_other rfl
theorem Listed.faultInAssert (heldNs : Nat) : Listed.Statement (.faultInAssert heldNs) := listed_other rfl
theorem Listed.stormWindowEnd : Listed.Statement (.stormWindowEnd) := listed_other rfl
theorem Listed.stuckTimeout (source : Nat) : Listed.Statement (.stuckTimeout source) := listed_other rfl
theorem Listed.powerOn : Listed.Statement (.powerOn) := listed_other rfl
theorem Listed.pwrEnRise : Listed.Statement (.pwrEnRise) := listed_other rfl
theorem Listed.pwrEnFall : Listed.Statement (.pwrEnFall) := listed_other rfl
theorem Listed.modResetAssert : Listed.Statement (.modResetAssert) := listed_other rfl
theorem Listed.modResetRelease : Listed.Statement (.modResetRelease) := listed_other rfl
theorem Listed.perst : Listed.Statement (.perst) := listed_other rfl
theorem Listed.startupStepComplete (retired : List Retired) (failed : Bool) : Listed.Statement (.startupStepComplete retired failed) := listed_other rfl
theorem Listed.supplyOutOfRange (vin : W16) : Listed.Statement (.supplyOutOfRange vin) := listed_other rfl
theorem Listed.supplyUndervoltage : Listed.Statement (.supplyUndervoltage) := listed_other rfl
theorem Listed.supplyOvervoltage : Listed.Statement (.supplyOvervoltage) := listed_other rfl
theorem Listed.thermalTrip (die : Nat) : Listed.Statement (.thermalTrip die) := listed_other rfl
theorem Listed.frequencyAdjust (die mhz millivolts tj : Nat) : Listed.Statement (.frequencyAdjust die mhz millivolts tj) := listed_other rfl
theorem Listed.droopDetect (die : Nat) : Listed.Statement (.droopDetect die) := listed_other rfl
theorem Listed.stretchEnd (die : Nat) : Listed.Statement (.stretchEnd die) := listed_other rfl
theorem Listed.dozeEntry : Listed.Statement (.dozeEntry) := listed_other rfl
theorem Listed.sleepEntry : Listed.Statement (.sleepEntry) := listed_other rfl
theorem Listed.sleepRefusal : Listed.Statement (.sleepRefusal) := listed_other rfl
theorem Listed.wake : Listed.Statement (.wake) := listed_other rfl
theorem Listed.energyInterval (dieMillijoules : List Nat) (restMillijoules : Nat) : Listed.Statement (.energyInterval dieMillijoules restMillijoules) := listed_other rfl
theorem Listed.telemetryRefresh (vin iin pin pinPeak : W16) (temps : List Nat) (hubTj : Nat) : Listed.Statement (.telemetryRefresh vin iin pin pinPeak temps hubTj) := listed_other rfl
theorem Listed.referenceAcquire : Listed.Statement (.referenceAcquire) := listed_other rfl
theorem Listed.updNormComplete (team : Nat) : Listed.Statement (.updNormComplete team) := listed_other rfl
theorem Listed.fabricWriteAck (port : Nat) (frame : Frame) : Listed.Statement (.fabricWriteAck port frame) := listed_other rfl
theorem Listed.collectiveDataFrame (port : Nat) (frame : Frame) : Listed.Statement (.collectiveDataFrame port frame) := listed_other rfl
theorem Listed.releaseRelay (index : Nat) (release : Release) : Listed.Statement (.releaseRelay index release) := listed_other rfl
theorem Listed.linkLevelResend (port : Nat) (failed : Bool) : Listed.Statement (.linkLevelResend port failed) := listed_other rfl
theorem Listed.dieLinkFault (die : Nat) : Listed.Statement (.dieLinkFault die) := listed_other rfl
theorem Listed.railFault : Listed.Statement (.railFault) := listed_other rfl
theorem Listed.supplyInRange (vin : W16) : Listed.Statement (.supplyInRange vin) := listed_other rfl
theorem Listed.tjLimitCrossing (die tj : Nat) : Listed.Statement (.tjLimitCrossing die tj) := listed_other rfl
theorem Listed.faultInRelease : Listed.Statement (.faultInRelease) := listed_other rfl
theorem Listed.configurationWrite (fn : Nat) (what : CfgWrite) : Listed.Statement (.configurationWrite fn what) := listed_other rfl

end Sys2Proof.Laws
end

