-- ==== Sys2Proof/Laws/Shared.lean ====
section
/-! SUPPORT. What the shared operations of the model can do: one lemma for each, which proofs cite in place of unfolding
it. The updates of single fields stand in Sys2Proof/Laws/State.lean, the memories in Sys2Proof/Laws/Maps.lean. -/

namespace Sys2Proof.Machine

open Sys2Proof Sys2Proof.Stated

/-! ### Issue -/

/-- The cores whose mask is true are named once each. -/
theorem Team.masked_nodup (k : Team) (p : Nat) : (k.masked p).Nodup := by
  unfold Team.masked Team.activeCores
  split
  · exact (List.nodup_range.filter _).filter _
  · exact List.nodup_nil

/-- An instruction that cannot issue changes nothing. -/
theorem State.issue_held {s : State} {t : Nat} {w : LumfyWord} (h : s.canIssue t w = false) (f : State → Nat → State) :
    s.issue t w f = s := by
  unfold State.issue
  rw [h]
  rfl

/-- An instruction that can issue runs on a kernel that is neither stopped nor ended. -/
theorem State.canIssue_kernel {s : State} {t : Nat} {w : LumfyWord} (h : s.canIssue t w = true) :
    ∃ k, (s.team t).kernel = some k ∧ k.stopped = false ∧ k.ended = false := by
  unfold State.canIssue State.teamRuns at h
  cases e : (s.team t).kernel with
  | none => simp [e] at h
  | some k =>
    simp only [e, Bool.and_eq_true, Bool.not_eq_true'] at h
    exact ⟨k, rfl, h.1.1.1.1, h.1.1.1.2⟩

/-- Changing some cores of a team one after another changes those cores and nothing else. -/
theorem State.modCores (t : Nat) (f : Core → Core) (l : List Nat) (h : l.Nodup) (s : State) :
    let u := l.foldl (fun s q => s.modCore t q f) s
    u = { s with teams := u.teams } ∧ (∀ k, k ≠ t → u.team k = s.team k) ∧
      u.team t = { s.team t with cores := (u.team t).cores } ∧
      ∀ q, u.core t q = if q ∈ l then f (s.core t q) else s.core t q := by
  induction l generalizing s with
  | nil => exact ⟨rfl, fun _ _ => rfl, rfl, fun q => by simp⟩
  | cons a l ih =>
    obtain ⟨ha, hl⟩ := List.nodup_cons.mp h
    obtain ⟨h1, h2, h3, h4⟩ := ih hl (s.modCore t a f)
    have own : (s.modCore t a f).team t = (s.team t).modCore a f := State.team_modTeam_self ..
    refine ⟨?_, ?_, ?_, ?_⟩
    · rw [List.foldl_cons, h1]; rfl
    · intro k hk
      rw [List.foldl_cons, h2 k hk]
      exact State.team_modTeam_ne _ hk ..
    · rw [List.foldl_cons, h3, own]; rfl
    · intro q
      have core : (s.modCore t a f).core t q = if q = a then f (s.core t q) else s.core t q := by
        unfold State.core
        rw [own]
        unfold Team.core Team.modCore
        by_cases e : q = a
        · subst e; simp [Team.core]
        · simp [e, mapGetD_mapPut_ne _ _ e]
      rw [List.foldl_cons, h4 q, core]
      by_cases e : q = a
      · subst e; simp [ha]
      · simp [e]

/-- An instruction that can issue and changes only registers gives each core whose mask is true the registers of `f`,
moves the pc on, and changes nothing else. -/
theorem State.issueRegs_moves {s : State} {t : Nat} {w : LumfyWord} (h : s.canIssue t w = true) (f : Core → Core) :
    registersMovedOn s (s.issueRegs t w f) t w f := by
  obtain ⟨k, hk, hs, -⟩ := State.canIssue_kernel h
  unfold State.issueRegs State.issue
  rw [h, if_pos rfl]
  obtain ⟨h1, h2, h3, h4⟩ := State.modCores t f _ ((s.team t).masked_nodup w.args.pred) s.bumpFree
  generalize ((s.team t).masked w.args.pred).foldl (fun s q => s.modCore t q f) s.bumpFree = u at h1 h2 h3 h4
  have hu : (u.nextPc t).team t = { u.team t with kernel := (u.team t).kernel.map fun k => { k with pc := k.pc + 1 } } :=
    State.team_modTeam_self ..
  have hr : (u.nextPc t).settle t = u.nextPc t := by
    have e : ((u.nextPc t).team t).kernel = some { k with pc := k.pc + 1 } := by
      rw [hu, h3]
      exact congrArg (Option.map _) hk
    simp only [State.settle, e, hs]
    exact if_neg Bool.false_ne_true
  rw [hr]
  refine ⟨?_, ⟨?_, ?_⟩, ?_⟩
  · conv => lhs; unfold State.nextPc State.modKernel State.modTeam; rw [h1]
    rfl
  · intro j hj
    exact (State.team_modTeam_ne _ hj ..).trans (h2 j hj)
  · rw [hu, h3]; rfl
  · intro q
    have e : (u.nextPc t).core t q = u.core t q := by unfold State.core; rw [hu]; rfl
    rw [e, h4 q]; rfl

/-! ### Commands -/

/-- The members of a bit set. -/
theorem mem_bitsSet (n m i : Nat) : i ∈ bitsSet n m ↔ bitOf m i = true ∧ i < n := by
  simp [bitsSet, and_comm]

/-! ### Replies -/

/-- A pulse is remembered in the interrupt controller and nowhere else. -/
theorem State.pulse_shape (s : State) (n : Nat) :
    s.pulse n = { s with irq := { s.irq with pulses := (s.pulse n).irq.pulses } } := by
  unfold State.pulse
  split <;> rfl

/-- What writing replies changes: the reply ring of one function, host memory and the pulses. The replies of the function,
written or held, grow by `new`. -/
structure Replied (s t : State) (f : Nat) (new : List Reply) : Prop where
  shape : t = { s with fns := t.fns, hostMem := t.hostMem, irq := { s.irq with pulses := t.irq.pulses } }
  fn : t.fn f = { s.fn f with
    written := (t.fn f).written, held := (t.fn f).held, rqTail := (t.fn f).rqTail, phase := (t.fn f).phase
    rejected := (t.fn f).rejected }
  rest : ∀ g, g ≠ f → t.fn g = s.fn g
  list : replies (t.fn f) = replies (s.fn f) ++ new

theorem Replied.refl (s : State) (f : Nat) : Replied s s f [] := ⟨rfl, rfl, fun _ _ => rfl, by simp⟩

theorem Replied.trans {s t u : State} {f : Nat} {l m : List Reply} (a : Replied s t f l) (b : Replied t u f m) :
    Replied s u f (l ++ m) := by
  refine ⟨?_, ?_, fun g h => (b.rest g h).trans (a.rest g h), ?_⟩
  · rw [b.shape, a.shape]
  · rw [b.fn, a.fn]
  · rw [b.list, a.list, List.append_assoc]

/-- One held reply, if the ring has room, is written. -/
theorem State.writeReply_replied (s : State) (f : Nat) : Replied s (s.writeReply f) f [] := by
  unfold State.writeReply
  dsimp only
  split
  · exact Replied.refl _ _
  · rename_i r rest hr
    split
    · exact Replied.refl _ _
    · generalize hs1 : ({ s with hostMem := _ } : State) = s1
      have e1 : ∀ g, s1.fn g = s.fn g := by intro g; rw [← hs1]; rfl
      generalize hs2 : s1.modFn f _ = s2
      have h2 : Replied s s2 f [] := by
        rw [← hs2]
        refine ⟨?_, ?_, ?_, ?_⟩
        · rw [← hs1]; rfl
        · simp only [State.fn_modFn_self]
          rw [e1]
        · intro g hg; rw [State.fn_modFn_ne _ hg, e1]
        · simp only [State.fn_modFn_self, replies]
          rw [e1, hr]; simp
      have fnp (n g : Nat) : (s2.pulse n).fn g = s2.fn g := by rw [State.pulse_shape]; rfl
      split
      · refine h2.trans (m := []) ⟨?_, ?_, ?_, ?_⟩
        · conv => lhs; rw [State.pulse_shape]
          unfold State.pulse; split <;> rfl
        · rw [fnp]
        · intro g _; rw [fnp]
        · rw [fnp]; simp
      · exact h2

/-- Writing every held reply that has room. -/
theorem State.flushReplies_replied (s : State) (f : Nat) : Replied s (s.flushReplies f) f [] := by
  unfold State.flushReplies
  generalize List.range _ = l
  induction l generalizing s with
  | nil => exact Replied.refl _ _
  | cons a l ih => exact (s.writeReply_replied f).trans (ih _)

/-- A reply joins the replies of its function, written or held, behind the others. -/
theorem State.pushReply_replied (s : State) (f : Nat) (r : Reply) : Replied s (s.pushReply f r) f [r] := by
  have h := (s.modFn f fun k => { k with held := k.held ++ [r] }).flushReplies_replied f
  unfold State.pushReply
  refine ⟨?_, ?_, ?_, ?_⟩
  · rw [h.shape]; rfl
  · rw [h.fn, State.fn_modFn_self]
  · intro g hg; rw [h.rest g hg, State.fn_modFn_ne _ hg]
  · rw [h.list]; simp [replies, State.fn_modFn_self]

/-! ### The interrupt controller -/

/-- What the interrupt controller changes as it evaluates: functions, its own state, and what leaves the module. -/
def OnlyIrq (s t : State) : Prop :=
  t = { s with fns := t.fns, irq := t.irq, fabric := { s.fabric with out := t.fabric.out } }

theorem OnlyIrq.refl (s : State) : OnlyIrq s s := rfl

theorem OnlyIrq.trans {s t u : State} (a : OnlyIrq s t) (b : OnlyIrq t u) : OnlyIrq s u := by
  unfold OnlyIrq at *
  rw [b, a]

theorem OnlyIrq.foldl {α : Type} (l : List α) (f : State → α → State) (h : ∀ s x, OnlyIrq s (f s x)) (s : State) :
    OnlyIrq s (l.foldl f s) := by
  induction l generalizing s with
  | nil => exact OnlyIrq.refl _
  | cons a l ih => exact (h s a).trans (ih _)

theorem State.sendMessage_onlyIrq (s : State) (f : Nat) : OnlyIrq s (s.sendMessage f) := by
  unfold State.sendMessage
  dsimp only
  split
  · rfl
  · split <;> rfl

theorem State.refresh_onlyIrq (s : State) (f : Nat) : OnlyIrq s (s.refresh f) := by
  unfold State.refresh
  dsimp only
  split
  · exact OnlyIrq.trans (by unfold OnlyIrq; rfl) (State.sendMessage_onlyIrq _ _)
  · rfl

theorem State.evalIrq_onlyIrq (s : State) : OnlyIrq s s.evalIrq := by
  have fnOne (s : State) (h : List Nat) (f : Nat) : OnlyIrq s (State.evalFn s h f) := by
    unfold State.evalFn
    dsimp only
    split
    · rfl
    · exact OnlyIrq.trans (by unfold OnlyIrq; rfl) (State.refresh_onlyIrq _ _)
  have mcOne (s : State) (h : List Nat) (f : Nat) : OnlyIrq s (State.evalMc s h f) := by
    unfold State.evalMc
    dsimp only
    split
    · rfl
    · split <;> rfl
  have pendOne (s : State) (f : Nat) : OnlyIrq s (s.sendPending f) := by
    unfold State.sendPending
    dsimp only
    split
    · exact OnlyIrq.trans (by unfold OnlyIrq; rfl) (State.sendMessage_onlyIrq _ _)
    · rfl
  have ends (s : State) : OnlyIrq s s.endTick := by
    unfold State.endTick
    exact OnlyIrq.trans (t := { s with fns := s.fns.map fun x => (x.1, { x.2 with messaged := false }) }) rfl
      (OnlyIrq.foldl _ _ (fun s (x : Nat × Fn) => pendOne s x.1) _)
  unfold State.evalIrq
  dsimp only
  split
  · exact OnlyIrq.trans (by unfold OnlyIrq; rfl) (ends _)
  · exact ((OnlyIrq.trans (by unfold OnlyIrq; rfl) (OnlyIrq.foldl _ _ (fun s x => fnOne s _ x) _)).trans
      (OnlyIrq.foldl _ _ (fun s x => mcOne s _ x) _)).trans (ends _)

end Sys2Proof.Machine
end

