-- ==== Sys2Proof/Tests/Slice0.lean ====
section
/-! SUPPORT. Checks of the model on small cases: ill-formed commands that WellFormed refuses, words of the opcode table,
one concrete case for the hypotheses of each statement, and one-step results worked out from the spec. -/

set_option Elab.async false

namespace Sys2Proof.Tests

open Sys2Proof Sys2Proof.Machine Sys2Proof.Stated

/-! ### Small states and operands -/

/-- A module that runs: the ten steps of start-up are over. -/
def up : State := { State.reset with power := { State.reset.power with boot := .running, bootStep := 10, ready := true } }

/-- The same module, posted. -/
def posted : State := { up with time := { up.time with state := .locked, everLocked := true } }

/-- The same with both rings of function 0 on, and one packet announced. -/
def served (s : State) : State :=
  s.modFn 0 fun k => { k with sqOn := true, sqLog := 6, sqTail := 1, rqOn := true, rqLog := 6, rqBase := 1 }

/-- A packet of function 0 with parameters of 48 bytes, given by their first bytes. -/
def pk (ctx : W32) (seq : W64) (len : Byte) (b : List Byte) (block : List Byte := []) : Packet :=
  ⟨0, 0, len, ctx, seq, bytesAt b 0 48, block⟩

/-- The fields of an instruction word. -/
def ar (ty : Nat) (d a b : Operand) (imm : BitVec 48 := 0) (pred : Nat := 0) (mod : Byte := 0) : Args :=
  ⟨ty, pred, mod, d, a, b, imm⟩

/-- A stream: 64 KiB of CORE, 64 KiB of CLUSTER, 1,024 words of the accumulation store, SAMPLER and UPDATE. -/
def stream : StreamEntry := ⟨0, 0x10000, 0x10000, 1024, 6⟩

/-- A context of function 0 with the teams of all dies, 1 GiB of stack 0 and one running LAUNCH on team 0. -/
def ctx1 : Ctx :=
  { uid := 1, partition := 0, span := 0, modules := 1, teamMask := 1, regionBase := 0, regionSize := 0x40000000
    running := true, faulted := false, counters := List.replicate 8 0
    launches := [⟨1, 0, 1, [0], 0, none, 0, false, List.replicate 8 0, [], 0, [], [], false, []⟩]
    graphs := [], tables := [], saved := [], savedWatches := [], savedHub := [], issueHeld := false, preempting := none
    resuming := none, snapping := none, pausedAt := 0, restoreDue := false }

/-- A module whose team 0 runs a kernel that stands at one instruction word; `k` is its core 0, the other cores are as
after reset. Predicate p1 is true in core 0 alone where `k` holds 3. -/
def at_ (w : LumfyWord) (k : Core := Core.reset) (s : State := up) : State :=
  { s with
    ctxs := [(1, ctx1)]
    teams := [(0, { Team.reset with
      kernel := some ⟨1, 1, stream, 0, [], 0, [], false, false⟩
      bank0 := .full ⟨[w], [], [], [stream]⟩
      cores := [(0, k)] })] }

/-- A core in which p1 is true. -/
def core1 : Core := { Core.reset with p := 3 }

/-- An INT32 tile in CORE of m rows by n columns, rows 64 bytes apart. -/
def tile (m n base : Nat) (ty : Byte := 0x13) : TileDesc :=
  ⟨ty, 0, BitVec.ofNat 8 (m - 1), BitVec.ofNat 8 (n - 1), 0, BitVec.ofNat 64 base, 64, 0⟩

/-- The state that a command answers. -/
def after (i : Instr) (s : State) : State := match exec i s with | .next t => t | _ => s

/-! ### WellFormed refuses an ill-formed term of each check -/

theorem test_wf_team : Instr.wf (.nopInstruction 24 (ar 0 .none .none .none)) = false := by decide +kernel
theorem test_wf_opcode_type : Instr.wf (.add 0 (ar 0x15 (.sreg 1) (.sreg 2) (.sreg 3))) = false := by decide +kernel
theorem test_wf_predicate : Instr.wf (.add 0 (ar 0 (.sreg 1) (.sreg 2) (.sreg 3) 0 16)) = false := by decide +kernel
theorem test_wf_unpredicated : Instr.wf (.endI 0 (ar 0 .none .none .none 0 1)) = false := by decide +kernel
theorem test_wf_modifiers : Instr.wf (.br 0 (ar 0 .none .none .none 0 0 0x80)) = false := by decide +kernel
theorem test_wf_operand_kind : Instr.wf (.mov 0 (ar 0 (.treg 1) (.sreg 2) .none)) = false := by decide +kernel
theorem test_wf_operand_number : Instr.wf (.mov 0 (ar 0 (.sreg 64) (.sreg 2) .none)) = false := by decide +kernel
theorem test_wf_dest_p0 : Instr.wf (.cmpEq 0 (ar 0 (.preg 0) (.sreg 1) (.sreg 2))) = false := by decide +kernel
theorem test_wf_one_immediate : Instr.wf (.add 0 (ar 0 (.sreg 1) .imm .imm)) = false := by decide +kernel
theorem test_wf_unused_imm : Instr.wf (.mov 0 (ar 0 (.sreg 1) (.sreg 2) .none 1)) = false := by decide +kernel
theorem test_wf_packet : Instr.wf (.nop ⟨64, 0, 0, 0, 1, List.replicate 48 0, []⟩) = false := by decide +kernel
theorem test_wf_packet_params : Instr.wf (.nop ⟨0, 0, 0, 0, 1, [], []⟩) = false := by decide +kernel
theorem test_wf_packet_block : Instr.wf (.nop ⟨0, 0, 4, 0, 1, List.replicate 48 0, []⟩) = false := by decide +kernel
theorem test_wf_unlisted : Instr.wf (.unlistedOpcodePacket 0x0001 (pk 0 1 0 [])) = false := by decide +kernel
theorem test_wf_request : Instr.wf (.setLayout .i3c ⟨64, 0, 0, 0, 1, List.replicate 48 0, []⟩ true) = false := by decide +kernel
theorem test_wf_requester : Instr.wf (.scSelect 1 0) = false := by decide +kernel
theorem test_wf_group : Instr.wf (.pendWrite 0 32 0) = false := by decide +kernel
theorem test_wf_width : Instr.wf (.registerWrite 0 0x1004 8 0) = false := by decide +kernel
theorem test_wf_low_half : Instr.wf (.lowHalfRead 0 4) = false := by decide +kernel
theorem test_wf_high_half : Instr.wf (.highHalfRead 0 4) = false := by decide +kernel
theorem test_wf_length : Instr.wf (.bar2Read 0 0 0) = false := by decide +kernel
theorem test_wf_core : Instr.wf (.coreFault 0 16) = false := by decide +kernel
theorem test_wf_slot : Instr.wf (.stagingComplete 0 32) = false := by decide +kernel
theorem test_wf_table : Instr.wf (.tableReplaceFlip 1 64) = false := by decide +kernel
theorem test_wf_port : Instr.wf (.swapComplete 32) = false := by decide +kernel
theorem test_wf_lane : Instr.wf (.laneRetire 0 9) = false := by decide +kernel
theorem test_wf_index : Instr.wf (.barrierArrival 65536) = false := by decide +kernel
theorem test_wf_entry : Instr.wf (.slotSend 4096) = false := by decide +kernel
theorem test_wf_cartridge : Instr.wf (.cartridgeFail 2) = false := by decide +kernel
theorem test_wf_stack : Instr.wf (.pseudoChannelFault 12) = false := by decide +kernel
theorem test_wf_management_core : Instr.wf (.mcHeartbeatMiss 8) = false := by decide +kernel
theorem test_wf_source : Instr.wf (.stuckTimeout 1024) = false := by decide +kernel
theorem test_wf_die : Instr.wf (.droopDetect 4) = false := by decide +kernel
theorem test_wf_frequency : Instr.wf (.frequencyAdjust 0 1210 750 50) = false := by decide +kernel
theorem test_wf_retired : Instr.wf (.startupStepComplete [.channel 12] false) = false := by decide +kernel
theorem test_wf_header : Instr.wf (.snapshotRecordReceived 7 [] []) = false := by decide +kernel
theorem test_wf_dies : Instr.wf (.energyInterval [1, 2, 3] 0) = false := by decide +kernel
theorem test_wf_temperatures : Instr.wf (.telemetryRefresh 0 0 0 0 [] 0) = false := by decide +kernel
theorem test_wf_functions : Instr.wf (.configurationWrite 0 (.numVFs 64)) = false := by decide +kernel
theorem test_wf_well : Instr.wf (.add 0 (ar 0 (.sreg 1) (.sreg 2) (.sreg 3))) = true ∧
    Instr.wf (.nop (pk 0 1 0 [])) = true := by decide +kernel

/-! ### A case for the hypotheses of each statement: the block, packets, commands -/

/-- An accepted command in a context's list. -/
def cmd (seq : W64) (op : W16) (p : Packet) (phase : CmdPhase := .accepted) : Cmd :=
  ⟨seq, op, p, none, 0, 0, phase, none, 0, false, false, []⟩

/-- A module in which a context holds some commands. -/
def withCmds (c : W32) (l : List Cmd) (s : State) : State :=
  s.modCmds c fun k => { k with cmds := l, h := BitVec.ofNat 64 l.length }

/-- A postmaster request: slot 0, COUNTER 5, no expiry. -/
def req (op len : Nat) (body : List Byte) : List Byte :=
  leBytes 4 0x51524D50 ++ [0, BitVec.ofNat 8 op] ++ leBytes 2 len ++ leBytes 8 1 ++ leBytes 8 5 ++
  List.replicate 40 0 ++ bytesAt body 0 64 ++ List.replicate 80 0

/-- A packet of the control context with such a request. -/
def reqPk (seq : W64) (op len : Nat) (body : List Byte) : Packet := pk 0 seq 13 [] (req op len body)

theorem case_EmptyQueueIsOneNanosecond : up.pending = [] ∧ up.power.boot ≠ .noSupply ∧
    (after .supplyUndervoltage up).power.boot = .noSupply := by decide +kernel

theorem case_CommandsKeepQueueAndPart : exec .dozeEntry up = .next (after .dozeEntry up) := rfl

theorem case_StepsKeepMemoriesSound : up.MemOk ∧ step { up with pending := [.dozeEntry] } = .next (after .dozeEntry up) :=
  ⟨⟨rfl, rfl, fun _ h => absurd h List.not_mem_nil, fun _ h => absurd h List.not_mem_nil,
    fun _ h => absurd h List.not_mem_nil⟩, rfl⟩

theorem case_LumfyWordRoundTrip :
    let w : LumfyWord := ⟨1023, ⟨63, 15, 0xFF, .sreg 63, .const 4095, .imm, 0xFFFFFFFFFFFF⟩⟩
    w.code < 1024 ∧ w.args.ty < 64 ∧ w.args.pred < 16 ∧ operandInRange w.args.d = true ∧ operandInRange w.args.a = true ∧
      operandInRange w.args.b = true := by decide +kernel

/-- The hypotheses about a packet whose ring is served. -/
def served_ (i : Instr) (n : Nat) (p : Packet) (s : State) (v : Verdict → Bool) : Bool :=
  match intakeOf s i, cmdRow n with
  | some (m, q, c), some r => m == n && q == p && s.intakeOpen p.fn && s.ringTakes p && v (s.verdict r p c)
  | _, _ => false

theorem case_AcceptedPacketIsJournalled : served_ (.nop (pk 0 1 0 [])) 1 (pk 0 1 0 []) (served up) (· == .accepted) = true := by
  decide +kernel
theorem case_AcceptedPacketIsJournalled_request :
    served_ (.setLayout .packet (reqPk 1 1 1 [1]) true) 0x90 (reqPk 1 1 1 [1]) (served up) (· == .accepted) = true := by
  decide +kernel
theorem case_AcceptedPacketIsJournalled_selftest : served_ (.selftest (pk 0 1 1 [1, 0, 0, 0])) 0x80 (pk 0 1 1 [1, 0, 0, 0])
    (served up) (· == .accepted) = true ∧ (served up).cmd 0 1 = none := by decide +kernel
theorem case_FailedPacketOnlyAnswers_rejected : served_ (.nop (pk 0 0 0 [])) 1 (pk 0 0 0 []) (served up)
    (· == .rejected 0x0102 8) = true := by decide +kernel
theorem case_FailedPacketOnlyAnswers_duplicate : served_ (.nop (pk 0 1 0 [])) 1 (pk 0 1 0 [])
    (served (withCmds 0 [cmd 1 1 (pk 0 1 0 [])] up)) (· == .duplicate 1 1) = true := by decide +kernel
theorem case_FailedPacketOnlyAnswers_signature :
    served_ (.setLayout .packet (reqPk 1 1 1 [1]) false) 0x90 (reqPk 1 1 1 [1]) (served up) (fun v => v != .accepted)
      = true := by decide +kernel

theorem case_SequenceClasses_creation :
    let p := pk 0 1 2 (leBytes 4 7 ++ [0, 0, 1, 0] ++ leBytes 4 1 ++ leBytes 4 0 ++ leBytes 8 0 ++ leBytes 8 0x40000000)
    let s := withCmds 0 [cmd 1 0x40 p] up
    s.cmd 0 1 = some (cmd 1 0x40 p) ∧ s.mayStart 0 (cmd 1 0x40 p) = true ∧ (7 : W32).toNat = Packet.field p 0 4 ∧
      s.ctx 7 = none ∧ ((after (.commandStart 0 1) s).ctx 7).isSome = true := by decide +kernel
theorem case_SequenceClasses_journal :
    let k : CmdState := { h := 9, cmds := [cmd 4 1 (pk 0 4 0 [])], ledger := [(2, 0), (3, 0x0102)] }
    k.classify 4 = some (.duplicate 1 1) ∧ k.classify 3 = some (.duplicate 0x0102 2) ∧
      k.classify 5 = some (.rejected 0x0102 8) ∧ k.classify 9 = some (.rejected 0x0102 8) ∧ k.classify 10 = none ∧
      k.classify 0 = some (.rejected 0x0102 8) := by decide +kernel
theorem case_SequenceClasses_floor :
    let k : CmdState := { h := 5000, ledger := (List.range 4096).map fun i => (BitVec.ofNat 64 (i + 100), 0) }
    4096 ≤ k.ledger.length ∧ k.floor = 100 ∧ k.classify 99 = some (.duplicate 0xFFFF 0) ∧
      k.classify 100 = some (.duplicate 0 2) ∧ k.classify 4196 = some (.rejected 0x0102 8) := by decide +kernel

theorem case_UnlistedOpcodeRejected : (0x0002 : W16).toNat ∉ listedOpcodes ∧ (served up).intakeOpen 0 = true := by
  decide +kernel

theorem case_SignedRequestsOverI3c : i3cRequest (.setLayout .i3c (reqPk 1 1 1 [1]) true) = some (req 1 1 [1], true) ∧
    up.postmasterUp = true ∧ 128 ≤ (req 1 1 [1]).length ∧ (req 1 1 [1]).length % 16 = 0 ∧ requestFault (req 1 1 [1]) = none ∧
    requestPasses up (req 1 1 [1]) true ∧ ¬ requestPasses up (req 1 1 [1]) false ∧ up.faults.selfFenced = false := by
  unfold requestPasses
  decide +kernel

theorem case_RequestOperations_layout : isOp (req 1 1 [2]) 1 = true ∧ qBody (req 1 1 [2]) 0 1 = 2 ∧
    (up.runRequest (req 1 1 [3])).2 ≠ 0 ∧ (at_ ⟨0, ar 0 .none .none .none⟩).ctxs ≠ [] := by decide +kernel
/-- Function 1 receives windows 0x10 to 0x1F; function 2 holds 0x18 to 0x1F, which meet them. -/
theorem case_RequestOperations_iso :
    let b := req 2 24 ([1, 0, 0, 0, 0, 0, 0, 0] ++ leBytes 8 0x101 ++ leBytes 8 0x100010)
    let k : Fn := { up.fn 1 with isoA := 0x101, isoB := 0x100010 }
    let two : Fn := { up.fn 2 with isoB := 0x80018 }
    isOp b 2 = true ∧ qBody b 0 1 = 1 ∧ qBody b 1 7 = 0 ∧ isoInRange (qBody b 8 8) (qBody b 16 8) = true ∧
      (∀ g ∈ List.range 64, g ≠ 1 → (up.fn g).winSize = 0 ∨ g = 0) ∧ up.isoFits 1 k = true ∧
      k.winSize = 16 ∧ two.winSize = 8 ∧ k.winBase < two.winBase + two.winSize ∧ two.winBase < k.winBase + k.winSize ∧
      isOp (req 2 24 [0]) 2 = true ∧ qBody (req 2 24 [0]) 0 1 = 0 ∧ qBody (req 2 24 [64]) 0 1 = 64 := by decide +kernel
theorem case_RequestOperations_pool : isOp (req 3 2 [3, 32]) 3 = true ∧ up.areasUsed 3 = 0 ∧ up.ctxs = [] ∧
    qBody (req 3 2 [3, 32]) 1 1 = 32 ∧ qBody (req 3 2 [4, 32]) 0 1 = 4 := by decide +kernel
theorem case_RequestOperations_limits :
    let b := req 4 6 [60, 0, 216, 0, 8, 1]
    isOp b 4 = true ∧ 60 ≤ qBody b 0 1 ∧ qBody b 0 1 ≤ 105 ∧ qBody b 1 1 = 0 ∧ 216 ≤ qBody b 2 2 ∧ qBody b 4 2 ≤ 264 ∧
      qBody b 2 2 < qBody b 4 2 := by decide +kernel
theorem case_RequestOperations_time : ∀ x ∈ [req 5 16 [2, 1], req 5 16 [1, 0]], isOp x 5 = true ∧ qBody x 0 1 ≤ 2 ∧
    qBody x 1 1 ≤ 1 ∧ qBody x 2 6 = 0 := by decide +kernel
theorem case_RequestOperations_keys : isOp (req 6 40 [3, 63]) 6 = true ∧ 1 ≤ qBody (req 6 40 [3, 63]) 0 1 ∧
    qBody (req 6 40 [3, 63]) 0 1 ≤ 3 ∧ qBody (req 6 40 [3, 63]) 1 1 ≤ 63 ∧ qBody (req 6 40 [3, 63]) 1 1 % 2 = 1 ∧
    qBody (req 6 40 [3, 63]) 2 6 = 0 ∧ isOp (req 7 1 [1]) 7 = true ∧ qBody (req 7 1 [1]) 0 1 = 1 := by decide +kernel
theorem case_RequestOperations_firmware : isOp (req 8 12 []) 8 = true ∧ qBody (req 8 12 []) 8 4 = 0 ∧
    up.power.fwVersion < 0xFFFF ∧ qBody (req 8 12 [0, 0, 0, 0, 0, 0, 0, 0, 1]) 8 4 % 64 ≠ 0 ∧
    opLength (qOp (req 9 0 [])) ≠ some (qLen (req 9 0 [])) := by decide +kernel

theorem case_CommandsStartInOrder :
    let s := withCmds 0 [cmd 1 1 (pk 0 1 0 []), cmd 2 1 (pk 0 2 0 [])] up
    s.cmd 0 2 = some (cmd 2 1 (pk 0 2 0 [])) ∧ ∃ z ∈ (s.cmdsOf 0).cmds, z.seq.toNat < 2 ∧ z.phase = .accepted := by
  decide +kernel
theorem case_CommandsStartInOrder_serial :
    let p : Packet := { pk 0 2 0 [] with flags := 1 }
    let s := withCmds 0 [cmd 1 1 (pk 0 1 0 []) .started, cmd 2 1 p] up
    s.cmd 0 2 = some (cmd 2 1 p) ∧ p.flags.getLsbD 0 = true ∧
      ∃ z ∈ (s.cmdsOf 0).cmds, z.seq.toNat < 2 ∧ z.done = false := by decide +kernel

/-- Whether a state's context holds a command, which may start. -/
def mayStart_ (s : State) (c : W32) (y : Cmd) : Bool := s.cmd c y.seq == some y && s.mayStart c y

theorem case_CommandStartEffects : (([0x0001, 0x0070, 0x0090] : List W16).all fun op =>
    let y := cmd 1 op (reqPk 1 1 1 [1])
    mayStart_ (withCmds 0 [y] up) 0 y) = true := by decide +kernel
theorem case_CommandStartEffects_later : (([0x0010, 0x0051] : List W16).all fun op =>
    let y := cmd 1 op (pk 1 1 2 [])
    mayStart_ (withCmds 1 [y] (at_ ⟨0, ar 0 .none .none .none⟩)) 1 y) = true := by decide +kernel
theorem case_CommandStartEffects_schedule :
    let y : Cmd := { cmd 1 0x0060 (pk 0 1 2 []) with schedule := some ⟨1, 125, 0, 0, [], []⟩ }
    let s := withCmds 0 [y] posted
    s.cmd 0 1 = some y ∧ s.mayStart 0 y = true ∧ y.schedule.isSome = true := by decide +kernel

theorem case_ContextCreateMakesContext :
    let p := pk 0 1 2 (leBytes 4 7 ++ [0, 0, 1, 0] ++ leBytes 4 1 ++ leBytes 4 0 ++ leBytes 8 0 ++ leBytes 8 0x40000000)
    let s := withCmds 0 [cmd 1 0x40 p] up
    s.cmd 0 1 = some (cmd 1 0x40 p) ∧ s.mayStart 0 (cmd 1 0x40 p) = true ∧ (s.fn 0).maxContexts > s.contextsOf 0 ∧
      s.ctxs.length < 960 ∧ s.ctx 7 = none ∧ s.areasFit (bitsSet 24 1) = true := by decide +kernel
theorem case_ContextCreateMakesContext_refused :
    let p := pk 0 1 2 (leBytes 4 1 ++ [0, 0, 1, 0] ++ leBytes 4 1)
    let s := withCmds 0 [cmd 1 0x40 p] (at_ ⟨0, ar 0 .none .none .none⟩)
    s.cmd 0 1 = some (cmd 1 0x40 p) ∧ s.mayStart 0 (cmd 1 0x40 p) = true ∧ (s.ctx 1).isSome = true := by decide +kernel

theorem case_CommandsCompleteInOrder :
    let y := cmd 1 1 (pk 0 1 0 []) (.finished 0 0 0)
    let z := cmd 2 1 (pk 0 2 0 []) (.recorded 0 0 0 5)
    ((withCmds 0 [y, z] up).cmdsOf 0).cmds = [] ++ y :: [z] ∧ (∀ w ∈ [z], w.seq ≠ 1) := by decide +kernel
theorem case_CommandsCompleteInOrder_held :
    let x := cmd 1 1 (pk 0 1 0 []) .started
    let y := cmd 2 1 (pk 0 2 0 []) (.finished 0 0 0)
    ((withCmds 0 [x, y] up).cmdsOf 0).cmds = [x] ++ y :: [] ∧ (∀ w ∈ [x], w.seq ≠ 2) ∧ ∀ w ∈ [x], w.done = false := by
  decide +kernel

theorem case_TranslationFillsBanks_refused :
    let y := cmd 1 0x10 (pk 1 1 2 (leBytes 8 0x1000 ++ leBytes 4 64 ++ leBytes 4 1 ++ leBytes 4 1)) .started
    let s := withCmds 1 [y] (at_ ⟨0, ar 0 .none .none .none⟩)
    (∃ x, s.ctx 1 = some x ∧ x.running = true) ∧ s.cmd 1 1 = some y ∧ y.opcode = 0x0010 ∧ y.phase = .started ∧
      (match translate (memRead s.busView 0x1000 64) 64 1 0 with | .error _ => true | .ok _ => false) = true := by
  refine ⟨⟨ctx1, by decide +kernel, rfl⟩, by decide +kernel, rfl, rfl, by decide +kernel⟩

theorem case_KernelEndsWhenDrained :
    let w : LumfyWord := ⟨1, ar 0 .none .none .none⟩
    let s := (at_ w).modKernel 0 fun k => { k with ended := true }
    (∃ k, (s.team 0).kernel = some k ∧ k.ended = true ∧ s.waitingLaunches k.ctx = []) ∧
      (∃ k, ((at_ w).team 0).kernel = some k ∧ k.ended = false ∧ k.stopped = false) ∧
      ∀ c ∈ (s.team 0).cores, c.2.awaited = [] ∧ c.2.tileQueue = [] := by
  refine ⟨⟨_, rfl, rfl, by decide +kernel⟩, ⟨_, rfl, rfl, rfl⟩, by decide +kernel⟩

/-! ### A case for the hypotheses of each statement: registers -/

theorem case_SubmissionRingRegisters : up.reaches 0 = true ∧ (served up).reaches 0 = true ∧
    (served up).power.state ≠ .sleep ∧ ({ up with power := { up.power with state := .sleep } } : State).reaches 0 = true := by
  decide +kernel

theorem case_ReplyRingRegisters :
    (served up).reaches 0 = true ∧ ((served up).fn 0).rqOn = true ∧ (up.fn 0).rqOn = false ∧
      (0x106 : W64).getLsbD 8 = true ∧ 6 ≤ (0x106 : W64).toNat % 32 ∧ (0x110 : W64).toNat % 32 = 16 ∧
      ¬ (6 ≤ (0x105 : W64).toNat % 32 ∧ (0x105 : W64).toNat % 32 ≤ 16) ∧
      ¬ (6 ≤ (0x111 : W64).toNat % 32 ∧ (0x111 : W64).toNat % 32 ≤ 16) := by decide +kernel
theorem case_ReplyRingRegisters_consumed :
    let s := (served up).modFn 0 fun k => { k with rqTail := 2, rqConsumed := 63 }
    let k := s.fn 0
    let size := 2 ^ k.rqLog
    k.rqOn = true ∧ (2 < size ∧ (2 + size - k.rqConsumed) % size ≤ (k.rqTail + size - k.rqConsumed) % size) ∧
      ¬ ((3 + size - k.rqConsumed) % size ≤ (k.rqTail + size - k.rqConsumed) % size) := by decide +kernel

theorem case_InterruptBankWrites : up.reaches 0 = true ∧ 31 < 32 ∧ (1 : W64).getLsbD 0 = true ∧ (2 : W64).getLsbD 0 = false := by
  decide +kernel

theorem case_RegisterReads : up.requesterUp 0 = true ∧ up.requesterUp i3c = true ∧ (up.readReg 0 0x1040).isSome = true ∧
    (up.readReg 0 (0x112000 + 16 * 31)).isSome = true ∧ (up.readReg i3c 0x300808).isSome = true ∧
    (up.readReg i3c 0).isSome = true := by decide +kernel

theorem case_RegisterWrites : up.requesterUp 0 = true ∧ up.requesterUp i3c = true ∧
    bits (0x0000D10100000000 : W64).toNat 40 8 = 0xD1 ∧ (0x0000D10100000000 : W64).getLsbD 32 = true := by decide +kernel
/-- SC_SELECT of function 0's control context, which always exists (R79, R202), and of a context that does not. -/
theorem test_sc_select : (up.writeScSelect 0 0).regs.scPf.valid = true ∧ (up.writeScSelect 0 5).regs.scPf.valid = false := by
  decide +kernel

/-- Two registers of one longer read (R511): SQ_CFG of function 0 and the register after it. -/
theorem case_UnservedAccesses_pair : (up.readReg 0 0x1000).isSome = true ∧
    ((clearedBy up 0 0x1000 0 0 true).readReg 0 0x1008).isSome = true ∧ 0x1000 % 8 = 0 := by decide +kernel
theorem case_UnservedAccesses : up.reaches 0 = true ∧ 0 ≠ i3c ∧ ¬ ((4 = 4 ∧ 2 % 4 = 0 ∨ 4 = 8 ∧ 2 % 8 = 0)) ∧
    up.readReg 0 0x3FFFF8 = none ∧ (∀ i, i < 16 / 8 → up.readReg 0 (0x3FFFF0 + 8 * i) = none) ∧
    up.i3cUp = true ∧ up.readReg i3c 0x1000 = none := by decide +kernel

theorem case_ApertureAccesses : up.reaches 0 = true ∧ up.power.state ≠ .sleep ∧ up.power.clocksStopped = false ∧
    (let s : State := { up with power := { up.power with clocksStopped := true } }
     s.reaches 0 = true ∧ s.power.clocksStopped = true) ∧
    ({ up with power := { up.power with state := .sleep } } : State).power.state = .sleep ∧
    up.reserved 0 = false ∧ up.reserved (0x14_0000_0000 * 2 - 1) = true ∧
    (∀ e ∈ up.unfenced, e.place = .stack → e.moduleDone = true) := by decide +kernel
/-- Sector 1 is written whole, sector 0 in its last byte and sector 2 in its first. -/
theorem case_ApertureAccesses_sectors :
    let w := (List.range 32).map (· + 1)
    w.Nodup ∧ (∀ i, i < 34 → (i ∈ w ↔ (31 + i) / 32 = 1)) ∧ w ≠ [] ∧ w.length = 32 := by decide +kernel

theorem case_FunctionLevelResets : up.reaches 0 = true ∧ up.powered = true := by decide +kernel

theorem case_ConfigurationAndPort : up.reaches 0 = true ∧ up.i3cUp = true ∧ 63 ≤ 63 ∧ (up.fn 0).msixPending = false ∧
    (let s := up.modFn 0 fun k => { k with msixPending := true, msixOn := true, msixMask := false }
     (s.fn 0).msixPending = true ∧ (s.fn 0).msixOn = true ∧ (s.fn 0).msixMask = false ∧ (s.fn 0).messaged = false) ∧
    (let s : State := { up with power := { up.power with boot := .starting, bootStep := 3 } }
     s.power.boot = .starting ∧ 3 ≤ s.power.bootStep ∧ s.power.bootStep < 8) := by decide +kernel

theorem case_StormAndStuckFlags :
    let s : State := { up with irq := { up.irq with
      live := [205], since := [(205, 0)], cfg := [(205, ⟨false, true, 3, 1⟩)], edges := [(200, 1), (205, 3)], ended := [(205, 4)] }
                               power := { up.power with hot := [0] }, postmark := 1000000 }
    s.power.state ≠ .sleep ∧ s.postmark.toNat % 1000000 = 0 ∧ mapGet s.irq.since 205 = some 0 ∧
      0 < (s.srcCfg 205).stuckUs.toNat ∧ 205 ∈ s.irq.live ∧ 205 ∈ s.asserted ∧ 205 ∉ s.irq.pulses ∧
      1000 * (s.srcCfg 205).stuckUs.toNat < s.postmark.toNat ∧ (s.srcCfg 205).storm.toNat < 4 ∧
      (205, 4) ∈ s.irq.ended ∧ [205].Nodup ∧ s.irq.edges.Pairwise (fun a b => a.1 < b.1) ∧
      mapGetD s.irq.edges 0 205 + 1 = 4 ∧ ({ s with postmark := 1000001 } : State).postmark.toNat % 1000000 ≠ 0 ∧
      205 ∉ up.asserted := by decide +kernel

/-! ### A case for the hypotheses of each statement: instruction rows -/

/-- A core with INT32 tiles t1 (D), t2 (A), t3 (B) of 2 × 2, another t4, a mask tile t5, and p1 true. -/
def core2 (ty : Byte := 0x13) : Core :=
  { core1 with
    t := [(1, tile 2 2 0x1000 ty), (2, tile 2 2 0x2000 ty), (3, tile 2 2 0x3000 ty), (4, tile 2 2 0x4000 ty),
          (5, tile 2 2 0x5000 0x1A)] }

/-- D in t1, A in t2, B in t3, under p1. -/
def ar3 (ty : Nat) (imm : BitVec 48 := 0) (mod : Byte := 0) : Args := ar ty (.treg 1) (.treg 2) (.treg 3) imm 1 mod

theorem settled_at (w : LumfyWord) (k : Core) : settled (at_ w k) 0 0 := fun _ h => absurd h List.not_mem_nil
theorem settledGather_at (w : LumfyWord) (k : Core) : settledGather (at_ w k) 0 0 := fun _ h => absurd h List.not_mem_nil

/-- A tile that fits is writable where no status record is asked for. -/
theorem writable_of {s : State} {t q : Nat} {x : Args} {d : TileDesc} (h : recordRange s t q x = none)
    (k : d.lineBytes ≤ d.stride.toNat ∧ s.coreOutside t d = false ∧ d.extents.Pairwise (fun a b => rangesMeet a b = false)) :
    writable s t q x d :=
  ⟨k.1, k.2.1, k.2.2, fun p e => by rw [h] at e; cases e⟩

theorem drainReady_of {s : State} {t : Nat} {x : Args} (regs : List Operand)
    (h : (((s.team t).masked x.pred).all fun q => (s.core t q).tileQueue.isEmpty) = true) : drainReady s t x regs := by
  intro q hq
  have e := List.isEmpty_iff.mp (List.all_eq_true.mp h q hq)
  rw [e]
  exact ⟨fun _ _ => List.not_mem_nil, by decide⟩

theorem case_RegisterRowResults :
    let x := ar 0 (.sreg 1) (.sreg 2) (.sreg 3) 0 1
    ((registerRows (at_ ⟨0, x⟩ core1) 0 x).all fun r => (at_ ⟨r.2.1, x⟩ core1).canIssue 0 ⟨r.2.1, x⟩) = true := by
  decide +kernel

theorem case_RegisterFileLaws : 0 < 15 ∧ 15 < 16 ∧ (14 : Nat) ≠ 15 := by decide

theorem case_ControlFlow : ([0x001, 0x002, 0x003, 0x004, 0x005, 0x006].all fun c =>
    (at_ ⟨c, ar 0 .none (.creg 1) .none⟩).canIssue 0 ⟨c, ar 0 .none (.creg 1) .none⟩) = true := by decide +kernel
/-- Some cores loop and others do not, and an ENDLOOP stands in its last and in an earlier iteration. -/
theorem case_ControlFlow_loops :
    let counts := (List.range 16).map fun q => if q = 0 then 3 else 0
    (∃ m ∈ counts, 0 < m ∧ ∀ n ∈ counts, n ≤ m) ∧ (∃ n ∈ counts, n = 0) ∧ 1 + 1 < 3 ∧ 3 ≤ 2 + 1 := by decide +kernel

theorem case_UnissuedRowsChangeNothing : (Instr.nopInstruction 0 (ar 0 .none .none .none)).lumfy =
      some (0, ⟨0, ar 0 .none .none .none⟩) ∧
    up.canIssue 0 ⟨0, ar 0 .none .none .none⟩ = false := by decide +kernel

theorem case_LoadsAndStores :
    ([0x013, 0x014, 0x007].all fun c => (at_ ⟨c, ar3 0x15⟩ core1).canIssue 0 ⟨c, ar3 0x15⟩) = true ∧ 0 < elemBits 0x15 / 8 ∧
      0 ∈ ((at_ ⟨0x13, ar3 0x15⟩ core1).team 0).masked 1 ∧ (at_ ⟨0x13, ar3 0x15⟩ core1).coreBytes 0 = 0x10000 := by
  decide +kernel
theorem case_LoadsAndStores_settled : settled (at_ ⟨0x13, ar3 0x15⟩ core1) 0 0 := settled_at _ _

theorem case_DescriptorRows : ((descriptorRows (ar3 0x13)).all fun r =>
      (at_ ⟨r.2.1, ar3 0x13⟩ core2).canIssue 0 ⟨r.2.1, ar3 0x13⟩) = true ∧
    ([0x083, 0x086].all fun c => (at_ ⟨c, ar3 0x13⟩ core2).canIssue 0 ⟨c, ar3 0x13⟩) = true ∧
    (tile 2 2 0x1000).nullForAny = false ∧ (tile 2 2 0x1000 0x08).nullForAny = true := by decide +kernel
theorem case_DescriptorRows_desc :
    let x := ar 0 (.treg 1) .none .none 0
    let i : Image := ⟨[⟨0x080, x⟩], [], [tile 128 1 0], [stream]⟩
    let s := (at_ ⟨0x080, x⟩ core2).modTeam 0 fun k => { k with bank0 := .full i }
    (s.team 0).image = some i ∧ i.descs[x.imm.toNat % 2048]? = some (tile 128 1 0) ∧ (tile 128 1 0).legal = true ∧
      s.canIssue 0 ⟨0x080, x⟩ = true := by decide +kernel

theorem case_ElementwiseResults :
    let x := ar3 0x13
    let s := at_ ⟨0x180, x⟩ core2
    settled s 0 0 ∧ writable s 0 0 x ((s.core 0 0).tile x.d) ∧
    s.canIssue 0 ⟨0x180, x⟩ = true ∧ 0 ∈ (s.team 0).masked x.pred ∧ elemNull (s.core 0 0) x x.ty = false ∧
      s.elemOutside 0 0 x = false := by
  refine ⟨settled_at _ _, writable_of rfl ?_, ?_⟩ <;> decide +kernel
theorem case_ElementwiseResults_rows :
    ((elementRows up 0 0 (ar3 0)).all fun r => (at_ ⟨r.2.1, ar3 0⟩ core1).canIssue 0 ⟨r.2.1, ar3 0⟩) = true := by
  decide +kernel

theorem case_SelectionAndDraws :
    let x := ar3 0x13 5
    let s := at_ ⟨0x1AB, x⟩ core2
    let k := s.core 0 0
    let d := k.tile x.d
    let m := k.getT 5
    settled s 0 0 ∧ writable s 0 0 x d ∧ 0 ∈ (s.team 0).masked x.pred ∧ s.coreOutside 0 (k.tile x.a) = false ∧
      s.canIssue 0 ⟨0x1AB, x⟩ = true ∧ elemNull k x x.ty = false ∧ m.nullForCompute = false ∧ m.ty = 0x1A ∧ m.rows = d.rows ∧
      m.cols = d.cols ∧ d.overlaps m = false ∧ s.elemOutside 0 0 x = false ∧ s.coreOutside 0 m = false := by
  refine ⟨settled_at _ _, writable_of rfl ?_, ?_⟩ <;> decide +kernel
theorem case_SelectionAndDraws_convert :
    let x := ar 0 (.treg 1) (.treg 2) .none 0 1
    let k := { core2 with t := [(1, tile 2 2 0x1000 0), (2, tile 2 2 0x2000)] }
    let s := at_ ⟨0x1A0, x⟩ k
    s.canIssue 0 ⟨0x1A0, x⟩ = true ∧ (k.tile x.a).nullForCompute = false ∧ (k.tile x.d).nullForCompute = false ∧
      (k.tile x.a).tyN ∈ setVC ∧ (k.tile x.d).tyN = x.ty ∧ (k.tile x.d).rows = (k.tile x.a).rows ∧
      clash (k.tile x.d) (k.tile x.a) = false := by decide +kernel
theorem case_SelectionAndDraws_random : ∀ n ∈ [0x100, 0x1FFF], 0x100 ≤ n % 4096 ∧ bits n 13 19 = 0 ∧
    (at_ ⟨0x1B0, ar3 0x15⟩ (core2 0x15)).canIssue 0 ⟨0x1B0, ar3 0x15⟩ = true ∧
    ((core2 0x15).tile (.treg 1)).nullForCompute = false := by decide +kernel
theorem case_SelectionAndDraws_dropout :
    let x := ar 0 (.treg 1) (.treg 2) .none 0x53F000000 1
    let s := at_ ⟨0x1B1, x⟩ (core2 0)
    let k := s.core 0 0
    let m := k.getT (x.imm.toNat / 2 ^ 32 % 32)
    writable s 0 0 x m ∧ writable s 0 0 x (k.tile x.d) ∧ s.canIssue 0 ⟨0x1B1, x⟩ = true ∧ elemNull k x x.ty = false ∧
      m.nullForCompute = false ∧ m.ty = 0x1A ∧ m.rows = (k.tile x.d).rows ∧ m.cols = (k.tile x.d).cols ∧
      (k.tile x.d).overlaps m = false ∧ m.overlaps (k.tile x.a) = false ∧ s.elemOutside 0 0 x = false := by
  refine ⟨writable_of rfl ?_, writable_of rfl ?_, ?_⟩ <;> decide +kernel

theorem case_ReductionsAndScans :
    let x := ar 0x13 (.treg 1) (.treg 2) .none 0 1
    let k := { core2 with t := [(1, tile 1 2 0x1000), (2, tile 2 2 0x2000)] }
    let s := at_ ⟨0x1C0, x⟩ k
    let a := k.tile x.a
    let d := k.tile x.d
    settled s 0 0 ∧ writable s 0 0 x d ∧ 0 ∈ (s.team 0).masked x.pred ∧ s.coreOutside 0 a = false ∧
      a.nullForCompute = false ∧ d.nullForCompute = false ∧ a.tyN = x.ty ∧ d.tyN = x.ty ∧ d.cols = a.cols ∧
      d.overlaps a = false ∧ s.canIssue 0 ⟨0x1C0, x⟩ = true ∧ d.rows = 1 := by
  refine ⟨settled_at _ _, writable_of rfl ?_, ?_⟩ <;> decide +kernel
theorem case_ReductionsAndScans_segments :
    let x := ar3 0x13
    let k := { core2 with t := [(1, tile 2 2 0x1000), (2, tile 4 2 0x2000), (3, tile 3 1 0x3000)] }
    let b := k.tile x.b
    (at_ ⟨0x1E0, x⟩ k).canIssue 0 ⟨0x1E0 + redIndex .add, x⟩ = true ∧ b.nullForCompute = false ∧ b.tyN = 0x13 ∧ b.cols = 1 ∧
      b.rows = (k.tile x.d).rows + 1 ∧ (k.tile x.d).overlaps b = false ∧ (at_ ⟨0x1E0, x⟩ k).coreOutside 0 b = false := by
  decide +kernel
theorem case_ReductionsAndScans_scan :
    let x := ar3 0x13 4
    let k := { core2 with t := [(1, tile 2 2 0x1000), (2, tile 2 2 0x2000), (3, tile 2 1 0x3000 0x1A), (4, tile 1 2 0x4000)] }
    let b := k.tile x.b
    let c := k.getT 4
    let s := at_ ⟨0x1D0, x⟩ k
    settled s 0 0 ∧ writable s 0 0 x c ∧ writable s 0 0 x (k.tile x.d) ∧
      s.canIssue 0 ⟨0x1D0 + scanIndex .add, x⟩ = true ∧ (k.tile x.d).rows = (k.tile x.a).rows ∧
      c.nullForCompute = false ∧ c.tyN = x.ty ∧ c.rows = 1 ∧
      c.cols = (k.tile x.a).cols ∧ (k.tile x.d).overlaps c = false ∧ c.overlaps (k.tile x.a) = false ∧
      b.nullForCompute = false ∧ b.ty = 0x1A ∧ b.rows = (k.tile x.a).rows ∧ b.cols = 1 ∧ c.overlaps b = false ∧
      (k.tile x.d).overlaps b = false ∧ s.coreOutside 0 b = false ∧ (k.tile x.d).overlaps (k.tile x.a) = false := by
  refine ⟨settled_at _ _, writable_of rfl ?_, writable_of rfl ?_, ?_⟩ <;> decide +kernel

theorem case_VectorRowsFrame : ∀ c ∈ [0x180, 0x1E6], 0x180 ≤ c ∧ c ≤ 0x1E6 ∧
    (at_ ⟨c, ar3 0x13⟩ core2).canIssue 0 ⟨c, ar3 0x13⟩ = true := by decide +kernel

theorem case_MatrixProducts :
    let x := ar3 0
    let k := core2 0
    let s := at_ ⟨0x100, x⟩ k
    settled s 0 0 ∧ drainReady s 0 x [x.a, x.b, .none] ∧ writable s 0 0 x (k.tile x.d) ∧ s.canIssue 0 ⟨0x100, x⟩ = true ∧
      x.mod.getLsbD 7 = false ∧ 0 ∈ (s.team 0).masked x.pred ∧
      s.coreOutside 0 (k.tile x.a) = false ∧ s.coreOutside 0 (k.tile x.b) = false ∧
      operandsOk s.part9620 x.ty (k.tile x.a) (k.tile x.b) = true ∧
      resultOk x.ty (k.tile x.d) (k.tile x.a) (k.tile x.b) = true := by
  refine ⟨settled_at _ _, drainReady_of _ ?_, writable_of rfl ?_, ?_⟩ <;> decide +kernel
theorem case_MatrixProducts_int :
    let k := { core2 with t := [(1, tile 2 2 0x1000), (2, tile 2 2 0x2000 0x10), (3, tile 2 2 0x3000 0x10)] }
    isIntTy 0x10 = true ∧ operandsOk false 0x10 (k.getT 2) (k.getT 3) = true ∧
      resultOk 0x10 (k.getT 1) (k.getT 2) (k.getT 3) = true := by decide +kernel
theorem case_MatrixProducts_derivative :
    let x := ar3 0 0x0204
    let k := core2 0
    let s := at_ ⟨0x101, x⟩ k
    drainReady s 0 x [x.a, x.b, .treg 4] ∧ s.canIssue 0 ⟨0x101, x⟩ = true ∧ savedOk 1 (k.getT 4) (k.tile x.d) = true ∧
      savedOk 2 (k.getT 5) (k.tile x.d) = true ∧ s.coreOutside 0 (k.getT 4) = false := by
  refine ⟨drainReady_of _ ?_, ?_⟩ <;> decide +kernel

theorem case_AccumulationStore :
    let x := ar 0 (.sreg 1) (.treg 2) (.treg 3) 0 1
    let s := at_ ⟨0x102, x⟩ (core2 0)
    settled s 0 0 ∧ drainReady s 0 x [x.a, x.b] ∧ s.canIssue 0 ⟨0x102, x⟩ = true ∧ (s.team 0).masked x.pred = [0] ∧
      s.coreOutside 0 ((s.core 0 0).tile x.a) = false ∧ s.coreOutside 0 ((s.core 0 0).tile x.b) = false ∧
      operandsOk s.part9620 x.ty (s.core 0 0 |>.tile x.a) (s.core 0 0 |>.tile x.b) = true ∧
      1020 + 2 * 2 ≤ s.accWords 0 ∧ ¬ (1021 + 2 * 2 ≤ s.accWords 0) := by
  refine ⟨settled_at _ _, drainReady_of _ ?_, ?_⟩ <;> decide +kernel
theorem case_AccumulationStore_rest :
    let x := ar 0 (.treg 1) (.sreg 1) (.sreg 2) 1 1
    let s := at_ ⟨0x103, x⟩ (core2 0)
    drainReady s 0 x [] ∧ writable s 0 0 x ((s.core 0 0).tile x.d) ∧
      ([0x103, 0x104].all fun c => (at_ ⟨c, x⟩ (core2 0)).canIssue 0 ⟨c, x⟩) = true ∧ x.imm.getLsbD 0 = true ∧
      ((s.core 0 0).tile x.d).nullForCompute = false ∧ ((s.core 0 0).tile x.d).tyN = x.ty ∧ 2 * 2 ≤ s.accWords 0 := by
  refine ⟨drainReady_of _ ?_, writable_of rfl ?_, ?_⟩ <;> decide +kernel

/-! ### A case for the hypotheses of each statement: moves, gathers, masks, engines -/

/-- A fabric module: role 7 of context 1 under epoch 1, role 9 one hop away on port 0, which is UP. -/
def fab (s : State) : State :=
  { s with
    ctxs := s.ctxs.map fun (x : Nat × Ctx) => (x.1, { x.2 with span := 1, modules := 2 })
    fabric := { s.fabric with
      roles := [(7, ⟨1, 0xFFFFFFFF, 1, 0, false⟩)], routes := [(9, ⟨1, false, false, [(0, 1)]⟩)]
      ports := [(0, { ({ } : Port) with state := .up })] } }

theorem case_TileMoves_copy :
    let x := ar 0 (.treg 1) (.treg 2) .none 0 1
    let k := { core2 with t := [(1, { tile 2 2 0 with space := 1 }), (2, tile 2 2 0x2000)] }
    let s := at_ ⟨0x088, x⟩ k
    let d := k.tile x.d
    let a := k.tile x.a
    (s.team 0).masked x.pred = [0] ∧ s.canIssue 0 ⟨0x088, x⟩ = true ∧ (s.core 0 0).tileQueue = [] ∧ tcopyNull d a = false ∧
      d.space.toNat ≤ 2 ∧ a.space.toNat ≤ 2 ∧ s.unfenced = [] ∧ tileOutside (s.usable 0 d.space.toNat) d = false ∧
      tileOutside (s.usable 0 a.space.toNat) a = false ∧ d.lineBytes ≤ d.stride.toNat ∧
      d.extents.Pairwise (fun a b => rangesMeet a b = false) ∧ placeOf 0 0 a.space.toNat ≠ placeOf 0 0 d.space.toNat ∧
      recordRange s 0 0 x = none ∧ s.fabric.reads = [] := by decide +kernel
theorem case_TileMoves_fill :
    let x := ar 0 (.treg 1) (.sreg 1) .none 0 1
    let k := { core2 with t := [(1, { tile 128 1 0 0 with space := 2 })] }
    let s := at_ ⟨0x089, x⟩ k
    let d := k.tile x.d
    (s.team 0).masked x.pred = [0] ∧ s.canIssue 0 ⟨0x089, x⟩ = true ∧ tfillNull d x.ty = false ∧ s.fabric.reads = [] ∧
      s.unfenced = [] ∧ d.space.toNat ≤ 2 ∧ tileOutside (s.usable 0 2) d = false ∧ d.lineBytes ≤ d.stride.toNat ∧
      d.extents.Pairwise (fun a b => rangesMeet a b = false) := by decide +kernel
/-- A fill of a tile that lies in FABRIC, at the away role. -/
theorem case_TileMoves_fabricFill :
    let x := ar 0 (.treg 1) (.sreg 1) .none 0 1
    let k := { core2 with t := [(1, { tile 2 2 0x0009000000000000 0 with space := 3 })] }
    let s := fab (at_ ⟨0x089, x⟩ k)
    (s.team 0).masked x.pred = [0] ∧ s.canIssue 0 ⟨0x089, x⟩ = true ∧ tfillNull (k.tile x.d) x.ty = false ∧
      (k.tile x.d).space = 3 ∧ s.fabric.reads = [] ∧ ((s.team 0).kernel.map fun r => r.ctx) = some 1 ∧
      (s.portFor (s.postcodeOf 1) 9).isSome = true ∧ ∀ p ∈ fabricPieces (k.tile x.d), s.fabricSide 0 p.1 = .away 9 := by
  decide +kernel
theorem case_TileMoves_fabric :
    let x := ar 0 (.treg 1) (.treg 2) .none 0 1
    let k := { core2 with t := [(1, tile 2 2 0x1000), (2, { tile 2 2 0x0009000000000000 with space := 3 })] }
    let s := fab (at_ ⟨0x088, x⟩ k)
    s.canIssue 0 ⟨0x088, x⟩ = true ∧ tcopyNull (k.tile x.d) (k.tile x.a) = false ∧ (k.tile x.a).space = 3 ∧
      (s.team 0).masked x.pred = [0] ∧ ((s.team 0).kernel.map fun r => r.ctx) = some 1 ∧ s.fabric.reads = [] ∧
      (s.portFor (s.postcodeOf 1) 9).isSome = true ∧
      ∀ p ∈ fabricPieces (k.tile x.a), s.fabricSide 0 p.1 = .away 9 := by decide +kernel

theorem case_GatherResults_rows :
    let x := ar3 0x13
    let k := { core2 with
      t := [(1, tile 3 2 0x1000), (2, tile 3 1 0x2000), (3, tile 2 2 0x3000)]
      mem := memWrite [] 0x2000 [1, 0, 0, 0] }
    let s := at_ ⟨0x280, x⟩ k
    let a := k.tile x.a
    let b := k.tile x.b
    let d := k.tile x.d
    0 ∈ (s.team 0).masked x.pred ∧ s.canIssue 0 ⟨0x280, x⟩ = true ∧ (s.core 0 0).tileQueue = [] ∧
      a.nullForCompute = false ∧ b.nullForCompute = false ∧ a.tyN ∈ [0x13, 0x15, 0x1C, 0x1D] ∧ a.cols = 1 ∧
      gatherNull d x.ty b.tyN b.cols b.colMajor = false ∧ d.rows = a.rows ∧ d.overlaps a = false ∧ d.overlaps b = false ∧
      d.lineBytes ≤ d.stride.toNat ∧ d.extents.Pairwise (fun a b => rangesMeet a b = false) ∧ s.coreOutside 0 d = false ∧
      s.coreOutside 0 a = false ∧ s.coreOutside 0 b = false ∧ (∀ i, i < 3 → (tileOf s 0 0 a).code i 0 < b.rows) ∧
      recordRange s 0 0 x = none := by decide +kernel
/-- With STRICT and an index beyond B's rows. -/
theorem case_GatherResults_strict :
    let x := ar3 0x13 0 0x40
    let k := { core2 with
      t := [(1, tile 3 2 0x1000), (2, tile 3 1 0x2000), (3, tile 2 2 0x3000)]
      mem := memWrite [] 0x2000 [2, 0, 0, 0] }
    let s := at_ ⟨0x280, x⟩ k
    let b := k.tile x.b
    s.canIssue 0 ⟨0x280, x⟩ = true ∧ x.mod.getLsbD 6 = true ∧ gatherNull (k.tile x.d) x.ty b.tyN b.cols b.colMajor = false ∧
      b.rows ≤ (tileOf s 0 0 (k.tile x.a)).code 0 0 := by decide +kernel

/-- Table 3 of context 1: INT32, 2 columns, 100 rows. -/
def table3 : Table :=
  { vtype := 0x13, rule := 0, cols := 2, rows := 100, group := 0, buddy := 0xFFFF, base := 0x10000, version := 1
    stripes := 1, pending := none, mirrorLost := false, replacing := none }

/-- A prefetch record for 2 rows of table 3, NODE32 identifiers from 0x8000 on. -/
def prefetch3 : List Byte :=
  bytesAt (leBytes 4 3 ++ [1, 0x1C, 0, 0, 2, 0, 0, 0] ++ leBytes 4 2 ++ leBytes 8 0x8000) 0 64

/-- A row slot that holds such a request. -/
def slot3 (phase : StagePhase) : RowSlot :=
  { count := 1, ctx := 1, core := 0, recordAt := 0x100, record := prefetch3, phase := phase, order := 0, ids := [5, 6]
    version := 1, page := 0, pages := 1, dropped := 0, late := false, releasing := false }

/-- A complete parcel of one layer with 3 edges. -/
def parcel1 : Parcel :=
  { count := 1, ctx := 1, graph := 0, src := ⟨0, false, 0, 0, 0, 0, 0, 0, 0, 0⟩, seed := 0, mode := 0, record := [], seeds := []
    dropped := 0, dups := 0, complete := true, freeing := false, since := 0
    header := bytesAt (leBytes 4 0 ++ [1] ++ List.replicate 31 0 ++ leBytes 4 3) 0 64 }

/-- Team 0 with records in CLUSTER memory, table 3, a row slot and a parcel. -/
def busy (s : State) (cluster : Memory := []) : State :=
  ({ s with ctxs := s.ctxs.map fun (x : Nat × Ctx) => (x.1, { x.2 with tables := [(3, table3)] }) }).modTeam 0 fun t => { t with
    cluster := cluster
    rows := { t.rows with slots := [(1, slot3 .staged)], count := 1 }
    sampler := { t.sampler with slots := [(1, parcel1)], count := 1 } }

/-- Whether some bytes lie outside a tile. -/
def apart (cells : List (Nat × Byte)) (d : TileDesc) : Bool :=
  cells.all fun y => d.extents.all fun e => decide (y.1 < e.1) || decide (e.1 + e.2 ≤ y.1)

theorem case_GatherResults_staged :
    let x := ar 0x13 (.treg 1) (.treg 2) (.sreg 1) 0 1
    let k := { core2 with t := [(1, tile 3 2 0x1000), (2, tile 3 1 0x2000)], s := [(1, handleOf 1 1 0)] }
    let s := busy (at_ ⟨0x281, x⟩ k)
    let a := k.tile x.a
    let d := k.tile x.d
    s.rowOf 0 (k.value x false x.b) = some (slot3 .staged) ∧ s.table 1 3 = some table3 ∧ pTable prefetch3 = 3 ∧
      s.canIssue 0 ⟨0x281, x⟩ = true ∧ s.stagingWait 0 x = false ∧ a.nullForCompute = false ∧ a.tyN = 0x13 ∧ a.cols = 1 ∧
      gatherNull d x.ty table3.vtype (pCols prefetch3) false = false ∧ d.rows = a.rows ∧ d.overlaps a = false ∧
      s.coreOutside 0 d = false ∧ s.coreOutside 0 a = false := by decide +kernel
theorem case_GatherResults_edge :
    let x := ar 0x13 (.treg 1) (.sreg 2) (.sreg 1) 0 1
    let k := { core2 with
      t := [(1, tile 128 2 0x1000)], s := [(1, handleOf 1 1 0), (2, 0x800)]
      mem := memWrite [] 0x800 (leBytes 8 (handleOf 1 1 0).toNat ++ leBytes 4 0 ++ leBytes 4 9) }
    let s := busy (at_ ⟨0x282, x⟩ k)
    s.canIssue 0 ⟨0x282, x⟩ = true ∧ s.stagingWait 0 x = false ∧
      (match s.cursorAt 0 0 (k.value x false x.a).toNat false with
       | some c => (s.cursorParcel 0 c == some parcel1) && c.count (parcel1.layerField c.layer 1) == 3 && c.at_ + 64 ≤ s.coreBytes 0
       | none => false) = true ∧
      s.rowOf 0 (k.value x false x.b) = some (slot3 .staged) ∧ s.table 1 (pTable prefetch3) = some table3 ∧
      gatherNull (k.tile x.d) x.ty table3.vtype (pCols prefetch3) false = false ∧
      (match s.cursorAt 0 0 (k.value x false x.a).toNat false with
       | some c => apart (cursorCells (memGet k.mem) c
           (headFlags (fun e => edgeField s.stack parcel1 c.layer e true) c.next 3)) (withRows (k.tile x.d) 3)
       | none => false) = true ∧
      (withRows (k.tile x.d) 3).lineBytes ≤ (withRows (k.tile x.d) 3).stride.toNat ∧
      s.coreOutside 0 (withRows (k.tile x.d) 3) = false := by decide +kernel
theorem case_GatherResults_route :
    let x := ar 0x13 (.treg 1) (.sreg 2) (.treg 3) 0 1
    let k := { core2 with
      t := [(1, tile 128 2 0x4000), (3, tile 2 2 0x1000)], s := [(2, 0x800)]
      mem := memWrite [] 0x800 (leBytes 8 (handleOf 1 1 0).toNat ++ leBytes 4 0 ++ leBytes 4 9 ++ List.replicate 24 0 ++
        leBytes 4 0 ++ leBytes 4 2) }
    let s := busy (at_ ⟨0x283, x⟩ k)
    s.canIssue 0 ⟨0x283, x⟩ = true ∧
      (match s.cursorAt 0 0 (k.value x false x.a).toNat true with
       | some c => (s.cursorParcel 0 c == some parcel1) && !meetsWindow (withRows (k.tile x.d) 3) (k.tile x.b) c.winRows &&
           apart (cursorCells (memGet k.mem) c
             (headFlags (fun e => edgeField s.stack parcel1 c.layer (routeEntry s.stack parcel1 c.layer e) false) c.next 3))
             (withRows (k.tile x.d) 3)
       | none => false) = true ∧
      (k.tile x.b).nullForCompute = false ∧ gatherNull (k.tile x.d) x.ty 0x13 2 false = false := by decide +kernel

/-- A mask record for slot 1: blocks of 8, one block-row, one block-column, one block. -/
def mask1 : List Byte :=
  bytesAt (leBytes 1 1 ++ [8, 0x13, 0] ++ leBytes 4 1 ++ leBytes 4 1 ++ leBytes 4 1) 0 64

theorem case_MaskRows_bind :
    let x := ar 0 (.sreg 3) (.sreg 1) .none 0 1
    let k := { core2 with s := [(1, 0x100)] }
    let s := busy (at_ ⟨0x289, x⟩ k) (memWrite [] 0x100 mask1)
    (s.team 0).masked x.pred = [0] ∧ s.kernelCtx 0 = s.ctx 1 ∧ (s.ctx 1).isSome = true ∧ s.canIssue 0 ⟨0x289, x⟩ = true ∧
      (k.value x false x.a).toNat % 64 = 0 ∧ (k.value x false x.a).toNat + 64 ≤ s.clusterBytes 0 ∧
      mapGet (s.team 0).masks (mSlot mask1) = none := by decide +kernel
/-- A bound mask with one block of 8 in row 0 and column 0, and a cursor of core 0 at its start. -/
theorem case_MaskRows_merge :
    let x := ar 0x13 (.treg 1) (.sreg 1) (.treg 3) 1 1
    let m : MaskSlot :=
      { addr := 0x100, generation := 0, block := 8, vtype := 0x13, brows := 1, bcols := 1, splitLen := 16, values := 0
        bindArea := 0x400, transposed := true, kept := [(0, 0)], capDropped := 0, idxDropped := 0, areaSize := 0, areaFill := 0 }
    let k := { core2 with
      t := [(1, tile 128 8 0x4000), (3, tile 2 8 0x1000)], s := [(1, 0x800)]
      mem := memWrite [] 0x800 (List.replicate 12 0 ++ leBytes 4 8) }
    let s := (at_ ⟨0x288, x⟩ k).modTeam 0 fun t =>
      { t with masks := [(1, m)], cluster := memWrite [] 0x500 ((m.area 0 0).drop 256) }
    s.canIssue 0 ⟨0x288, x⟩ = true ∧ (s.core 0 0).tileQueue = [] ∧ (s.team 0).masked x.pred = [0] ∧
      m.recordsIntact (s.team 0).cluster = true ∧ m.recordsIntact [] = false ∧ x.mod.getLsbD 6 = false ∧
      (match s.blockCursorAt 0 0 0x800 with
       | some c =>
         (match m.cursorChunk c 0 with
          | some (ch, last) =>
            let n := ch.union.length * m.block
            let d1 := withRows (k.tile x.d) n
            !mergeNull x m c n (k.tile x.d) (k.tile x.b) && !s.coreOutside 0 (k.tile x.b) && !s.coreOutside 0 d1 &&
              apart (blockCursorCells c ch last n) d1
          | none => false)
       | none => false) = true := by decide +kernel

theorem case_SamplerRows :
    let x := ar 0 (.sreg 3) (.sreg 1) (.sreg 2) 0 1
    let k := { core2 with s := [(1, handleOf 1 1 0)] }
    ([0x300, 0x301, 0x302, 0x303, 0x308, 0x309].all fun c => (busy (at_ ⟨c, x⟩ k)).canIssue 0 ⟨c, x⟩) = true ∧
      ((busy (at_ ⟨0x308, x⟩ k)).team 0).masked x.pred = [0] ∧ ((busy (at_ ⟨0x308, x⟩ k)).team 0).sampler.queue = [] ∧
      (busy (at_ ⟨0x308, x⟩ k)).streamFlag 0 1 = true ∧ (busy (at_ ⟨0x308, x⟩ k)).parcelOf 0 0 = none ∧
      (busy (at_ ⟨0x308, x⟩ k)).parcelOf 0 (k.value x false x.a) = some parcel1 := by decide +kernel
/-- Where p1 is false in every core, each team request can issue with no mask true. -/
theorem case_TeamRows_passedOver :
    let x := ar 0 (.sreg 3) (.sreg 1) (.sreg 2) 0 1
    ([0x300, 0x301, 0x302, 0x303, 0x308, 0x309, 0x340, 0x341, 0x342, 0x380, 0x381, 0x382].all fun c =>
      (at_ ⟨c, x⟩).canIssue 0 ⟨c, x⟩ && (((at_ ⟨c, x⟩).team 0).masked x.pred).isEmpty && !(at_ ⟨c, x⟩).rowsWait 0 x &&
        ((at_ ⟨c, x⟩).holderOf 0 == (1, some ctx1))) = true := by decide +kernel
theorem case_SamplerRows_refused :
    let x := ar 0 (.sreg 3) (.sreg 1) (.sreg 2) 0 1
    let s := (at_ ⟨0x300, x⟩ core2).modKernel 0 fun r => { r with stream := { stream with flags := 0 } }
    s.canIssue 0 ⟨0x300, x⟩ = true ∧ s.streamFlag 0 1 = false ∧ s.parcelOf 0 0 = none := by decide +kernel

theorem case_RowEngineRows :
    let x := ar 0 (.sreg 3) (.sreg 1) .none 0 1
    let k := { core2 with s := [(1, 0x200)] }
    let s := busy (at_ ⟨0x340, x⟩ k) (memWrite [] 0x200 prefetch3)
    (s.team 0).masked x.pred = [0] ∧ s.holderOf 0 = (1, s.ctx 1) ∧ s.canIssue 0 ⟨0x340, x⟩ = true ∧
      s.bumpFree.requestRecord 0 .re (k.value x false x.a) 64 = some prefetch3 ∧ s.table 1 3 = some table3 ∧
      (s.team 0).rows.freeSlot = some 2 ∧ prefetchOk table3 prefetch3 = true ∧
      (match s.ctx 1 with
       | some cx => (s.bumpFree.beginPrefetch 0 0 1 cx 0x200 table3 prefetch3).isSome
       | none => false) = true := by decide +kernel
theorem case_RowEngineRows_refused :
    let r : List Byte := bytesAt (prefetch3.set 4 9) 0 64
    prefetchOk table3 r = false ∧ pTable r = 3 := by decide +kernel
theorem case_RowEngineRows_rest :
    let x := ar 0 (.sreg 3) (.sreg 1) .none 0 1
    let k := { core2 with s := [(1, handleOf 1 1 0)] }
    ([0x341, 0x342].all fun c => (busy (at_ ⟨c, x⟩ k)).canIssue 0 ⟨c, x⟩) = true ∧
      (busy (at_ ⟨0x341, x⟩ k)).rowOf 0 (k.value x false x.a) = some (slot3 .staged) ∧
      (busy (at_ ⟨0x341, x⟩ k)).rowOf 0 0 = none ∧ (busy (at_ ⟨0x342, x⟩ k)).table 1 3 = some table3 ∧
      (busy (at_ ⟨0x342, x⟩ k)).table 1 4 = none := by decide +kernel

/-- A handle of counter 0 of team 0's unit, as a number (R352). -/
def done0 : Nat := 0xFFFF00000000
/-- Records of an UPD.TENSOR of one element, an UPD.ROWS of table 3's staged rows and an UPD.NORM of one element. -/
def tensor1 : List Byte :=
  bytesAt (leBytes 8 0 ++ leBytes 8 1 ++ leBytes 8 0x100000 ++ List.replicate 24 0 ++ leBytes 8 0x200000 ++
    List.replicate 16 0 ++ leBytes 8 done0) 0 128
def rows1 : List Byte :=
  bytesAt (leBytes 4 3 ++ leBytes 4 1 ++ leBytes 8 (handleOf 1 1 0).toNat ++ leBytes 8 0x200000 ++ leBytes 8 0 ++
    leBytes 8 done0) 0 64
def norm1 : List Byte := bytesAt (leBytes 8 0 ++ leBytes 8 1 ++ leBytes 8 0x200000) 0 64
/-- Team 0 with such a record in CLUSTER, and group entry 0 of rule SGD with one point. -/
def updates (code : Nat) (record : List Byte) (phase : StagePhase := .staged) : State :=
  let s := busy (at_ ⟨code, ar 0 (.sreg 3) (.sreg 1) .none 0 1⟩ { core2 with s := [(1, 0x200)] }) (memWrite [] 0x200 record)
  { s with stack := memWrite [] 0x10000 [0, 0, 1] }.modTeam 0 fun t =>
    { t with rows := { t.rows with slots := [(1, slot3 phase)] } }

theorem case_UpdateRows :
    let x := ar 0 (.sreg 3) (.sreg 1) .none 0 1
    let ready (c : Nat) (r : List Byte) (n : Nat) : Bool :=
      let s := updates c r
      s.canIssue 0 ⟨c, x⟩ && ((s.team 0).masked x.pred == [0]) && (s.holderOf 0 == (1, s.ctx 1)) && s.streamFlag 0 2 &&
        (s.bumpFree.requestRecord 0 .ue ((s.core 0 0).value x false x.a) n == some r)
    ready 0x380 tensor1 128 && ready 0x381 rows1 64 && ready 0x382 norm1 64 = true := by decide +kernel
theorem case_UpdateRows_tensor :
    let s := (updates 0x380 tensor1).bumpFree
    (match s.ctx 1 with
     | some cx => let e := s.groupEntry 0 cx (tGroup tensor1)
       s.tensorOk 1 cx tensor1 e && !s.tooLate 1 (tBarrier tensor1) (tStep tensor1) && !s.tensorOk 1 cx rows1 e
     | none => false) = true := by decide +kernel
theorem case_UpdateRows_rows :
    let s := (updates 0x381 rows1).bumpFree
    let x := ar 0 (.sreg 3) (.sreg 1) .none 0 1
    (updates 0x381 rows1).rowsWait 0 x = false ∧ (updates 0x381 rows1 .parcel).rowsWait 0 x = true ∧
    s.table 1 (rTable rows1) = some table3 ∧
      (updates 0x381 rows1).rowOf 0 (BitVec.ofNat 64 (rHandle rows1)) = some (slot3 .staged) ∧
    (match s.ctx 1 with
     | some cx => let e := s.groupEntry 0 cx (rGroup rows1)
       s.rowsOk 0 1 cx table3 (slot3 .staged) rows1 e && !s.tooLate 1 (rBarrier rows1) (rStep rows1) &&
         !s.rowsOk 0 1 cx table3 (slot3 .staged) tensor1 e
     | none => false) = true := by decide +kernel
theorem case_UpdateRows_norm :
    let s := (updates 0x382 norm1).bumpFree
    (match s.ctx 1 with | some cx => s.normOk cx norm1 && !s.normOk cx rows1 | none => false) = true := by decide +kernel

/-- A taken update request. -/
def upd1 : UpdReq :=
  { rows := false, core := 0, ctx := 1, seq := 1, recordAt := 0, record := [], rule := 0, flags := 0, clip := 0, eps := 0
    eta := 0, lambda := 0, beta1 := 0, beta2 := 0, t := 0, step := 0, barrier := 0, done := 0, ids := [], held := false
    begun := none, fault := 0 }

/-- A SAMPLE.UNIFORM of one seed and one layer at graph 0 waits in the sampler's queue, and core 0 awaits its handle. -/
theorem case_EngineEvents_sampler :
    let u : UnitReq := ⟨⟨0x300, ar 0 (.sreg 3) (.sreg 1) (.sreg 2)⟩, 0, 0x100, 0, 1⟩
    let r : List Byte := bytesAt (leBytes 4 1 ++ leBytes 4 1 ++ leBytes 8 0 ++ leBytes 8 0x1000 ++ leBytes 8 0x2000 ++
      leBytes 8 0x10000 ++ leBytes 8 done0 ++ leBytes 2 2) 0 128
    let g : Graph := ⟨0, false, 0, 10, 8, 0x1000, 0x2000, 0, 0, 0⟩
    let s0 := busy (at_ ⟨0, ar 0 .none .none .none⟩) (memWrite [] 0x100 r)
    let s := ({ s0 with ctxs := s0.ctxs.map fun (x : Nat × Ctx) => (x.1, { x.2 with graphs := [(0, g)] }) }).modTeam 0 fun t =>
      { (t.modCore 0 fun k => { k with awaited := [⟨.sreg 3, [], 1, false, .sa, none⟩] }) with
        sampler := { t.sampler with queue := [u] } }
    (s.team 0).sampler.queue = u :: [] ∧ (s.team 0).sampler.busy = false ∧ s.holderOf 0 = (1, s.ctx 1) ∧
      s.bumpFree.requestRecord 0 .sa u.a 128 = some r ∧
      (match s.ctx 1 with
       | some cx => (s.bumpFree.sampleReady 0 1 cx (modeOf u.word.code) u.b.toNat r == some g) &&
           (s.bumpFree.sampleReady 0 1 cx (modeOf u.word.code) 1 r).isNone
       | none => false) = true ∧ (s.core 0 0).awaited = [⟨.sreg 3, [], 1, false, .sa, none⟩] := by decide +kernel
theorem case_EngineEvents_parcel :
    let s := up.modTeam 0 fun t => { t with sampler := { t.sampler with slots := [(1, { parcel1 with complete := false })] } }
    (s.team 0).sampler.slots.find? (fun y => !y.2.complete) = some (1, { parcel1 with complete := false }) ∧
      parcel1.freeing = false := by decide +kernel
theorem case_EngineEvents_staging :
    let a := up.modTeam 0 fun t => { t with rows := { t.rows with slots := [(1, slot3 .queued)] } }
    let b := (busy (at_ ⟨0, ar 0 .none .none .none⟩)).modTeam 0 fun t =>
      { t with rows := { t.rows with slots := [(1, slot3 .staging)] } }
    a.nextStaging 0 = some (1, slot3 .queued) ∧ (slot3 .queued).order < 2 ^ 64 ∧
      (slot3 .queued).phase = .queued ∧ a.paused 1 (pTable prefetch3) = false ∧ (slot3 .staging).releasing = false ∧
      mapGet (b.team 0).rows.slots 1 = some (slot3 .staging) ∧ b.table 1 (pTable prefetch3) = some table3 := by decide +kernel
theorem case_EngineEvents_deadline :
    let r := prefetch3.set 0x20 5
    (slot3 .queued).late = false ∧ (slot3 .queued).phase ≠ .staged ∧ pDeadline r = 5 ∧
      5 ≤ ({ up with postmark := 5 } : State).postmark.toNat ∧ ({ up with postmark := 5 } : State).inTurn 6 = true := by
  decide +kernel
theorem case_EngineEvents_update :
    let k : UpdConsts := ⟨0, 0, 0, 1⟩
    let s := up.modTeam 0 fun t => { t with upd := { t.upd with queue := [{ upd1 with begun := some k }] } }
    (s.team 0).upd.queue = { upd1 with begun := some k } :: [] ∧ k.reason ≠ 0 ∧
      (match up.beginState upd1 with | .go _ => true | _ => false) = true ∧
      (match up.beginState { upd1 with barrier := 1 } with | .wait => true | _ => false) = true ∧
      up.launchOf upd1 = none := by decide +kernel
/-- A request of step 4 at a barrier whose last release is that of step 5. -/
theorem case_EngineEvents_late :
    let s := { at_ ⟨0, ar 0 .none .none .none⟩ with
      hub := [(9, { ({ owner := 1, barrier := true } : HubObj) with expected := 1, released := some ⟨5, 0, 0⟩ })] }
    (match s.beginState { upd1 with barrier := 0xFFFF03000009, step := 4 } with | .late => true | _ => false) = true := by
  decide +kernel
theorem case_EngineEvents_norm :
    let u : NormReq := ⟨⟨0x382, ar 0 (.sreg 3) (.sreg 1) .none⟩, 0, 1, 0, List.replicate 64 0, 0⟩
    let s := up.modTeam 0 fun t =>
      { (t.modCore 0 fun k => { k with awaited := [⟨.sreg 3, [], 1, false, .ue, none⟩] }) with
        upd := { t.upd with norms := [u] } }
    (s.team 0).upd.norms = u :: [] ∧ (s.core 0 0).awaited = [⟨.sreg 3, [], 1, false, .ue, none⟩] := by decide +kernel
theorem case_EngineEvents_placement :
    let c : PlaceChoice := ⟨[(3, 2)], [(3, 1)]⟩
    let s0 := at_ ⟨0, ar 0 .none .none .none⟩
    let wide : Table := { table3 with cols := 0x80000 }
    let s := ({ s0 with ctxs := s0.ctxs.map fun (x : Nat × Ctx) => (x.1, { x.2 with tables := [(3, wide)] }) }).modTeam 0
      fun t => { t with rows := { t.rows with
        inWindow := 65536, hot := [⟨3, 1, []⟩], lookups := [(rowKey 3 2, 100)], ahead := [] } }
    2 ^ s.regs.windowLog2 ≤ (s.team 0).rows.inWindow ∧ s.regs.placeOn = true ∧ (s.team 0).rows.migration = none ∧
      (s.team 0).rows.ahead = [] ∧ s.placeOk 0 c = true ∧ s.placeOk 0 ⟨[], [(3, 1)]⟩ = false := by decide +kernel
theorem case_EngineEvents_migration :
    let m : Migration := ⟨3, 1, true, true, [[1]]⟩
    let s := (busy (at_ ⟨0, ar 0 .none .none .none⟩)).modTeam 0 fun t => { t with rows := { t.rows with migration := some m } }
    (s.team 0).rows.migration = some m ∧ m.copying = true ∧ ({ m with copying := false } : Migration).copying = false ∧
      s.table (s.ownerOf 0) m.table = some table3 ∧ m.queue.getLast? = some [1] := by decide +kernel

/-! ### A case for the hypotheses of each statement: sync units, barriers, collectives, frames -/

/-- A handle: of counter `i` of team 0's unit, or of a hub object by kind and postcode (R352). -/
def hLocal (i : Nat) : W64 := BitVec.ofNat 64 (i + 0xFFFF * 2 ^ 32)
def hAt (barrier : Bool) (i : Nat) (pc : Nat := 0xFFFF) : W64 :=
  BitVec.ofNat 64 (i + 2 ^ 24 + (if barrier then 2 ^ 25 else 0) + pc * 2 ^ 32)

/-- A sync instruction with its handle in s1 and its number in s2, at team 0 of a fabric module. -/
def xSync : Args := ar 0 (.sreg 3) (.sreg 1) (.sreg 2) 0 1
def sy (code : Nat) (h : W64) (n : W64) (s : State := up) : State :=
  fab (at_ ⟨code, xSync⟩ { core2 with s := [(1, h), (2, n)] } s)
/-- The same over a hub that holds a counter and a barrier of context 1. -/
def hub1 (s : State) : State :=
  { s with hub := [(4, { ({ owner := 1, barrier := false } : HubObj) with value := 5 }),
                   (9, { ({ owner := 1, barrier := true } : HubObj) with expected := 2 })] }

/-- Where no unit has a waiting registration, none is admitted. -/
theorem noneAdmitted_of {s : State} (u : SyncUnit) (hub : s.hubWaiting = []) (teams : ∀ k ∈ s.teams, k.2.waiting = []) :
    noneAdmitted s u := by
  have all_ : ∀ v, s.waitingOf v = [] := fun
    | .hub => hub
    | .cluster t => forall_mapGetD (p := fun x : Team => x.waiting = []) s.teams Team.reset t teams rfl
  exact ⟨all_ u, fun v _ => Or.inl (all_ v)⟩

theorem case_SyncObjectRows_quiet : noneAdmitted (sy 0x3C0 (hLocal 1023) 2147483647) (.cluster 0) ∧
    noneAdmitted (sy 0x3C2 (hAt true 0) 65535) .hub ∧ noneAdmitted (hub1 (sy 0x3C1 (hAt false 4) 6)) .hub := by
  refine ⟨noneAdmitted_of _ ?_ ?_, noneAdmitted_of _ ?_ ?_, noneAdmitted_of _ ?_ ?_⟩ <;> decide +kernel

theorem case_SyncObjectRows :
    let s := sy 0x3C0 (hLocal 1023) 2147483647
    (s.team 0).masked xSync.pred = [0] ∧ s.holderOf 0 = (1, s.ctx 1) ∧ s.canIssue 0 ⟨0x3C0, xSync⟩ = true ∧
      (match s.ctx 1 with
       | some cx => s.resolve 1 cx ((s.core 0 0).value xSync false xSync.a) false == .here (.cluster 0) 1023
       | none => false) = true ∧ s.waitingOf (.cluster 0) = [] ∧ (s.obj (.cluster 0) 1023).poisoned = false ∧
      ((s.core 0 0).value xSync false xSync.b).toInt = 2147483647 := by decide +kernel
theorem case_SyncObjectRows_range :
    let s := hub1 (sy 0x3C1 (hAt false 4) 6)
    let o := s.obj .hub 4
    s.canIssue 0 ⟨0x3C1, xSync⟩ = true ∧ o = ⟨5, false⟩ ∧ (5 : Int) + -6 < 0 ∧ 2147483647 < (5 : Int) + 2147483643 ∧
      (match s.ctx 1 with
       | some cx => s.resolve 1 cx (hAt false 4) false == .here .hub 4 && s.resolve 1 cx (hAt false 8) false == .bad
       | none => false) = true := by decide +kernel
theorem case_SyncObjectRows_poisoned :
    let s := (sy 0x3C8 (hLocal 1) 1).setObj (.cluster 0) 1 ⟨7, true⟩
    s.obj (.cluster 0) 1 = ⟨7, true⟩ ∧ s.canIssue 0 ⟨0x3C8, xSync⟩ = true ∧ (s.watchesOf (.cluster 0)).length < 1024 ∧
      (s.core 0 0).awaited = [] := by decide +kernel
theorem case_SyncObjectRows_init :
    let s := sy 0x3C2 (hAt true 0) 65535
    handleOk (hAt true 0) = true ∧ hHub (hAt true 0) = true ∧ hBarrier (hAt true 0) = true ∧ hPostcode (hAt true 0) = 0xFFFF ∧
      initInRange true 65535 = true ∧ initInRange true 65536 = false ∧ initInRange false 2147483647 = true ∧
      s.canIssue 0 ⟨0x3C2, xSync⟩ = true ∧ mapGet s.hub 0 = none ∧ 0 / 16384 ∈ partDies ctx1.partition ∧
      s.initWaits 0 0 (hAt true 0) = false ∧ s.fabric.arriving = [] := by decide +kernel
theorem case_SyncObjectRows_watch :
    ([(0x3C8, WatchKind.ge), (0x3C9, .eq), (0x3CA, .claim)].all fun r =>
      (sy r.1 (hLocal 0) 3).canIssue 0 ⟨r.1, xSync⟩ && decide (r.2.least ≤ 3)) = true ∧
      (⟨0, .ge, 3, 1, .core 0 0 1⟩ : Watch).met 3 = true ∧ (⟨0, .eq, 3, 1, .core 0 0 1⟩ : Watch).met 4 = false := by
  decide +kernel
theorem case_SyncObjectRows_fence :
    let s := sy 0x3D1 0 0
    let b := s.modCore 0 0 fun k => { k with tileQueue := [1] }
    s.canIssue 0 ⟨0x3D1, xSync⟩ = true ∧ (s.core 0 0).awaited = [] ∧ (s.core 0 0).tileQueue = [] ∧
      b.canIssue 0 ⟨0x3D1, xSync⟩ = true ∧ (b.core 0 0).tileQueue ≠ [] := by decide +kernel

/-- An arrival of this module's role 7 for step `n`, and a release. -/
def arr7 (n : W64) (check : W32 := 1) : Arrival := ⟨7, 1, 0, 0, .core 0 0 3, 1, n, 0x3F800000, 8, check⟩
def rel7 : Release := ⟨1, 0x3F800000, 8⟩
/-- A hub whose barrier 9 is as `o` says, with one arrival on its way. -/
def hub9 (o : HubObj) (a : List (Nat × Arrival) := [(9, arr7 1)]) : State :=
  State.modFabric { fab (at_ ⟨0x3D8, xSync⟩ core2) with hub := [(9, o)] } fun f => { f with arriving := a }
/-- A barrier that expects `e` arrivals. -/
def bar (e : Nat) : HubObj := { ({ owner := 1, barrier := true } : HubObj) with expected := e }

/-- A SYNC.INIT behind an arrival of its own core that still waits for updates. -/
theorem case_SyncObjectRows_held :
    let s := (sy 0x3C2 (hAt true 9) 1).modFabric fun f => { f with
      remote := [⟨5, 7, 0xFFFF, 0, 0, 1, 1, .arrive 3 9 (arr7 1) true⟩] }
    s.canIssue 0 ⟨0x3C2, xSync⟩ = true ∧ s.initWaits 0 0 (hAt true 9) = true ∧ s.initWaits 0 0 (hAt true 8) = false := by
  decide +kernel

theorem case_CommitBarrier_arrive :
    let s := hub1 (sy 0x3D8 (hAt true 9) 0x100)
    (s.team 0).masked xSync.pred = [0] ∧ s.holderOf 0 = (1, s.ctx 1) ∧ s.canIssue 0 ⟨0x3D8, xSync⟩ = true ∧
      (s.bumpFree.arrivalRecord 0 0 0x100).isSome = true ∧ s.bumpFree.arrivalRecord 0 0 0x101 = none ∧
      s.mirroring 1 = false ∧ s.mirrorsAhead 1 = false ∧ s.lost 9 = false ∧ (s.route 9).isSome = true ∧
      (s.modFabric fun f => { f with remote := [⟨6, 7, 9, 0, 0, 1, 1, .mirror 1 3 9⟩] }).mirroring 1 = true ∧
      (match s.ctx 1 with
       | some cx => s.resolve 1 cx (hAt true 9) true == .here .hub 9 && s.resolve 1 cx (hAt true 9 9) true == .away 9 (hAt true 9 9)
       | none => false) = true := by decide +kernel
theorem case_CommitBarrier_tally :
    let o := bar 1
    let s := hub9 o
    s.fabric.arriving.find? (fun x => x.1 == 9) = some (9, arr7 1) ∧ mapGet s.hub 9 = some o ∧ o.relay = none ∧
      o.barrier = true ∧ o.poisoned = false ∧ s.hubWaiting = [] ∧ ((s.team 0).kernel.isSome) = true ∧
      o.needed ≤ [arr7 1].length ∧ agree [arr7 1] = true ∧ [arr7 1].length < (bar 2).needed ∧
      agree [arr7 1, arr7 1 2] = false ∧ agree [arr7 1, arr7 2] = false := by decide +kernel
theorem case_CommitBarrier_release :
    let p : Placed := ⟨rel7, 0, [arr7 1]⟩
    let o : HubObj := { bar 1 with placed := [p] }
    let s := hub9 o
    mapGet s.hub 9 = some o ∧ o.placed.filter (fun p => decide (p.at_.toNat ≤ s.postmark.toNat)) = [p] ∧
      s.fabric.releases = [] ∧ s.time.active = none ∧ s.inTurn 4 = true := by decide +kernel
theorem case_CommitBarrier_lead :
    let c : Schedule := ⟨1, 8, 64, 0, [], []⟩
    let s := { up with postmark := 100, time := { up.time with active := some c } }
    s.time.active = some c ∧ c.start.toNat ≤ s.postmark.toNat ∧ s.postmark.toNat < 2 ^ 63 := by decide +kernel
theorem case_CommitBarrier_incoming :
    let x : Incoming := ⟨⟨0, 7, 9, 0, 0, 1, 1, .arrive 3 9 (arr7 1) false⟩, 9, 3, rel7, 0⟩
    let s := up.modFabric fun f => { f with releases := [x] }
    mapGet s.hub 9 = none ∧ s.fabric.releases.filter (fun x => x.index == 9 && decide (x.at_.toNat ≤ s.postmark.toNat)) = [x] ∧
      s.inTurn 4 = true := by decide +kernel
theorem case_CommitBarrier_relay :
    let o : HubObj := { bar 2 with relay := some 5, relayed := [rel7], tally := [arr7 1] }
    let s := hub9 o
    mapGet s.hub 9 = some o ∧ o.relay = some 5 ∧ s.postmark.toNat < (5 : W64).toNat ∧
      (5 : W64).toNat ≤ ({ s with postmark := 5 } : State).postmark.toNat ∧ o.adopted = some rel7 ∧
      ({ o with relayed := [] } : HubObj).adopted = none := by decide +kernel
theorem case_CommitBarrier_answer :
    let s := (hub9 (bar 1)).modCore 0 0 fun k => { k with awaited := [⟨.sreg 3, [], 3, true, .sy, none⟩] }
    (s.core 0 0).awaited = [⟨.sreg 3, [], 3, true, .sy, none⟩] ∧ (s.team 0).awaits 0 3 = true := by decide +kernel

/-- A descriptor of an all-reduce of 2 INT32 elements among roles 7 and 9, by sums. -/
def desc1 : List Byte :=
  bytesAt ([0x13, 0, 0, 2, 0, 0, 0, 0] ++ leBytes 8 2 ++ leBytes 8 0x1000 ++ leBytes 8 0x2000 ++ leBytes 4 7) 0 64 ++
    bytesAt (leBytes 2 7 ++ leBytes 2 9) 0 128 ++ List.replicate 64 0
/-- The collective of role 7, number 0, with that descriptor. -/
def coll1 (run : Bool) : Coll :=
  { role := 7, number := 0, team := 0, core := 0, ctx := 1, seq := 1, tag := 3, word := ⟨0x3E2, xSync⟩, desc := desc1
    running := run }

theorem case_Collectives_issue :
    let s := fab ((at_ ⟨0x3E2, xSync⟩ { core2 with s := [(1, 0x200)] }).modTeam 0 fun t =>
      { t with cluster := memWrite [] 0x200 desc1 })
    (s.team 0).masked xSync.pred = [0] ∧ s.holderOf 0 = (1, s.ctx 1) ∧ s.role (s.postcodeOf 1) = some ⟨1, 0xFFFFFFFF, 1, 0, false⟩ ∧
      s.canIssue 0 ⟨0x3E2, xSync⟩ = true ∧ s.fabric.colls = [] ∧ 0x200 + 256 ≤ s.clusterBytes 0 ∧
      memRead (s.bumpFree.view ⟨0, some 0, .sy, none⟩ (.cluster 0)) 0x200 256 = desc1 ∧
      (match s.ctx 1 with | some cx => s.collOk (coll1 false) cx && !s.collOk { coll1 false with desc := [] } cx
                          | none => false) = true := by decide +kernel
theorem case_Collectives_reduce :
    let y : Coll := { coll1 true with
      hello := [(0, (8, false)), (1, (8, false))]
      stage1 := [(0, [(0, leBytes 4 1)]), (1, [(0, leBytes 4 2)])] }
    let s := (fab (at_ ⟨0, xSync⟩)).modFabric fun f => { f with colls := [y] }
    s.collOf 7 0 = some y ∧ y.isRed = true ∧ y.heard = true ∧ y.contributors = [0, 1] ∧ s.unfenced = [] ∧
      (y.contributors.all fun r => gotAll y.stage1 (y.indexOf r) (y.len1 y.me)) = true ∧ 0 < y.shardLen y.me ∧
      y.running = true ∧ y.reduced = false ∧ y.status = 0 := by
  decide +kernel
theorem case_Collectives_complete :
    let y : Coll := { coll1 true with status := 0x0201, old := [(0x2000, 5)] }
    let s := (fab (at_ ⟨0, xSync⟩)).modFabric fun f => { f with colls := [y] }
    let w := (fab (at_ ⟨0, xSync⟩)).modFabric fun f => { f with colls := [coll1 true] }
    s.collOf 7 0 = some y ∧ s.collReady y = true ∧ w.collReady (coll1 true) = false ∧ s.fabric.early = [] ∧
      (s.fabric.colls.all fun z => z.is 7 0) = true := by decide +kernel

/-- A frame from role 9 to role 7. -/
def frm (kind : Byte) (payload : List Byte := []) (cls : Byte := 1) (seq : W32 := 5) : Frame :=
  ⟨7, 1, 9, 1, cls, 0, kind, 0, 0, seq, 1, 0, payload⟩
/-- A module that holds role 7, with the flow from role 9 as `x` says. -/
def inFlow (x : FlowIn) : State :=
  (fab (at_ ⟨0, xSync⟩)).modFabric fun f => { f with flows := [(flowKey 9 1 7 1, x)] }

theorem case_FramesInFlows :
    let s := inFlow ⟨some 5, []⟩
    (s.port 0).state = .up ∧ s.role 7 = some ⟨1, 0xFFFFFFFF, 1, 0, false⟩ ∧ (frm 1).flags.getLsbD 0 = false ∧ s.power.state ≠ .sleep ∧
      s.flow (flowKey 9 1 7 1) = ⟨some 5, []⟩ ∧ maskAllows 0xFFFFFFFF 0 = true ∧ maskAllows 0xFFFFFFFE 0 = false ∧
      (frm 1).srcPostcode ≠ 0xFFFF ∧ ((6 : W32) - (frm 1).flowSeq).toNat ≤ 65536 ∧
      65536 < ((4 : W32) - (frm 1).flowSeq).toNat ∧ s.reachable 9 = true ∧ s.lost 9 = false := by decide +kernel
theorem case_FramesInFlows_rows :
    let s := (inFlow ⟨some 5, []⟩).modFabric fun f =>
      { f with remote := [⟨5, 7, 9, 0, 0, 1, 1, .write 3⟩, ⟨6, 7, 9, 0, 0, 1, 1, .mirror 1 3 9⟩] }
    let wr := frm 2 (leBytes 4 5)
    let mr := frm 2 (leBytes 4 6)
    (s.answers wr isWrite && s.answers mr isMirror && !s.answers (frm 2 (leBytes 4 7)) fun w => isMirror w || isWrite w) = true ∧
      (frm 9 [] 2).cls = 2 ∧ (frm 9 [] 3).cls = 3 := by decide +kernel
theorem case_FramesInFlows_epochs :
    let s := inFlow ⟨none, []⟩
    let old := { frm 1 with destEpoch := 0 }
    let new := { frm 1 with destEpoch := 2 }
    old.destEpoch.toNat < (1 : W16).toNat ∧ (1 : W16).toNat < new.destEpoch.toNat ∧ s.role 7 = some ⟨1, 0xFFFFFFFF, 1, 0, false⟩ ∧
      ({ s with power := { s.power with state := .sleep } } : State).power.state = .sleep := by decide +kernel
theorem case_FramesInFlows_forward :
    let s := fab (at_ ⟨0, xSync⟩)
    let f := { frm 3 with destPostcode := 9, srcPostcode := 11 }
    s.role 9 = none ∧ (s.route 9).isSome = true ∧ f.hops.toNat < 15 ∧ ({ f with hops := 15 } : Frame).hops.toNat = 15 ∧
      s.role 12 = none ∧ s.route 12 = none ∧ (s.port 0).state = .up := by decide +kernel
theorem case_FramesInFlows_returned :
    let s := fab (at_ ⟨0, xSync⟩)
    let f := { frm 1 with flags := 1 }
    f.flags.getLsbD 0 = true ∧ s.role f.destPostcode = some ⟨1, 0xFFFFFFFF, 1, 0, false⟩ ∧ (1 : W16) = f.destEpoch ∧
      (1 : W16) ≠ ({ f with destEpoch := 2 } : Frame).destEpoch := by decide +kernel
theorem case_FramesInFlows_break :
    let h : HeldFrame := ⟨0, 0, frm 1 [] 1 7⟩
    let s := { inFlow ⟨some 5, [h]⟩ with postmark := 1000000 }
    s.fabric.flows.filter (fun y => y.1 / 2 ^ 48 == 9 && y.1 / 2 ^ 16 % 2 ^ 16 == 7 &&
      y.2.held.any fun h => decide (h.at_.toNat + 1000000 ≤ s.postmark.toNat)) = [(flowKey 9 1 7 1, ⟨some 5, [h]⟩)] := by
  decide +kernel

theorem case_FrameEffects_ops :
    let s := hub1 (inFlow ⟨none, []⟩)
    let h := hAt false 4 7
    let f := frm 1 (leBytes 1 0 ++ leBytes 8 h.toNat ++ leBytes 8 1)
    (s.route f.srcPostcode).isSome = true ∧ fieldAt f.payload 1 8 = h.toNat ∧ handleOk h = true ∧ hHub h = true ∧
      s.hubUsable (hIndex h) 1 (hBarrier h) = true ∧ (s.signal .hub 4 1).2 = none ∧ (s.signal .hub 4 (-6)).2 = some .syncUnderflow ∧
      (s.signal .hub 4 2147483643).2 = some .syncOverflow ∧ s.hubUsable 9 1 true = true ∧
      ((s.setObj .hub 4 ⟨5, true⟩).signal .hub 4 1).2 = some .ownerLost := by decide +kernel
theorem case_FrameEffects_kinds : WatchKind.ge.op = 3 ∧ WatchKind.eq.op = 4 ∧ WatchKind.claim.op = 5 := by decide +kernel
/-- A withdrawal, and a read that copies up to step 5 while an update of step 1 is queued. -/
theorem case_FrameEffects_withdrawal :
    let s := hub1 (inFlow ⟨none, []⟩)
    let f := frm 1 (leBytes 1 6 ++ leBytes 4 5)
    let g := frm 4 (leBytes 8 0 ++ leBytes 2 64 ++ leBytes 8 5)
    let w := s.modTeam 0 fun t => { t with upd := { t.upd with queue := [{ upd1 with step := 1 }] } }
    fieldAt f.payload 0 1 = 6 ∧ s.hubWaiting = [] ∧ copyStep g = some 5 ∧ copySnap g = none ∧ w.updatesDue 1 5 = true ∧
      (s.fabric.arriving.all fun y => !(y.1 == 9 && y.2.fromRole f.srcPostcode)) = true ∧
      copyStep (frm 4 (leBytes 8 0 ++ leBytes 2 64)) = none := by decide +kernel
theorem case_FrameEffects_quiet : noneAdmitted (hub1 (inFlow ⟨none, []⟩)) .hub := by
  refine noneAdmitted_of _ ?_ ?_ <;> decide +kernel
theorem case_FrameEffects_replies :
    let y : Remote := ⟨5, 7, 9, 0, 0, 1, 1, .arrive 3 9 (arr7 1) false⟩
    let s := (inFlow ⟨none, []⟩).modFabric fun f => { f with remote := [y] }
    let p := leBytes 4 5 ++ leBytes 1 16 ++ leBytes 8 0 ++ leBytes 8 1 ++ leBytes 8 10
    s.remoteOf 7 9 (BitVec.ofNat 32 (fieldAt p 0 4)) = some y ∧ fieldAt p 4 1 = 16 ∧ s.postmark.toNat < fieldAt p 21 8 ∧
      fieldAt p 21 8 = ({ s with postmark := 10 } : State).postmark.toNat ∧ ({ s with postmark := 10 } : State).inTurn 4 = true ∧
      fieldAt p 21 8 < ({ s with postmark := 11 } : State).postmark.toNat ∧ s.fabric.lastRel = [] := by decide +kernel
/-- A SYNC.INIT or SIGNAL of this module at another, with result code 0. -/
theorem case_FrameEffects_signal :
    let y : Remote := ⟨5, 7, 9, 0, 0, 1, 1, .signal 3 4 false⟩
    let s := (inFlow ⟨none, []⟩).modFabric fun f => { f with remote := [y] }
    s.remoteOf 7 9 (BitVec.ofNat 32 (fieldAt (leBytes 4 5 ++ leBytes 1 0) 0 4)) = some y ∧
      fieldAt (leBytes 4 5 ++ leBytes 1 0) 4 1 = 0 := by decide +kernel
theorem case_FrameEffects_writes :
    let s := inFlow ⟨none, []⟩
    let p := leBytes 1 0 ++ leBytes 4 0 ++ leBytes 8 0x100 ++ [1, 2]
    (s.ctx 1).isSome = true ∧ s.unfenced = [] ∧ fieldAt p 5 8 = 0x100 ∧ p.drop 13 = [1, 2] := by decide +kernel
theorem case_FrameEffects_mirror :
    let s0 := inFlow ⟨none, []⟩
    let s := { s0 with ctxs := s0.ctxs.map fun (x : Nat × Ctx) => (x.1, { x.2 with tables := [(3 + mirrorBit, table3)] }) }
    s.table 1 (3 + mirrorBit) = some table3 ∧ 99 < table3.rows ∧ 0 + 8 ≤ table3.slice := by decide +kernel

/-- A schedule of 8 slots whose entry 0 sends channel 1 out of port 0 in slot 0, and entry 1 forwards it from port 0. -/
def sched1 : Schedule := ⟨1, 8, 0, 0, [⟨1, 7, 9⟩], [⟨0, true, 0, 0, 1⟩, ⟨1, false, 1, 0, 0⟩]⟩
/-- A mailbag of role 9's channel 1 for role 7, with CHAN_SEQ n. -/
def bag (n : W32) (dest : W16 := 7) : Mailbag := ⟨dest, 1, 9, 1, 1, 1, 1, n, 0, 0, 0, [1, 2]⟩
def inSched (k : Chan := { }) : State :=
  State.modFabric { fab (at_ ⟨0, xSync⟩) with time := { up.time with active := some sched1 } } fun f => { f with chans := [(1, k)] }

theorem case_Mailbags_send :
    let b : Mailbag := { bag 0 9 with originPostcode := 7 }
    let s := inSched { queue := [b] }
    s.time.active = some sched1 ∧ sched1.entries[0]? = some ⟨0, true, 0, 0, 1⟩ ∧ sched1.slotNow s.postmark 0 = true ∧
      s.fabric.retained.length < 2048 ∧ mapGet s.fabric.chans 1 = some { queue := b :: [] } ∧ s.slotUsed 0 = false ∧ s.awaitsEarlier b = false ∧
      s.inTurn 5 = true ∧ s.portCarries 0 = true ∧ maskAllows (s.maskOf b.originPostcode) 0 = true ∧
      s.portBusy 0 = false ∧ (inSched.modFabric fun f => { f with busy := [(0, 64)] }).portBusy 0 = true := by decide +kernel
theorem case_Mailbags_full :
    let r : Retained := ⟨bag 0, 0, none⟩
    2048 ≤ (inSched.modFabric fun f => { f with retained := List.replicate 2048 r }).fabric.retained.length := by
  intro r
  exact Nat.le_of_eq (List.length_replicate (n := 2048) (a := r)).symm
theorem case_Mailbags_used :
    (inSched.modFabric fun f => { f with slots := [(0, inSched.postmark)] }).slotUsed 0 = true := by decide +kernel
theorem case_Mailbags_arrive :
    let s := inSched
    (s.port 0).state = .up ∧ s.role (bag 0).destPostcode = some ⟨1, 0xFFFFFFFF, 1, 0, false⟩ ∧ (bag 0).chanSeq = (s.chanIn (bag 0)).next ∧
      2 ^ 31 ≤ ((bag 0xFFFFFFFF).chanSeq - (s.chanIn (bag 0)).next).toNat ∧
      ((bag 1).chanSeq - (s.chanIn (bag 0)).next).toNat < 2 ^ 31 ∧ (s.chanIn (bag 1)).early = [] := by decide +kernel
theorem case_Mailbags_forward :
    let s := inSched.modFabric fun f => { f with ports := [(0, { ({ } : Port) with state := .up }), (1, { ({ } : Port) with state := .up })] }
    let m := bag 0 11
    let w := s.modFabric fun f => { f with ports := [(0, { ({ } : Port) with state := .up, peerVersion := some 2 })] }
    s.role 11 = none ∧ sched1.forwardOf 0 m = some ⟨1, false, 1, 0, 0⟩ ∧ s.portCarries 1 = true ∧ s.portBusy 1 = false ∧
      s.versionsAgree 0 = true ∧ w.versionsAgree 0 = false ∧
      sched1.forwardOf 0 { m with version := 2 } = none := by decide +kernel
theorem case_Mailbags_divert :
    let m := { bag 0 9 with originPostcode := 7 }
    (inSched.role m.originPostcode).isSome = true ∧ inSched.portFor m.originPostcode m.destPostcode = some 0 := by decide +kernel
theorem case_Mailbags_resend :
    let r : Retained := ⟨bag 3, 0, some 0⟩
    let s := inSched.modFabric fun f => { f with retained := [r] }
    s.fabric.retained.filter (fun r => r.bag.channel == 1 && r.bag.chanSeq == 3) = [r] ∧
      s.postmark.toNat < r.sent.toNat + 4 * s.roundNs ∧
      r.sent.toNat + 4 * s.roundNs ≤ ({ s with postmark := 0x10000 } : State).postmark.toNat := by decide +kernel

/-! ### A case for the hypotheses of each statement: time, contexts, roles, faults, power -/

/-- A module that follows on port 0, which is UP, with the state of its postmark unit. -/
def follows (st : TimeState) (role : Nat := 0) : State :=
  { fab up with time := { up.time with state := st, role := role } }

theorem case_TimeEvents_frames :
    (0 ∈ (follows .unposted).upPorts ∧ (follows .unposted).time.role ≠ 1 ∧ (follows .locked 1).time.role = 1 ∧
      (follows .locked 2).time.role = 2 ∧ (follows .locked 2).ownPostcode = 7 ∧ (follows .locked 2).time.acting = false) ∧
      ((follows .unposted).upPorts.all fun q => q == 0) = true ∧ ((follows .unposted).port 0).peerHops = none ∧
      within 3 98304 = true ∧ within 3 98305 = false ∧
      within 3 (-98304) = true ∧ within 50 1638400 = true ∧ within 50 1638401 = false ∧
      [TimeState.locked, .holdover, .slewing].map (fun st => (follows st).time.state) = [.locked, .holdover, .slewing] := by
  decide +kernel
/-- A frame of a follower of nobody, one of this module's own master, and one that names a higher postcode to a module that
has taken over. -/
theorem case_TimeEvents_own :
    let none_ : TimeFrame := ⟨0, 0xFFFF, 0, 0, 0, false⟩
    let s := { follows .locked 2 with time := { (follows .locked 2).time with acting := true } }
    none_.masterPostcode = 0xFFFF ∧ none_.primary = false ∧ (7 : W16) = s.ownPostcode ∧ s.time.acting = true ∧
      s.ownPostcode.toNat < (9 : W16).toNat ∧ s.time.role = 2 := by decide +kernel
theorem case_TimeEvents_losses :
    (follows .locked 0).time.badFrames < 3 ∧ (follows .locked 3).time.role = 3 ∧ (follows .locked 1).time.role = 1 ∧
      (follows .unposted).power.boot = .running ∧
      ({ up with power := { up.power with boot := .starting, bootStep := 6 } } : State).power.bootStep = 6 ∧
      (7, ⟨1, 0xFFFFFFFF, 1, 0, false⟩) ∈ (follows .unposted).fabric.roles ∧ maskAllows 0xFFFFFFFF 0 = true := by decide +kernel
theorem case_TimeEvents_reference :
    let s := { up with time := { up.time with role := 1, source := 1, state := .unposted, edges := 1, everLocked := false } }
    s.time.role = 1 ∧ s.time.source = 1 ∧ s.power.boot ≠ .noSupply ∧ s.time.state = .unposted ∧ s.linksTrained = true ∧
      2 ≤ s.time.edges + 1 ∧
      ({ s with power := { s.power with boot := .starting, bootStep := 5 } } : State).linksTrained = false ∧
      within 3 ({ s with time := { s.time with second := 0, state := .slewing, everLocked := true } } : State).edgeOffset = true ∧
      within 3 ({ s with time := { s.time with second := 1, state := .slewing, everLocked := true } } : State).edgeOffset = false ∧
      up.time.source ≠ 1 ∧ ({ s with time := { s.time with role := 2 } } : State).time.role ≠ 1 := by
  decide +kernel
theorem case_TimeEvents_round :
    let c : Schedule := ⟨1, 8, 64, 0, [], []⟩
    let s := { up with postmark := 576, time := { up.time with active := some c } }
    s.time.active = some c ∧ c.start.toNat ≤ s.postmark.toNat ∧ (s.postmark.toNat - c.start.toNat) % c.roundNs = 0 ∧
      s.time.round ≠ (s.postmark.toNat - c.start.toNat) / c.roundNs + 1 := by decide +kernel

/-- A started command of a context, which is its only one. -/
def cmd1 (opcode : W16) (at_ : W64 := 0) : Cmd :=
  { seq := 2, opcode := opcode, pkt := pk 1 2 0 [], target := some 1, acceptedAt := 0, startedAt := at_, phase := .started
    schedule := none, blocks := 0, deferred := false, replayed := false, skip := [] }
def withCmd (opcode : W16) (s : State) (at_ : W64 := 0) : State :=
  { s with cmds := [(1, { h := 2, ledger := [], cmds := [cmd1 opcode at_] })] }

theorem case_TimeEvents_schedule :
    let c : Schedule := ⟨1, 8, 64, 0, [], []⟩
    let s := withCmd 0x60 { up with time := { up.time with pending := some (c, ⟨1, 2⟩) } }
    s.time.pending = some (c, ⟨1, 2⟩) ∧ s.cmd 1 2 = some (cmd1 0x60) ∧ (cmd1 0x60).startedAt.toNat ≤ c.start.toNat ∧
      s.postmark.toNat < c.start.toNat ∧ c.start.toNat ≤ ({ s with postmark := 64 } : State).postmark.toNat ∧
      c.start.toNat < (cmd1 0x60 65).startedAt.toNat := by decide +kernel
theorem case_TimeEvents_hour :
    let s := { posted with postmark := 3600000000000 }
    s.time.everLocked = true ∧ s.postmark.toNat % 3600000000000 = 0 ∧ (s.fn 0).frank.start ≠ s.postmark.toNat ∧
      s.power.boot ≠ .noSupply ∧ s.powered = true := by decide +kernel

/-- Context 1 as `f` changes it. -/
def moved (f : Ctx → Ctx) (s : State := up) : State := { s with ctxs := [(1, f ctx1)] }

theorem case_ContextMoves_preempt :
    let p : Preempting := ⟨⟨1, 2⟩, 0, 5, none, 0⟩
    let s := moved fun x => { x with preempting := some p }
    let f := { moved (fun x => { x with preempting := some p, span := 1 }) with postmark := 5000 }
    s.ctx 1 = some { ctx1 with preempting := some p } ∧ p.stoppedAt = none ∧ p.at_.toNat ≤ s.postmark.toNat ∧
      ctx1.snapping = none ∧ ctx1.running = true ∧ ctx1.span ≠ 1 ∧ s.inTurn 3 = true ∧ s.cmd 1 2 = none ∧
      s.postmark.toNat < p.at_.toNat + 1000 * p.timeoutUs ∧ p.at_.toNat + 1000 * p.timeoutUs ≤ f.postmark.toNat ∧
      f.quiescent 1 { ctx1 with preempting := some p, span := 1 } = true := by decide +kernel
/-- A fabric context whose pre-emption finds no quiescent point: a watch of its is registered at another module. -/
theorem case_ContextMoves_late :
    let p : Preempting := ⟨⟨1, 2⟩, 0, 5, none, 0⟩
    let s0 := moved (fun x => { x with preempting := some p, span := 1 }) (at_ ⟨0, ar 0 .none .none .none⟩ core2)
    let s := { s0 with
      postmark := 5000
      fabric := { s0.fabric with remote := [⟨5, 7, 9, 0, 0, 1, 1, .watch 3 9⟩] } }
    s.quiescent 1 { ctx1 with preempting := some p, span := 1 } = false ∧ s.cmd 1 2 = none ∧
      p.at_.toNat + 1000 * p.timeoutUs ≤ s.postmark.toNat := by decide +kernel
theorem case_ContextMoves_save :
    let p : Preempting := ⟨⟨1, 2⟩, 0, 5, some 0, 0⟩
    let s := moved fun x => { x with preempting := some p, issueHeld := true }
    p.stoppedAt ≠ none ∧ (ctx1.teams.all fun t => (s.team t).quiet && (s.team t).upd.queue.isEmpty) = true ∧
      ctx1.tables = [] ∧ 1 ∉ s.journal.replaying ∧
      s.ctxs = [(1, { ctx1 with preempting := some p, issueHeld := true })] := by decide +kernel
theorem case_ContextMoves_save_quiet :
    noneAdmitted (moved fun x => { x with preempting := some ⟨⟨1, 2⟩, 0, 5, some 0, 0⟩, issueHeld := true }) .hub := by
  refine noneAdmitted_of _ ?_ ?_ <;> decide +kernel
theorem case_ContextMoves_resume :
    let r : Resuming := ⟨⟨1, 2⟩, 5⟩
    let s := moved fun x => { x with resuming := some r, running := false, saved := [(0, Team.reset)] }
    s.postmark.toNat < r.at_.toNat ∧ r.at_.toNat ≤ ({ s with postmark := 5 } : State).postmark.toNat ∧
      (ctx1.teams.all fun t => s.teamFree t && s.teamServes t) = true ∧
      ([(0, Team.reset)] : SMap Team).Pairwise (fun a b => a.1 < b.1) := by decide +kernel
theorem case_ContextMoves_snapshot :
    let p : Snapping := ⟨⟨1, 2⟩, 0, 0x2000000, 7, none, []⟩
    let s := withCmd 0x31 (moved fun x => { x with snapping := some p })
    p.startedAt = none ∧ ctx1.running = true ∧ s.snapTime p.at_ = true ∧ s.inTurn 2 = true ∧ s.cmd 1 2 = some (cmd1 0x31) ∧
      ({ p with startedAt := some 0 } : Snapping).startedAt = some 0 ∧ s.unfenced = [] ∧ s.snapTime 1 = false := by decide +kernel
/-- The image of that context fits the usable bytes of its region from DEST on. -/
theorem case_ContextMoves_image :
    let p : Snapping := ⟨⟨1, 2⟩, 0, 0x2000000, 7, some 0, []⟩
    let s := withCmd 0x31 (moved fun x => { x with snapping := some p })
    let x := { ctx1 with snapping := some p }
    let img := s.snapImage x p.id 0 (memRead s.stack (x.listAt + 8) 24) (s.snapBody x (onChipSize x.teams.length))
    x.regionBase.toNat ≤ p.dest ∧
      ∀ i, i < img.length → s.offsetUsable x (p.dest - x.regionBase.toNat + i) = true := by
  intro p s x img
  have size : img.length ≤ 0x4100000 := by
    have chip : onChipSize x.teams.length ≤ 0x3800000 := by
      rw [show x.teams.length = 1 from by decide +kernel]; exact Nat.min_le_right _ _
    have none_ : s.listRanges x = [] := by decide +kernel
    have le_ : ∀ n v, (leBytes n v).length = n := fun n => by
      induction n with
      | zero => intro _; rfl
      | succ n ih => intro v; simp [leBytes, ih]
    simp only [img, State.snapImage, State.snapBody, none_, snapHeader, onChipBytes, memRead, bytesAt, List.length_append,
      List.length_map, List.length_range, List.flatMap_nil, List.length_nil, le_]
    omega
  have pool : s.pool = up.pool := rfl
  refine ⟨Nat.zero_le _, fun i h => ?_⟩
  have low : ∀ d, d ∈ List.range 4 → 0x6100000 < (reservedRange s.pool d).1 := by rw [pool]; decide +kernel
  have base : x.regionBase.toNat = 0 := rfl
  have dest : p.dest = 0x2000000 := rfl
  have room : x.regionSize.toNat = 0x40000000 := rfl
  have far : ∀ a, a ≤ 0x6100000 → s.reserved a = false := fun a ha => by
    simp only [State.reserved, List.any_eq_false, Bool.and_eq_true, decide_eq_true_eq, not_and]
    exact fun d hd le => absurd (low d hd) (by omega)
  simp only [State.offsetUsable, base, dest, room, Bool.and_eq_true, decide_eq_true_eq, Bool.not_eq_true']
  exact ⟨by omega, far _ (by omega)⟩
theorem case_ContextMoves_flip :
    let r : Replacing := ⟨⟨1, 2⟩, 0, 2, 0, none⟩
    let k := { table3 with replacing := some r, pending := some (0x20000, 1) }
    let s := moved fun x => { x with tables := [(3, k)] }
    mapGet ((s.ctx 1).getD ctx1).tables 3 = some k ∧ r.flipped = none ∧ s.stagingOn 1 3 = false ∧
      s.migratingOn ctx1 3 = false ∧ ctx1.running = true ∧ 1 ∉ s.journal.replaying ∧ k.pending = some (0x20000, 1) := by
  decide +kernel

/-- A fabric module with a spare context 2 that holds no role, armed for postcode 9. -/
def spare1 (lost : Bool) : State :=
  let s := fab (at_ ⟨0, ar 0 .none .none .none⟩ Core.reset posted)
  { s with
    ctxs := s.ctxs ++ [(2, { ctx1 with span := 1, modules := 2, teamMask := 2, running := true, launches := [] })]
    fabric := { s.fabric with routes := [(9, ⟨1, lost, false, [(0, 1)]⟩)] }
    faults := { s.faults with armed := [9] } }

theorem case_RolesAndTakeover_adverts :
    let s := spare1 false
    (s.port 0).state = .up ∧ s.role 7 = some ⟨1, 0xFFFFFFFF, 1, 0, false⟩ ∧ (0 : W16).toNat < (1 : W16).toNat ∧ s.role 12 = none ∧
      s.route 12 = none ∧ s.role 9 = none ∧ s.route 9 = some ⟨1, false, false, [(0, 1)]⟩ ∧
      ((⟨1, false, false, mapPut [(0, 1)] 0 1⟩ : Route).best fun q => (s.port q).state == .up).map Prod.fst = some 0 ∧
      s.portFor 7 9 = some 0 ∧ maskAllows 0xFFFFFFFF 0 = true ∧ maskAllows 2 0 = false := by decide +kernel
/-- A second port that is UP leads to another module than the one that an advertisement came from. -/
theorem case_RolesAndTakeover_onward :
    let s := (spare1 false).modFabric fun f => { f with
      ports := f.ports ++ [(1, { ({ } : Port) with state := .up, peerPostcode := 21 })] }
    s.upPorts = [0, 1] ∧ (s.port 1).peerPostcode ≠ (s.port 0).peerPostcode ∧ mapGet [(0, 1)] 1 = (none : Option Nat) ∧
      (∀ w ∈ (s.route 9).map Route.via, w.all fun v => decide (v.2 ≤ 1)) := by decide +kernel
theorem case_RolesAndTakeover_takeover :
    let s := spare1 true
    s.time.state = .locked ∧ s.faults.selfFenced = false ∧ s.taking = false ∧
      ({ s with faults := { s.faults with take := .copying } } : State).taking = true ∧ mapGet s.faults.retake 9 = none ∧
      s.route 9 = some ⟨1, true, false, [(0, 1)]⟩ ∧ s.covers 9 = true ∧ s.spareCtx = some 2 := by decide +kernel
theorem case_RolesAndTakeover_retake :
    let s := { spare1 false with faults := { (spare1 false).faults with retake := [(7, ⟨1, 0xFFFFFFFF, 1, 0, false⟩)] } }
    mapGet s.faults.retake 7 = some ⟨1, 0xFFFFFFFF, 1, 0, false⟩ ∧ (s.ctx 1).isSome = true ∧ s.faults.auditing = [] := by decide +kernel
/-- The same module as holder of role 9 in context 2, with a state list of `n` ranges. -/
def taken (st : TakeState) (n : Nat) (join : Option W64 := none) : State :=
  let s := spare1 true
  { s with
    stack := memWrite [] 0x810000 (leBytes 4 n ++ List.replicate 60 0 ++ leBytes 8 0x1000 ++ leBytes 8 64 ++ leBytes 2 7)
    fabric := { s.fabric with roles := [(7, ⟨1, 0xFFFFFFFF, 1, 0, false⟩), (9, ⟨2, 0, 2, 0, false⟩)] }
    faults := { s.faults with take := st, takePostcode := 9, takeEpoch := 2, joinStep := join } }
theorem case_RolesAndTakeover_join :
    let s := taken .holding 1
    s.faults.take = .holding ∧ s.faults.takePostcode = 9 ∧ s.takenCtx = some (2, ((s.ctx 2).getD ctx1)) ∧
      mapGet s.faults.records 9 = none ∧ s.listRanges ((s.ctx 2).getD ctx1) = [⟨0x1000, 64, 7, 0⟩] ∧
      (taken .holding 0).listRanges ((s.ctx 2).getD ctx1) = [] := by decide +kernel
theorem case_RolesAndTakeover_copy :
    let s := taken .copying 1 (some 5)
    s.faults.take = .copying ∧ s.faults.joinStep = some 5 ∧ s.takenCtx = some (2, ((s.ctx 2).getD ctx1)) ∧ s.unfenced = [] ∧
      [List.replicate 64 (0 : Byte)].map List.length = (s.listRanges ((s.ctx 2).getD ctx1)).map (fun r => r.bytes) ∧
      ((List.range 64).all fun i => s.offsetUsable ((s.ctx 2).getD ctx1) (0x1000 + i)) = true := by decide +kernel
theorem case_RolesAndTakeover_records : 9 ∈ (spare1 false).faults.armed ∧ 8 ∉ (spare1 false).faults.armed := by decide +kernel

/-- The faults unit of a running module, changed. -/
def faulty (f : Faults → Faults) (s : State := up) : State := { s with faults := f s.faults }

theorem case_FaultsAndPorts_listed : contextsListed (moved id) ∧ contextsListed (spare1 true) ∧ contextsListed up := by
  refine ⟨⟨?_, ?_⟩, ⟨?_, ?_⟩, ⟨?_, ?_⟩⟩ <;> decide +kernel
theorem case_FaultsAndPorts_units :
    up.teamServes 23 = true ∧ up.teamServes 24 = false ∧ (23 : Nat) ∉ up.faults.spareUsed ∧ (23 : Nat) ∉ up.faults.auditing ∧
      23 ∈ (faulty fun f => { f with auditing := [23] }).faults.auditing ∧
      ({ up with part9620 := true } : State).teamServes 5 = false := by decide +kernel
theorem case_FaultsAndPorts_arming :
    let s := faulty fun f => { f with arming := some (9, ⟨1, 2⟩, [0]) }
    (0 : Nat) ∉ s.faults.auditing ∧ s.faults.arming = some (9, ⟨1, 2⟩, [0]) ∧ up.faults.arming = none := by decide +kernel
theorem case_FaultsAndPorts_stacks :
    let s := faulty fun f => { f with pchFailed := [11], filling := [11] }
    (11 : Nat) ∉ up.faults.stackOut ∧ (11 : Nat) ∉ up.faults.pchFailed ∧ 11 ∈ s.faults.pchFailed ∧ 11 ∈ s.faults.filling ∧
      1 ∈ up.journal.copies ∧ (∃ j ∈ up.journal.copies, j ≠ 1) := by decide +kernel
theorem case_FaultsAndPorts_journal :
    let s := { up with journal := { up.journal with copies := [1], rebuilding := true } }
    s.journal.rebuilding = true ∧ s.standby.isSome = true ∧ up.journal.rebuilding = false := by decide +kernel
theorem case_FaultsAndPorts_cores :
    let s := faulty fun f => { f with cores := [0, 7] }
    5 ∈ up.faults.cores ∧ 7 ∈ up.faults.cores ∧ (∃ n ∈ up.faults.cores, n ≠ 7 ∧ (n = 6 ∨ n = 7)) ∧ 7 ∈ s.faults.cores ∧
      (s.faults.cores.all fun n => n == 7 || decide (n < 6)) = true ∧ s.faults.selfFenced = false ∧ (1 : Nat) ∉ s.faults.cores := by
  decide +kernel
theorem case_FaultsAndPorts_replay :
    let s0 := moved fun x => { x with launches := x.launches.map fun l => { l with seq := 2, interrupted := true } }
    let s := { withCmd 0x01 s0 with journal := { up.journal with replaying := [1] } }
    1 ∈ s.journal.replaying ∧ s.power.boot = .running ∧ s.journal.copies ≠ [] ∧ s.faults.auditing = [] ∧
      ctx1.restoreDue = false ∧ s.cmd 1 2 = some (cmd1 0x01) ∧ (cmd1 0x01).over = false ∧ (2 : Nat) ∉ s.journal.replaying ∧
      (s.ctx 1).map (fun x => x.launches.map fun l => (l.seq, l.interrupted, l.wrote)) = some [(2, true, [])] := by
  decide +kernel
/-- A block whose old bytes no mirror holds: the update that wrote it cannot be run again. -/
theorem case_FaultsAndPorts_source :
    let b : Block := { key := 0, mark := .begun, vals := ⟨⟨0, 0, 0, 0⟩, 0, 0, 0, 0⟩, ev := { }, fresh := [(0, 0x1000, [1])] }
    (moved id).hasSource 1 ctx1 b = false ∧ (moved id).hasSource 1 ctx1 { b with fresh := [] } = true := by decide +kernel
theorem case_FaultsAndPorts_fences :
    up.faults.selfFenced = false ∧ up.powered = true ∧ up.power.clocksStopped = false ∧ up.power.boot ≠ .noSupply ∧
      ({ up with power := { up.power with clocksStopped := true } } : State).power.clocksStopped = true ∧
      ({ up with power := { up.power with boot := .noSupply } } : State).powered = false := by decide +kernel
/-- A module whose port 0 is in a state, with lanes retired. -/
def port1 (st : PortState) (retired : List Nat := []) (attempts : Nat := 0) : State :=
  up.modFabric fun f => { f with
    ports := [(0, { ({ } : Port) with state := st, retired := retired, attempts := attempts })], routes := [(9, ⟨1, false, false, [(0, 2), (1, 1)]⟩)]
    out := [.frame 1 (frm 1), .frame 0 (frm 1)] }
theorem case_FaultsAndPorts_ports :
    ((port1 .down).port 0).state = .down ∧ ((port1 .training).port 0).state = .training ∧ ((port1 .up).port 0).state = .up ∧
      ((port1 .swapping [3]).port 0).state = .swapping ∧ (port1 .up).portServes 0 = true ∧ (8 : Nat) ∉ ((port1 .up [3]).port 0).retired ∧
      ((port1 .up [3]).port 0).retired ≠ [] ∧ 6 ≤ ((port1 .up [] 6).port 0).attempts ∧ ((port1 .up [] 5).port 0).attempts < 6 ∧
      (port1 .down).portsRun = true ∧
      ({ port1 .training with power := { up.power with boot := .starting, bootStep := 4 } } : State).portsRun = false ∧
      ((port1 .training).port 0).failures = 0 ∧
      0 ∉ (port1 .swapping [3]).faults.laneUsed ∧
      (port1 .up).route 9 = some ⟨1, false, false, [(0, 2), (1, 1)]⟩ ∧ ((port1 .up [] 6).framesOn 0).getLast? = some (frm 1) := by
  decide +kernel
/-- Among the ports that are UP the way with the fewest hops is taken, and at equal hops the lowest port (R381, R383). -/
theorem test_best_way :
    let r : Route := ⟨1, false, false, [(0, 2), (1, 1), (3, 1)]⟩
    r.best (fun _ => true) = some (1, 1) ∧ r.best (fun p => p != 1) = some (3, 1) ∧ r.best (fun p => p == 0) = some (0, 2) ∧
      r.best (fun _ => false) = none := by decide
theorem case_FaultsAndPorts_light :
    up.powered = true ∧ ({ up with power := { up.power with boot := .off } } : State).powered = false ∧
      up.cartOk 0 = true ∧ up.cartOk 1 = true ∧ (up.modFabric fun f => { f with cart1 := false }).cartOk 1 = false ∧
      ((up.modFabric fun f => { f with ports := [(0, { ({ } : Port) with state := .dark })] }).port 0).state = .dark := by decide +kernel

/-- A module in start-up, after `n` of its steps. -/
def starting (n : Nat) : State := { up with power := { up.power with boot := .starting, bootStep := n, ready := false } }
theorem case_PowerAndStartUp_listed : contextsListed (starting 0) := by constructor <;> decide +kernel
theorem case_PowerAndStartUp_supply :
    up.power.boot ≠ .noSupply ∧ ({ up with power := { up.power with boot := .noSupply } } : State).power.boot = .noSupply ∧
      (2159 : W16).toNat < 10 * up.pm.vinMin ∧ ¬ (2160 : W16).toNat < 10 * up.pm.vinMin ∧ ¬ 10 * up.pm.vinMax < (2640 : W16).toNat ∧
      10 * up.pm.vinMax < (2641 : W16).toNat := by decide +kernel
theorem case_PowerAndStartUp_reset :
    up.power.boot = .running ∧ ((starting 2).power.boot = .starting ∧ 2 ≤ (starting 2).power.bootStep) ∧
      ¬ ((starting 1).power.boot = .running ∨ ((starting 1).power.boot = .starting ∧ 2 ≤ (starting 1).power.bootStep)) ∧
      up.faults.selfFenced = false ∧ (faulty fun f => { f with selfFenced := true }).faults.selfFenced = true ∧
      ({ up with power := { up.power with boot := .off } } : State).power.boot = .off ∧
      ({ up with power := { up.power with boot := .resetHeld } } : State).power.boot = .resetHeld := by decide +kernel
theorem case_PowerAndStartUp_steps :
    ((List.range 10).all fun n => (starting n).stepMayEnd) = true ∧ up.stepMayEnd = false ∧ (starting 1).power.lastType = 1 ∧
      Retired.lane 0 8 ∉ (starting 3).retired ∧ (starting 3).exposes (.lane 0 8) = true ∧
      unitOut (starting 3) (.lane 0 8) = false ∧
      unitOut (faulty (fun f => { f with portOut := [0] }) (starting 3)) (.lane 0 8) = true ∧
      11 ∈ (faulty (fun f => { f with pchFailed := [11] }) (starting 3)).faults.pchFailed ∧
      (let s : State := { starting 5 with time := { up.time with role := 1, source := 0, state := .holdover } }
       s.stepMayEnd = true ∧ s.time.role = 1 ∧ s.time.source = 0 ∧ s.time.state = .holdover) ∧
      (let s : State := { starting 6 with time := { up.time with role := 1, source := 0, state := .slewing } }
       s.stepMayEnd = true ∧ s.time.state = .slewing) := by decide +kernel
/-- Two contexts that keep a hub object each while start-up ends: neither takes the other's. -/
theorem case_PowerAndStartUp_hub :
    let s : State := { starting 9 with
      ctxs := [(1, { ctx1 with savedHub := [(4, bar 1)] }), (2, { ctx1 with savedHub := [(5, bar 1)] })] }
    s.stepMayEnd = true ∧ s.power.bootStep + 1 = 10 ∧
      (s.ctxs.flatMap fun x => x.2.savedHub.map Prod.fst) = [4, 5] ∧ (∀ x ∈ up.ctxs, x.2.savedHub = []) := by decide +kernel
theorem case_PowerAndStartUp_clock :
    up.powered = true ∧ up.power.clocksStopped = false ∧ (3 : Nat) < 4 ∧ 1200 + 25 * up.power.fCeil = 1900 ∧ (1900 : Nat) % 25 = 0 ∧
      (up.die 3).mhz ≤ 1900 ∧ (up.die 3).mv ≤ 900 ∧ 40 ≤ up.pm.tjLimit ∧ (up.die 3).stretched = false ∧
      ((after (.droopDetect 3) up).die 3).stretched = true ∧ ({ up with power := { up.power with boot := .off } } : State).powered = false := by
  decide +kernel
theorem case_PowerAndStartUp_idle :
    let s := { up with power := { up.power with sleepReq := true } }
    up.power.state = .active ∧ up.power.autoDoze = true ∧ (up.teams.all fun t => t.2.idle) = true ∧ up.fabric.colls = [] ∧
      s.power.sleepReq = true ∧ s.ctxs = [] ∧ s.executing = false ∧ (moved id).ctxs ≠ [] := by decide +kernel
theorem case_PowerAndStartUp_wake :
    let s := { up with power := { up.power with state := .sleep, waking := true }, irq := { up.irq with caught := [64, 191] } }
    s.power.state = .sleep ∧ s.power.waking = true ∧ s.irq.caught = [64, 191] ∧ s.fnExists 0 = true := by decide +kernel

/-! ### Decoding: the table gives no row bits -/

theorem test_decode_none : decodeTableWord 16 1 = none ∧ decodeTableWord 64 0 = none := by decide

/-! ### One step on small states, with results of the spec -/

/-- spec/00: the two halves of IDREV of an FJM-9640. -/
theorem test_idrev_low : (after (.lowHalfRead 0 0) up).resp.map (·.data) = some (leBytes 4 0xA1000000) := by decide +kernel
theorem test_idrev_high :
    (after (.highHalfRead 0 0) (after (.lowHalfRead 0 0) up)).resp.map (·.data) = some (leBytes 4 0xF1A59640) := by decide +kernel

/-- spec/02, placing a barrier release: START 1,000,000,000,000, last arrival at 1,000,000,123,500. -/
theorem test_release_postmark :
    ({ up with postmark := 1000000123500, time := { up.time with active := some ⟨1, 125, 1000000000000, 0, [], []⟩ } } :
      State).releaseAt = 1000000125504 := by decide +kernel

/-- An MMA of a row of A by a column of B: BF16 codes `a` and `b`, D of a type, MOD. -/
def mma1 (ty : Nat) (w : Nat) (a b : List Nat) (dty : Byte) (mod : Byte) : State :=
  let n := a.length
  let x := ar3 ty 0 mod
  let t (m c base : Nat) (y : Byte) : TileDesc := tile m c base y
  after (.mma 0 x) (at_ ⟨0x100, x⟩ { core1 with
    t := [(1, t 1 1 0x1000 dty), (2, t 1 n 0x2000 (BitVec.ofNat 8 ty)), (3, t n 1 0x3000 (BitVec.ofNat 8 ty))]
    mem := (b.zipIdx.foldl (fun m y => memWrite m (0x3000 + 64 * y.2) (leBytes w y.1))
      (memWrite [] 0x2000 (a.flatMap (leBytes w)))) })
/-- The element written, and the counts SAT, FLUSH and INVALID of the context. -/
def mmaOut (s : State) (w : Nat) : Nat × List Nat :=
  (leNat (memRead (s.core 0 0).mem 0x1000 w), ((s.ctx 1).map fun c => c.counters.take 3).getD [])

/-- R196, vectors 1 to 5 without those of block types. -/
theorem test_mma_vector1 :
    mmaOut (mma1 1 2 [0x3F80, 0x3980, 0x3980, 0xBF80] [0x3F80, 0x3980, 0x3980, 0x3F80] 0 0) 4 = (0x34000000, [0, 0, 0]) := by
  decide +kernel
theorem test_mma_vector1_steps :
    mmaOut (mma1 1 2 [0x3F80, 0x3980, 0x3980, 0xBF80] [0x3F80, 0x3980, 0x3980, 0x3F80] 0 2) 4 = (0, [0, 0, 0]) := by
  decide +kernel
/-- Vector 4: zero times infinity. -/
theorem test_matrix_vector4 :
    mmaOut (mma1 2 2 [0x7C00, 0x3C00] [0x0000, 0x3C00] 0 0) 4 = (0x7FC00000, [0, 0, 1]) := by decide +kernel
/-- Vector 5: the normal drain flushes, the step-by-step drain does not. -/
theorem test_matrix_vector5 : mmaOut (mma1 0 4 [0x1F000000] [0x1F000000] 0 0) 4 = (0, [0, 1, 0]) := by decide +kernel
theorem test_matrix_vector5_steps :
    mmaOut (mma1 0 4 [0x1F000000] [0x1F000000] 0 2) 4 = (0x00080000, [0, 0, 0]) := by decide +kernel

/-- spec/08: a running count in BF16 and in F32, over two calls. -/
theorem test_scan_bf16 :
    ((scanColumn .add 1 false false false none ([0x4380, 0x3F80, 0x3F80, 0x3F80].map fun a => (false, a))).1.map (·.1)) =
      [0x4380, 0x4380, 0x4380, 0x4380] := by decide +kernel
theorem test_scan_f32 :
    (scanColumn .add 0 false false false none ([0x43800000, 0x3F800000, 0x3F800000, 0x3F800000].map fun a => (false, a))).2 =
      0x43818000 := by decide +kernel

/-- R257: the generator's output for zero keys and counter. -/
theorem test_generator : generate 0 0 ⟨0, 0, 0, 0⟩ = ⟨0x8B2A5775, 0xC073B862, 0xD023B61F, 0x3BB1E00E⟩ := by decide +kernel

/-- spec/09: the sampled layers of the worked example. -/
theorem test_sampler_layers :
    let offs := [0, 5, 5, 5, 5, 7, 7, 7, 7, 7, 8].flatMap (leBytes 8)
    let nbrs := [7, 3, 9, 4, 2, 0, 9, 4].flatMap (leBytes 4)
    let v : GraphView := ⟨memWrite (memWrite [] 0x1000 offs) 0x2000 nbrs, ⟨0, false, 0, 10, 8, 0x1000, 0x2000, 0, 0, 0⟩⟩
    let r := bytesAt (((List.replicate 128 0).set 0 2).set 4 2) 0 128
    let r := (leBytes 2 2 ++ leBytes 2 8).zipIdx.foldl (fun (l : List Byte) b => l.set (0x30 + b.2) b.1) r
    let b := buildLayers v ⟨1, 0, 0, 0, 0⟩ r [0, 4]
    b.nodes = [0, 4, 9, 7, 3, 2] ∧ b.layers.map (fun l => l.edges.map fun e => (e.src, e.dst)) =
      [[(2, 0), (1, 0), (0, 1), (2, 1)], [(3, 0), (4, 0), (2, 0), (1, 0), (5, 0), (0, 1), (2, 1), (1, 2)]] ∧
      b.layers.map (·.dptr) = [[0, 2, 4], [0, 5, 7, 8]] ∧
      b.layers.map (fun l => routeOf l.edges) = [[2, 1, 0, 3], [5, 3, 7, 2, 6, 0, 1, 4]] := by decide +kernel

/-- spec/12: one element of the worked example under SIGN. -/
theorem test_update_sign :
    let u : UpdReq := { upd1 with rule := 1, flags := 6, clip := 0x40000000, eta := 0x3A800000, lambda := 0x3D800000
                                  beta1 := 0x3F600000, beta2 := 0x3F700000 }
    let c := constsOf u 0x47800000 32
    c.q = 0x3C000000 ∧ c.reason = 0 ∧
      ((ruleStep u c ⟨0x3F000000, 0x3E800000, 0, f32 0x43000000⟩).1.1, (ruleStep u c ⟨0x3F000000, 0x3E800000, 0, f32 0x43000000⟩).1.2.1) =
        (0x3EFF7C00, 0x3E980000) ∧ (constsOf u 0x7F800000 32).reason = 2 := by decide +kernel

/-- spec/12: G2 and N of the worked example's release. -/
theorem test_release_sums :
    releaseOf ([(0x46800000, 3), (0x46C00000, 1), (0x46400000, 2), (0x46400000, 0)].map fun (y : W32 × Nat) =>
      { arr7 5 with norm2 := y.1, postcode := BitVec.ofNat 16 y.2 }) = ⟨5, 0x47800000, 32⟩ := by decide +kernel

/-- spec/13: one signal instruction, four waiters. -/
def w4 : List Watch :=
  [⟨7, .eq, 1, 1, .core 5 0 1⟩, ⟨7, .claim, 2, 1, .core 6 0 1⟩, ⟨7, .claim, 1, 1, .core 7 0 1⟩, ⟨7, .ge, 3, 1, .core 8 0 1⟩]
theorem test_watches :
    let a := evalLoop 5 1 w4 []
    let b := evalLoop 5 (a.1 + 1) a.2.1 []
    let c := evalLoop 5 (b.1 + 1) b.2.1 []
    (a.1, a.2.2) = (1, [(w4.getD 0 ⟨0, .ge, 0, 0, .core 0 0 0⟩, 1)]) ∧ (b.1, b.2.2.map (·.1.whom), b.2.2.map (·.2)) = (0, [.core 6 0 1], [0]) ∧
      (c.1, c.2.2.map (·.1.whom), c.2.2.map (·.2)) = (0, [.core 7 0 1], [0]) ∧ c.2.1.map (·.whom) = [.core 8 0 1] := by decide +kernel

/-- R105, R109: NOP moves the pc by one; ADD wraps; a MOV copies. -/
theorem test_nop_pc : ((after (.nopInstruction 0 (ar 0 .none .none .none)) (at_ ⟨0, ar 0 .none .none .none⟩)).team 0).kernel.map (·.pc)
    = some 1 := by decide +kernel
theorem test_add_wraps :
    let x := ar 0 (.sreg 1) (.sreg 1) (.sreg 2) 0 1
    ((after (.add 0 x) (at_ ⟨0x018, x⟩ { core1 with s := [(1, 0xFFFFFFFFFFFFFFFF), (2, 2)] })).core 0 0).getS 1 = 1 := by decide +kernel
theorem test_signal_underflow :
    let s := after (.signalSub 0 xSync) (sy 0x3C1 (hLocal 7) 1)
    (s.obj (.cluster 0) 7).value = 0 ∧ ((s.team 0).kernel.map (·.stopped)) = some true := by decide +kernel

/-- An empty queue is one tick; a command at the front acts on the rest. -/
theorem test_idle_tick : (match step up with | .next t => t.postmark | _ => 0) = 1 := by decide +kernel
theorem test_step_front :
    step { up with pending := [.stretchEnd 0, .timeFrameSend] } = exec (.stretchEnd 0) { up with pending := [.timeFrameSend] } := rfl

end Sys2Proof.Tests
end

section
/-! SUPPORT. Accesses to the registers of BAR0 (spec/00 R10 to R14, spec/19 R511 to R523): what a read of a register that
a requester's view holds answers and clears, what a whole 64-bit write of one does, and the two statements about them. -/

namespace Sys2Proof.Machine

open Sys2Proof Sys2Proof.Stated

/-! ### Fields of a written value -/

/-- Bit `i` of a word, as the model cuts it out of the word's number. -/
theorem bitOf_toNat {n : Nat} (v : BitVec n) (i : Nat) : bitOf v.toNat i = v.getLsbD i :=
  Nat.testBit_eq_decide_div_mod_eq.symm

/-- A field within bits [31:0] depends on those bits alone. -/
theorem bits_congr {x y lo w : Nat} (hxy : x % 2 ^ 32 = y % 2 ^ 32) (hw : lo + w ≤ 32) : bits x lo w = bits y lo w := by
  have cut (z : Nat) : bits z lo w = z % 2 ^ 32 % 2 ^ (lo + w) / 2 ^ lo := by
    rw [Nat.mod_mod_of_dvd _ (Nat.pow_dvd_pow 2 hw), Nat.pow_add, Nat.mod_mul_right_div_self, bits]
  rw [cut x, cut y, hxy]

theorem bitOf_congr {x y i : Nat} (hxy : x % 2 ^ 32 = y % 2 ^ 32) (hi : i < 32) : bitOf x i = bitOf y i :=
  congrArg (· == 1) (bits_congr (w := 1) hxy hi)

/-- The nearest bound of a range, by the side on which a value lies. -/
theorem clampTo_eq_ite {lo hi : Nat} (h : lo ≤ hi) (x : Nat) :
    clampTo lo hi x = if x < lo then lo else if hi < x then hi else x := by
  unfold clampTo
  split
  · omega
  · split <;> omega

/-- A 64-bit write writes its value whole (R14). -/
theorem mergeWrite_whole (old v : W64) (off : Nat) : mergeWrite old off 8 v.toNat = v.toNat :=
  Nat.mod_eq_of_lt v.isLt

/-- A write of bits [31:0] writes those of its value (R14). -/
theorem mergeWrite_low_mod (old : W64) {off : Nat} (h : off % 8 = 0) (v : Nat) :
    mergeWrite old off 4 v % 2 ^ 32 = v % 2 ^ 32 := by
  rw [mergeWrite, if_neg (by decide), if_pos h]
  omega

/-! ### Requesters -/

theorem State.requesterUp_i3c (s : State) : s.requesterUp i3c = s.i3cUp := rfl

theorem State.requesterUp_function (s : State) {who : Nat} (h : who ≠ i3c) : s.requesterUp who = s.reaches who :=
  if_neg h

/-- A requester other than the I3C port is one of the 64 functions (R510). -/
theorem State.requester_lt {s : State} {who : Nat} (up : s.requesterUp who = true) (h : who ≠ i3c) : who < 64 := by
  rw [s.requesterUp_function h, State.reaches, State.fnExists] at up
  simp only [Bool.and_eq_true, Bool.or_eq_true, beq_iff_eq, decide_eq_true_eq] at up
  omega

/-- The test by which the model tells these two requesters from the virtual functions. -/
theorem beq_or_of_pf {who : Nat} (pf : who = 0 ∨ who = i3c) : (who == 0 || who == i3c) = true := by
  simpa using pf

theorem State.pfOrI3c_of_up {s : State} {who : Nat} (pf : who = 0 ∨ who = i3c) (up : s.requesterUp who = true) :
    s.pfOrI3c who = true := by
  rw [State.pfOrI3c, beq_or_of_pf pf, up, Bool.and_self]

/-! ### What a read clears -/

/-- Outside PEND 0 to 31 a read of bits [31:0] has no effect on the interrupt bank (R471). -/
theorem State.readBank_outside (s : State) (who : Nat) {off : Nat} (h : off < 0x100000 ∨ 0x100200 ≤ off) :
    s.readBank who off = s :=
  if_neg (by omega)

/-- A read of bits [63:32] clears the RC bits of the register that it returned as 1, and no set L. -/
theorem State.clearRc_eq_clearedBy (s : State) (who off : Nat) (lo hi : W32) :
    s.clearRc who off lo hi = clearedBy s who off lo hi false := by
  unfold State.clearRc clearedBy
  simp only [Bool.false_eq_true, false_and, if_false]

/-- A read that returns bits [31:0] clears the RC bits that it returned as 1, or, of PEND, the set L. -/
theorem State.readBank_clearRc {s : State} {who : Nat} (up : s.requesterUp who = true) (off : Nat) (lo hi : W32) :
    (s.clearRc who off lo hi).readBank who off = clearedBy s who off lo hi true := by
  unfold State.clearRc clearedBy
  by_cases lb : who ≠ i3c ∧ off = 0x1000 * (who + 1) + 0x040
  · have := State.requester_lt up lb.1
    rw [if_pos lb, if_pos lb, State.readBank_outside _ _ (by omega)]
  rw [if_neg lb, if_neg lb]
  by_cases pwr : off = 0x300808
  · rw [if_pos pwr, if_pos pwr, State.readBank_outside _ _ (by omega)]
  rw [if_neg pwr, if_neg pwr]
  by_cases src : 0x112000 ≤ off ∧ off < 0x112200 ∧ off % 16 = 0
  · rw [if_pos src, if_pos src, State.readBank_outside _ _ (by omega)]
  rw [if_neg src, if_neg src]
  simp only [State.readBank, true_and]

theorem State.read64Reg_eq {s : State} {who : Nat} (up : s.requesterUp who = true) (off : Nat) (v : W64) :
    s.read64Reg who off v = clearedBy s who off (loHalf v) (hiHalf v) true :=
  State.readBank_clearRc up off _ _

theorem State.readLow_eq {s : State} {who : Nat} (up : s.requesterUp who = true) (off : Nat) (v : W64) :
    s.readLow who off v = (clearedBy s who off (loHalf v) 0 true).setShadow who (some (off, hiHalf v)) :=
  congrArg (State.setShadow · who _) (State.readBank_clearRc up off _ _)

/-- With an empty shadow a read of bits [63:32] answers the live half. -/
theorem State.readHigh_of_none {s : State} {who : Nat} (h : s.shadow who = none) (off : Nat) (v : W64) :
    s.readHigh who off v = (hiHalf v, clearedBy s who off 0 (hiHalf v) false) := by
  rw [State.readHigh, h, ← State.clearRc_eq_clearedBy]

/-- A shadow is used up by a read of bits [63:32], and answers one of the register that it names. -/
theorem State.readHigh_of_some {s : State} {who o : Nat} {w : W32} (h : s.shadow who = some (o, w)) (off : Nat)
    (v : W64) :
    s.readHigh who off v =
      let held := if o = off then w else hiHalf v
      (held, (clearedBy s who off 0 held false).setShadow who none) := by
  rw [State.readHigh, h]
  simp only [← State.clearRc_eq_clearedBy]
  split <;> rfl

/-! ### The commands that read a register which the view holds -/

section
variable {s : State} {who off : Nat} {v : W64}

theorem State.readAnswer_of_readReg (hv : s.readReg who off = some v) :
    s.readAnswer who off = (s.read64Reg who off v).answer who 0 (leBytes 8 v.toNat) := by
  rw [State.readAnswer, hv]

theorem exec_lowHalfRead (up : s.requesterUp who = true) (h8 : off % 8 = 0) (hv : s.readReg who off = some v) :
    exec (.lowHalfRead who off) s = .next ((s.readLow who off v).answer who 0 (leBytes 4 (loHalf v).toNat)) := by
  change execLowHalfRead who off s = _
  simp [execLowHalfRead, up, h8, hv]

theorem exec_highHalfRead (up : s.requesterUp who = true) (h8 : off % 8 = 0) (hv : s.readReg who off = some v) :
    exec (.highHalfRead who off) s =
      .next ((s.readHigh who off v).2.answer who 0 (leBytes 4 (s.readHigh who off v).1.toNat)) := by
  change execHighHalfRead who off s = _
  simp [execHighHalfRead, up, h8, hv]

theorem State.holds_aligned (h8 : off % 8 = 0) : s.holds who off = (s.readReg who off).isSome := by
  rw [State.holds, Nat.div_mul_cancel (Nat.dvd_of_mod_eq_zero h8)]

theorem exec_read64 (up : s.requesterUp i3c = true) (h8 : off % 8 = 0) (hv : s.readReg i3c off = some v) :
    exec (.read64 off) s = .next (s.readAnswer i3c off) := by
  rw [s.requesterUp_i3c] at up
  change execRead64 off s = _
  simp [execRead64, up, h8, State.holds_aligned h8, hv]

theorem exec_read32_low (up : s.requesterUp i3c = true) (h8 : off % 8 = 0) (hv : s.readReg i3c off = some v) :
    exec (.read32 off) s = exec (.lowHalfRead i3c off) s := by
  rw [exec_lowHalfRead up h8 hv]
  rw [s.requesterUp_i3c] at up
  change execRead32 off s = _
  have h4 : off % 4 = 0 := by omega
  simp [execRead32, up, h8, h4, Nat.div_mul_cancel (Nat.dvd_of_mod_eq_zero h8), hv]

theorem exec_read32_high (up : s.requesterUp i3c = true) (h8 : off % 8 = 0) (hv : s.readReg i3c off = some v) :
    exec (.read32 (off + 4)) s = exec (.highHalfRead i3c off) s := by
  rw [exec_highHalfRead up h8 hv]
  rw [s.requesterUp_i3c] at up
  change execRead32 (off + 4) s = _
  have h4 : (off + 4) % 4 = 0 := by omega
  have hi : (off + 4) % 8 ≠ 0 := by omega
  have reg : (off + 4) / 8 * 8 = off := by omega
  simp [execRead32, up, h4, hi, reg, hv]

theorem exec_lbStatusRead (up : s.reaches who = true) :
    exec (.lbStatusRead who) s = .next (s.readAnswer who (0x1000 * (who + 1) + 0x040)) :=
  congrArg Host.Outcome.next (if_pos up)

theorem exec_pwrStatusRead (up : s.pfOrI3c who = true) :
    exec (.pwrStatusRead who) s = .next (s.readAnswer who 0x300808) :=
  congrArg Host.Outcome.next (if_pos up)

theorem exec_srcStateRead {g : Nat} (up : s.pfOrI3c who = true) (hg : g < 32) :
    exec (.srcStateRead who g) s = .next (s.readAnswer who (0x112000 + 16 * g)) := by
  change execSrcStateRead who g s = _
  rw [execSrcStateRead, up, decide_eq_true hg]
  rfl

/-- The source registers stand in the views of the physical function and of the I3C port alone (R523). -/
theorem State.pf_of_readReg_source (h : 0x110000 ≤ off ∧ off < 0x112200) (hv : s.readReg who off = some v) :
    who = 0 ∨ who = i3c := by
  rw [State.readReg, if_neg (by omega), if_neg (by omega), if_neg (by omega), if_pos h] at hv
  by_cases view : (who == 0 || who == i3c) = true
  · simpa only [Bool.or_eq_true, beq_iff_eq] using view
  · rw [if_neg view] at hv
    cases hv

end

/-- Settles O24: each command that reads is one of the three reads of R14, whose effects are `State.read64Reg_eq`,
`State.readLow_eq` and the two cases of the shadow. -/
theorem registerReads : Obligations.RegisterReads := by
  intro who off v s up h8 hv lo hi held read64 readLow s1 readHigh
  have answer : s.readAnswer who off = read64 := by
    rw [State.readAnswer_of_readReg hv, State.read64Reg_eq up]; rfl
  have low : exec (.lowHalfRead who off) s = .next readLow := by
    rw [exec_lowHalfRead up h8 hv, State.readLow_eq up]; rfl
  have high : exec (.highHalfRead who off) s = .next readHigh := by
    rw [exec_highHalfRead up h8 hv]
    cases sh : s.shadow who with
    | none => rw [State.readHigh_of_none sh]; simp only [readHigh, s1, held, sh]; rfl
    | some x => rw [State.readHigh_of_some (o := x.1) (w := x.2) sh]; simp only [readHigh, s1, held, sh]; rfl
  refine ⟨low, high, ?_, ?_, ?_, ?_⟩
  · rintro rfl
    exact ⟨by rw [exec_read64 up h8 hv, answer], by rw [exec_read32_low up h8 hv, low],
      by rw [exec_read32_high up h8 hv, high]⟩
  · rintro rfl fn
    rw [exec_lbStatusRead (s.requesterUp_function fn ▸ up), answer]
  · rintro g hg rfl
    rw [exec_srcStateRead (State.pfOrI3c_of_up (State.pf_of_readReg_source (by omega) hv) up) hg, answer]
  · rintro pf rfl
    rw [exec_pwrStatusRead (State.pfOrI3c_of_up pf up), answer]

/-! ### Registers in the view of the physical function and of the I3C port (R523) -/

section
variable (s : State) {who off : Nat}

/-- Registers of the module status region that hold a value for these two requesters: SC_SELECT, ROW_PLACE and
PLACE_STATS, the ports and the fabric's counters, DLQ_POP, the fault and takeover registers, PWR_CTRL. -/
theorem State.statusPf_isSome (h8 : off % 8 = 0)
    (h : off = 0x200 ∨ off = 0x300 ∨ off = 0x308 ∨ (0x400 ≤ off ∧ off < 0x518) ∨ off = 0x608 ∨
      (0x700 ≤ off ∧ off < 0x728) ∨ off = 0x800) : (s.statusPf who off).isSome = true := by
  rcases h with rfl | rfl | rfl | ports | rfl | faults | rfl
  case inr.inr.inr.inl =>
    by_cases port : off < 0x500
    · unfold State.statusPf
      iterate 10 rw [if_neg (by omega)]
      rw [if_pos (by omega), Option.isSome_some]
    · obtain rfl | rfl | rfl : off = 0x500 ∨ off = 0x508 ∨ off = 0x510 := by omega
      all_goals rfl
  case inr.inr.inr.inr.inr.inl =>
    obtain rfl | rfl | rfl | rfl | rfl :
      off = 0x700 ∨ off = 0x708 ∨ off = 0x710 ∨ off = 0x718 ∨ off = 0x720 := by omega
    all_goals rfl
  all_goals rfl

theorem State.readReg_status_isSome (pf : who = 0 ∨ who = i3c) (h : off < 0x900)
    (seen : (s.statusPf who off).isSome = true) : (s.readReg who (0x300000 + off)).isSome = true := by
  have view := beq_or_of_pf pf
  unfold State.readReg
  iterate 6 rw [if_neg (by omega)]
  rw [if_pos (by omega), if_neg (by omega), Nat.add_sub_cancel_left]
  split
  · rfl
  · simpa only [view, if_true] using seen

theorem State.readReg_srcCfg_isSome (pf : who = 0 ∨ who = i3c) {i : Nat} (h : i < 210) :
    (s.readReg who (0x110000 + 8 * i)).isSome = true := by
  have view := beq_or_of_pf pf
  unfold State.readReg
  iterate 3 rw [if_neg (by omega)]
  rw [if_pos (by omega), if_pos view, Nat.add_sub_cancel_left, State.sourceReg, if_pos (by omega), if_pos (by omega)]
  dsimp only
  split <;> rfl

theorem State.readReg_time_isSome (h8 : off % 8 = 0) (h : off < 0x40) :
    (s.readReg who (0x200000 + off)).isSome = true := by
  unfold State.readReg
  iterate 5 rw [if_neg (by omega)]
  rw [if_pos (by omega), Nat.add_sub_cancel_left]
  obtain rfl | rfl | rfl | rfl | rfl | rfl | rfl | rfl : off = 0x00 ∨ off = 0x08 ∨ off = 0x10 ∨ off = 0x18 ∨
    off = 0x20 ∨ off = 0x28 ∨ off = 0x30 ∨ off = 0x38 := by omega
  case inr.inr.inl => simp only [State.timeReg]; cases s.time.active <;> rfl
  all_goals rfl

theorem State.readReg_pm_isSome (pf : who = 0 ∨ who = i3c)
    (h : off = 0x08 ∨ off = 0x10 ∨ off = 0x18 ∨ (0x100 ≤ off ∧ off < 0x500)) :
    (s.readReg who (0x800000 + off)).isSome = true := by
  have view := beq_or_of_pf pf
  unfold State.readReg
  iterate 8 rw [if_neg (by omega)]
  rw [if_pos (by omega), if_pos view, Nat.add_sub_cancel_left]
  rcases h with rfl | rfl | rfl | iso
  case inr.inr.inr =>
    unfold State.pmReg
    iterate 6 rw [if_neg (by omega)]
    rw [if_pos iso, Option.isSome_some]
  all_goals rfl

end

/-! ### Whole 64-bit writes -/

section
variable (s : State) (who : Nat) {off : Nat} (v : W64)

/-- A write from bit 0 of a register of the module status region on: the whole register, or its bits [31:0]. -/
theorem State.writeReg_status (width n : Nat) (h8 : off % 8 = 0) (h : off < 0x900) :
    s.writeReg who (0x300000 + off) width n =
      s.writeStatusReg who off (mergeWrite (s.readsAs who (0x300000 + off)) (0x300000 + off) width n) true
        (width == 8) := by
  have reg : (0x300000 + off) / 8 * 8 = 0x300000 + off := by omega
  have start : (0x300000 + off) % 8 = 0 := by omega
  dsimp only [State.writeReg]
  rw [reg]
  iterate 5 rw [if_neg (by omega)]
  rw [if_pos (by omega), Nat.add_sub_cancel_left]
  simp [writesLow, start]

theorem State.writeReg_status_whole (h8 : off % 8 = 0) (h : off < 0x900) :
    s.writeReg who (0x300000 + off) 8 v.toNat = s.writeStatusReg who off v.toNat true true := by
  rw [s.writeReg_status who 8 _ h8 h, mergeWrite_whole]
  rfl

theorem State.writeReg_srcCfg {i : Nat} (h : i < 0x400) :
    s.writeReg who (0x110000 + 8 * i) 8 v.toNat = s.writeSrcCfg i v.toNat := by
  have reg : (0x110000 + 8 * i) / 8 * 8 = 0x110000 + 8 * i := by omega
  dsimp only [State.writeReg]
  rw [reg, mergeWrite_whole]
  iterate 2 rw [if_neg (by omega)]
  rw [if_pos (by omega), Nat.add_sub_cancel_left, Nat.mul_div_cancel_left i (by decide)]

theorem State.writeReg_pm (h8 : off % 8 = 0) (h : off < 0x6C0) :
    s.writeReg who (0x800000 + off) 8 v.toNat = s.writePmReg off := by
  have reg : (0x800000 + off) / 8 * 8 = 0x800000 + off := by omega
  unfold State.writeReg
  rw [reg]
  iterate 6 rw [if_neg (by omega)]
  rw [if_pos (by omega), Nat.add_sub_cancel_left]

/-- IDREV and the postmark unit's registers are read-only. -/
theorem State.writeReg_readOnly (h8 : off % 8 = 0) (h : off < 8 ∨ (0x200000 ≤ off ∧ off < 0x200040)) :
    s.writeReg who off 8 v.toNat = s := by
  unfold State.writeReg
  rw [Nat.div_mul_cancel (Nat.dvd_of_mod_eq_zero h8)]
  iterate 7 rw [if_neg (by omega)]

/-- Of the module status region a write has an effect on SC_SELECT, ROW_PLACE, DLQ_POP and PWR_CTRL alone. -/
theorem State.writeStatusReg_readOnly (h : off ≠ 0x200 ∧ off ≠ 0x300 ∧ off ≠ 0x608 ∧ off ≠ 0x800) (low high : Bool) :
    s.writeStatusReg who off v.toNat low high = s := by
  obtain ⟨sc, place, dlq, pwr⟩ := h
  rw [State.writeStatusReg, if_neg sc, if_neg place, if_neg dlq, if_neg pwr]

end

theorem State.access_of_holds {s : State} {who off width : Nat} (up : s.requesterUp who = true)
    (ok : accessOk off width = true) (seen : s.holds who off = true) (n : Nat) :
    s.access who off width n = s.writeReg who off width n := by
  rw [State.access, up, ok, seen]
  rfl

/-- A whole write of a register that the view holds acts, by a BAR0 write and by WRITE64 alike (R513). -/
theorem exec_wholeWrite {s : State} {who off : Nat} (v : W64) (up : s.requesterUp who = true) (h8 : off % 8 = 0)
    (seen : (s.readReg who off).isSome = true) :
    exec (.registerWrite who off 8 v) s = .next (s.writeReg who off 8 v.toNat) ∧
    (who = i3c → exec (.write64 off v) s = .next ((s.writeReg who off 8 v.toNat).answer i3c 0 [])) := by
  have held : s.holds who off = true := (State.holds_aligned h8).trans seen
  constructor
  · exact congrArg Host.Outcome.next (State.access_of_holds up (by simp [accessOk, h8]) held _)
  · rintro rfl
    rw [s.requesterUp_i3c] at up
    change execWrite64 off v s = _
    simp [execWrite64, up, h8, held]

/-! ### What the registers store -/

section
variable (s : State) (v : W64)

/-- SC_SELECT latches the copy of a context that exists or not, in the requester's own SC registers (R201, R202). -/
theorem State.writeScSelect_eq (who : Nat) (copy : ScCopy)
    (found : ∀ x, s.ctx (v.setWidth 32) = some x → copy = ⟨v.setWidth 32, true, x.counters⟩)
    (missing : s.ctx (v.setWidth 32) = none → copy = ⟨v.setWidth 32, decide (v.toNat % 2 ^ 26 = 0), []⟩) :
    s.writeScSelect who (v.toNat % 2 ^ 32) =
      if who = i3c then { s with regs := { s.regs with scI3c := copy } }
      else { s with regs := { s.regs with scPf := copy } } := by
  have name : BitVec.ofNat 32 (v.toNat % 2 ^ 32) = v.setWidth 32 := by
    apply BitVec.eq_of_toNat_eq
    simp
  have control : (v.toNat % 2 ^ 32 % 2 ^ 26 == 0) = decide (v.toNat % 2 ^ 26 = 0) :=
    congrArg (· == 0) (Nat.mod_mod_of_dvd v.toNat (by decide))
  unfold State.writeScSelect
  simp only [name, control]
  cases hx : s.ctx (v.setWidth 32) with
  | none => rw [missing hx]
  | some x => rw [found x hx]

/-- A write of a postmaster register with PW fields is counted, up to the counter's bound, and has no other effect
(R458). -/
theorem State.writePmReg_counts {off : Nat} (h : off ≠ 0x00 ∧ off ≠ 0x20 ∧ off ≠ 0x28) :
    s.writePmReg off = { s with pm := { s.pm with ignored := min 0xFFFF (s.pm.ignored + 1) } } := by
  obtain ⟨fuses, req, id⟩ := h
  rw [State.writePmReg, if_neg (by omega)]
  rfl

end

/-! ### PWR_CTRL (R490, R505) -/

/-- A table whose entries at some keys are written anew reads the new value there and the old one elsewhere. -/
theorem mapGetD_foldl_mapPut {α : Type} (p : Nat → Prop) [DecidablePred p] (g : Nat → α) (d : α) (l : List Nat)
    (m : SMap α) (j : Nat) :
    mapGetD (l.foldl (fun m i => if p i then mapPut m i (g i) else m) m) d j =
      if j ∈ l ∧ p j then g j else mapGetD m d j := by
  induction l generalizing m with
  | nil => simp
  | cons i l ih =>
    have first : mapGetD (if p i then mapPut m i (g i) else m) d j = if j = i ∧ p j then g j else mapGetD m d j := by
      by_cases e : j = i
      · subst e; by_cases hp : p j <;> simp [hp]
      · by_cases hp : p i <;> simp [hp, e, mapGetD_mapPut_ne _ _ e]
    simp only [List.foldl_cons, ih, first, List.mem_cons]
    by_cases hl : j ∈ l <;> by_cases hp : p j <;> simp [hl, hp]

/-- A ceiling lowers the clock of a die that runs above it, and leaves the other dies (R484). -/
theorem State.die_writePwrFields (s : State) (n : Nat) {d : Nat} (h : d < 4) :
    (s.writePwrFields n).die d =
      { s.die d with mhz := min (s.die d).mhz (1200 + 25 * clampTo 0 28 (bits n 24 5)) } := by
  refine (mapGetD_foldl_mapPut (fun d => 1200 + 25 * clampTo 0 28 (bits n 24 5) < (s.die d).mhz) _ _ _ _ d).trans ?_
  simp only [List.mem_range]
  by_cases above : 1200 + 25 * clampTo 0 28 (bits n 24 5) < (s.die d).mhz
  · rw [if_pos ⟨h, above⟩, Nat.min_eq_right (by omega)]
  · rw [if_neg (fun c => above c.2), Nat.min_eq_left (by omega)]
    rfl

theorem State.writePwrFields_congr (s : State) {m n : Nat} (h : m % 2 ^ 32 = n % 2 ^ 32) :
    s.writePwrFields m = s.writePwrFields n := by
  simp only [State.writePwrFields, bitOf_congr h (show 1 < 32 by decide), bits_congr h (show 8 + 16 ≤ 32 by decide),
    bits_congr h (show 24 + 5 ≤ 32 by decide)]

theorem State.holds_pwrCtrl (s : State) {who : Nat} (pf : who = 0 ∨ who = i3c) : s.holds who 0x300800 = true :=
  (State.holds_aligned rfl).trans
    (s.readReg_status_isSome pf (off := 0x800) (by decide) (s.statusPf_isSome rfl (by decide)))

theorem State.writeStatusReg_pwrCtrl (s : State) (who n : Nat) (low high : Bool) :
    s.writeStatusReg who 0x800 n low high = s.writePwrCtrl n low high := rfl

/-- A write of bits [31:0] of PWR_CTRL stores its fields and requests SLEEP or wake; RESET and KEY are not reached. -/
theorem State.writePwrCtrl_low (s : State) {n : Nat} {v : W64} (h : n % 2 ^ 32 = v.toNat % 2 ^ 32) :
    s.writePwrCtrl n true false = (s.writePwrFields v.toNat).writeSleep (v.getLsbD 0) := by
  unfold State.writePwrCtrl
  simp only [Bool.false_and, Bool.false_eq_true, if_false, if_true]
  rw [← bitOf_toNat, bitOf_congr h (by decide), s.writePwrFields_congr h]

section
variable {s : State} {who : Nat}

/-- SLEEP_REQUEST writes bits [31:0] of PWR_CTRL: its fields, and the request for SLEEP or wake. -/
theorem exec_sleepRequest (pf : who = 0 ∨ who = i3c) (up : s.requesterUp who = true) (v : W64) :
    exec (.sleepRequest who v) s = .next ((s.writePwrFields v.toNat).writeSleep (v.getLsbD 0)) := by
  change Host.Outcome.next (if s.pfOrI3c who then s.access who 0x300800 4 v.toNat else s) = _
  rw [if_pos (State.pfOrI3c_of_up pf up), State.access_of_holds up rfl (s.holds_pwrCtrl pf),
    s.writeReg_status who (off := 0x800) 4 _ rfl (by decide), State.writeStatusReg_pwrCtrl]
  exact congrArg Host.Outcome.next (s.writePwrCtrl_low (mergeWrite_low_mod _ rfl _))

/-- RESET writes PWR_CTRL whole. -/
theorem exec_reset (pf : who = 0 ∨ who = i3c) (up : s.requesterUp who = true) {v : W64} (h : v.getLsbD 32 = true) :
    exec (.reset who v) s = .next (s.writePwrCtrl v.toNat true true) := by
  change Host.Outcome.next (if s.pfOrI3c who && bitOf v.toNat 32 then s.access who 0x300800 8 v.toNat else s) = _
  rw [State.pfOrI3c_of_up pf up, bitOf_toNat, h, Bool.and_self, if_pos rfl,
    State.access_of_holds up rfl (s.holds_pwrCtrl pf)]
  exact congrArg Host.Outcome.next (s.writeReg_status_whole who v (off := 0x800) rfl (by decide))

/-- RESET with the KEY 0xD1 resets the module, after the write's other fields, where a reset can act. -/
theorem State.writePwrCtrl_reset (s : State) {v : W64} (h : v.getLsbD 32 = true) :
    s.writePwrCtrl v.toNat true true =
      let t := (s.writePwrFields v.toNat).writeSleep (v.getLsbD 0)
      if bits v.toNat 40 8 = 0xD1 ∧ s.resettable = true then t.moduleReset 3 .starting else t := by
  unfold State.writePwrCtrl
  simp only [bitOf_toNat, h, if_true, Bool.true_and, Bool.and_eq_true, beq_iff_eq]
  rfl

end

/-- Settles O25: each whole write is a write of the one register that its offset names (`exec_wholeWrite`), and PWR_CTRL is
`exec_sleepRequest` and `State.writePwrCtrl_reset`. -/
theorem registerWrites : Obligations.RegisterWrites := by
  intro who v s pf up near by64
  have whole {off : Nat} {t : State} (h8 : off % 8 = 0) (seen : (s.readReg who off).isSome = true)
      (effect : s.writeReg who off 8 v.toNat = t) : by64 off t :=
    effect ▸ exec_wholeWrite v up h8 seen
  have status {off : Nat} {t : State} (h8 : off % 8 = 0) (h : off < 0x900)
      (seen : (s.statusPf who off).isSome = true) (effect : s.writeStatusReg who off v.toNat true true = t) :
      by64 (0x300000 + off) t :=
    whole (by omega) (s.readReg_status_isSome pf h seen) ((s.writeReg_status_whole who v h8 h).trans effect)
  refine ⟨?place, ?src, ?sc, ?dlq, ?pw, ?ro, ?pwr⟩
  case place =>
    refine status (off := 0x300) rfl (by decide) rfl ?_
    change s.writeRowPlace v.toNat = _
    rw [State.writeRowPlace, bitOf_toNat, clampTo_eq_ite (by decide), clampTo_eq_ite (by decide),
      clampTo_eq_ite (by decide)]
  case src =>
    intro c i hi
    refine whole (by omega) (s.readReg_srcCfg_isSome pf hi) ((s.writeReg_srcCfg who v (by omega)).trans ?_)
    rw [State.writeSrcCfg, if_pos hi, bitOf_toNat, bitOf_toNat]
  case sc =>
    intro copy t
    have latched : s.writeScSelect who (v.toNat % 2 ^ 32) = t :=
      s.writeScSelect_eq v who copy (fun x h => by simp only [copy, h]) (fun h => by simp only [copy, h])
    refine ⟨status (off := 0x200) rfl (by decide) rfl latched, ?_⟩
    rw [← latched]
    exact congrArg Host.Outcome.next (if_pos (State.pfOrI3c_of_up pf up))
  case dlq =>
    intro t
    have popped : s.popDlq v.toNat = t := by rw [State.popDlq, bitOf_toNat]
    refine ⟨status (off := 0x608) rfl (by decide) rfl popped, ?_⟩
    rw [← popped]
    exact congrArg Host.Outcome.next (if_pos (State.pfOrI3c_of_up pf up))
  case pw =>
    intro off h8 h
    obtain ⟨reg, rfl⟩ : ∃ reg, off = 0x800000 + reg := ⟨off - 0x800000, by omega⟩
    exact whole h8 (s.readReg_pm_isSome pf (by omega))
      ((s.writeReg_pm who v (by omega) (by omega)).trans (s.writePmReg_counts (by omega)))
  case ro =>
    intro off h8 h
    by_cases region : off < 0x300000
    · refine whole h8 ?_ (s.writeReg_readOnly who v h8 (by omega))
      by_cases idrev : off < 8
      · obtain rfl : off = 0 := by omega
        rfl
      · obtain ⟨reg, rfl⟩ : ∃ reg, off = 0x200000 + reg := ⟨off - 0x200000, by omega⟩
        exact s.readReg_time_isSome (by omega) (by omega)
    · obtain ⟨reg, rfl⟩ : ∃ reg, off = 0x300000 + reg := ⟨off - 0x300000, by omega⟩
      have effect := s.writeStatusReg_readOnly who v (off := reg) (by omega) true true
      by_cases modStatus : reg = 0
      · subst modStatus
        exact whole rfl rfl ((s.writeReg_status_whole who v rfl (by decide)).trans effect)
      · exact status (by omega) (by omega) (s.statusPf_isSome (by omega) (by omega)) effect
  case pwr =>
    intro ceil
    have ceiling : clampTo 0 28 (bits v.toNat 24 5) = ceil := clampTo_eq_ite (by decide) _
    refine ⟨_, exec_sleepRequest pf up v, rfl, bitOf_toNat v 1, clampTo_eq_ite (by decide) _, ceiling, rfl, ?_, rfl, ?_⟩
    · intro d hd
      rw [← ceiling]
      exact s.die_writePwrFields v.toNat hd
    · intro h
      rw [exec_reset pf up h, s.writePwrCtrl_reset h]

end Sys2Proof.Machine
end

section
/-! SUPPORT. What every command keeps, and the statement on the queue's rest and the part. -/

namespace Sys2Proof.Machine

open Sys2Proof Sys2Proof.Stated

/-- Every command keeps what `Keeps` names: the queue's rest, the part, its METAL and the form of every memory. One arm for
each command, as in `exec`. -/
theorem exec_keeps (c : Instr) (s t : State) : exec c s = .next t → Keeps s t :=
  match c with
  | .nop p => execNop_keeps p s t
  | .loadProgram p => execLoadProgram_keeps p s t
  | .launch p => execLaunch_keeps p s t
  | .tableCreate p => execTableCreate_keeps p s t
  | .tableReplace p => execTableReplace_keeps p s t
  | .graphLoad p => execGraphLoad_keeps p s t
  | .contextCreate p => execContextCreate_keeps p s t
  | .contextPreempt p => execContextPreempt_keeps p s t
  | .contextResume p => execContextResume_keeps p s t
  | .contextDestroy p => execContextDestroy_keeps p s t
  | .contextReset p => execContextReset_keeps p s t
  | .snapshot p => execSnapshot_keeps p s t
  | .restore p => execRestore_keeps p s t
  | .scheduleLoad p => execScheduleLoad_keeps p s t
  | .roleAssign p => execRoleAssign_keeps p s t
  | .spareArm p => execSpareArm_keeps p s t
  | .takeover p => execTakeover_keeps p s t
  | .frankRead p => execFrankRead_keeps p s t
  | .selftest p => execSelftest_keeps p s t
  | .unlistedOpcodePacket opcode p => execUnlistedOpcodePacket_keeps opcode p s t
  | .setLayout path p verified => execSetLayout_keeps path p verified s t
  | .setIso path p verified => execSetIso_keeps path p verified s t
  | .setPool path p verified => execSetPool_keeps path p verified s t
  | .setLimits path p verified => execSetLimits_keeps path p verified s t
  | .setTime path p verified => execSetTime_keeps path p verified s t
  | .setKey path p verified => execSetKey_keeps path p verified s t
  | .revokeKey path p verified => execRevokeKey_keeps path p verified s t
  | .stageFirmware path p verified => execStageFirmware_keeps path p verified s t
  | .unknownPostmasterOp path p verified => execUnknownPostmasterOp_keeps path p verified s t
  | .commandStart ctx seq => execCommandStart_keeps ctx seq s t
  | .commandComplete ctx seq => execCommandComplete_keeps ctx seq s t
  | .translationComplete ctx seq => execTranslationComplete_keeps ctx seq s t
  | .kernelEnd team => execKernelEnd_keeps team s t
  | .sqCfgEnable fn value => execSqCfgEnable_keeps fn value s t
  | .sqDoorbell fn value => execSqDoorbell_keeps fn value s t
  | .rqCfgEnable fn value => execRqCfgEnable_keeps fn value s t
  | .rqConsumed fn value => execRqConsumed_keeps fn value s t
  | .lbStatusRead fn => execLbStatusRead_keeps fn s t
  | .scSelect who value => execScSelect_keeps who value s t
  | .pendWrite fn g value => execPendWrite_keeps fn g value s t
  | .maskWrite fn g value => execMaskWrite_keeps fn g value s t
  | .rearm fn value => execRearm_keeps fn value s t
  | .srcStateRead who g => execSrcStateRead_keeps who g s t
  | .dlqPop who value => execDlqPop_keeps who value s t
  | .pwrStatusRead who => execPwrStatusRead_keeps who s t
  | .sleepRequest who value => execSleepRequest_keeps who value s t
  | .reset who value => execReset_keeps who value s t
  | .registerWrite who offset width value => execRegisterWrite_keeps who offset width value s t
  | .lowHalfRead who offset => execLowHalfRead_keeps who offset s t
  | .highHalfRead who offset => execHighHalfRead_keeps who offset s t
  | .bar0InvalidAccess who offset len kind => execBar0InvalidAccess_keeps who offset len kind s t
  | .bar2Read fn offset len => execBar2Read_keeps fn offset len s t
  | .bar2Write fn offset data => execBar2Write_keeps fn offset data s t
  | .functionLevelReset fn => execFunctionLevelReset_keeps fn s t
  | .read64 offset => execRead64_keeps offset s t
  | .write64 offset value => execWrite64_keeps offset value s t
  | .read32 offset => execRead32_keeps offset s t
  | .mctpControl request => execMctpControl_keeps request s t
  | .pldm kind sensor => execPldm_keeps kind sensor s t
  | .dynamicAddressAssign address => execDynamicAddressAssign_keeps address s t
  | .nopInstruction team x => execNopInstruction_keeps team x s t
  | .endI team x => execEndI_keeps team x s t
  | .br team x => execBr_keeps team x s t
  | .brAny team x => execBrAny_keeps team x s t
  | .brAll team x => execBrAll_keeps team x s t
  | .loop team x => execLoop_keeps team x s t
  | .endloop team x => execEndloop_keeps team x s t
  | .statptr team x => execStatptr_keeps team x s t
  | .pmread team x => execPmread_keeps team x s t
  | .mov team x => execMov_keeps team x s t
  | .movhi team x => execMovhi_keeps team x s t
  | .ldc team x => execLdc_keeps team x s t
  | .ld team x => execLd_keeps team x s t
  | .st team x => execSt_keeps team x s t
  | .add team x => execAdd_keeps team x s t
  | .sub team x => execSub_keeps team x s t
  | .mul team x => execMul_keeps team x s t
  | .mulhiS team x => execMulhiS_keeps team x s t
  | .mulhiU team x => execMulhiU_keeps team x s t
  | .divU team x => execDivU_keeps team x s t
  | .remU team x => execRemU_keeps team x s t
  | .andI team x => execAndI_keeps team x s t
  | .orI team x => execOrI_keeps team x s t
  | .xorI team x => execXorI_keeps team x s t
  | .shl team x => execShl_keeps team x s t
  | .shr team x => execShr_keeps team x s t
  | .sar team x => execSar_keeps team x s t
  | .minS team x => execMinS_keeps team x s t
  | .minU team x => execMinU_keeps team x s t
  | .maxS team x => execMaxS_keeps team x s t
  | .maxU team x => execMaxU_keeps team x s t
  | .cmpEq team x => execCmpEq_keeps team x s t
  | .cmpNe team x => execCmpNe_keeps team x s t
  | .cmpLt team x => execCmpLt_keeps team x s t
  | .cmpLe team x => execCmpLe_keeps team x s t
  | .cmpLtu team x => execCmpLtu_keeps team x s t
  | .cmpLeu team x => execCmpLeu_keeps team x s t
  | .fadd team x => execFadd_keeps team x s t
  | .fsub team x => execFsub_keeps team x s t
  | .fmul team x => execFmul_keeps team x s t
  | .fma team x => execFma_keeps team x s t
  | .fmin team x => execFmin_keeps team x s t
  | .fmax team x => execFmax_keeps team x s t
  | .itof team x => execItof_keeps team x s t
  | .ftoi team x => execFtoi_keeps team x s t
  | .fcmpEq team x => execFcmpEq_keeps team x s t
  | .fcmpLt team x => execFcmpLt_keeps team x s t
  | .fcmpLe team x => execFcmpLe_keeps team x s t
  | .pand team x => execPand_keeps team x s t
  | .por team x => execPor_keeps team x s t
  | .pxor team x => execPxor_keeps team x s t
  | .pnot team x => execPnot_keeps team x s t
  | .pset team x => execPset_keeps team x s t
  | .pget team x => execPget_keeps team x s t
  | .cset team x => execCset_keeps team x s t
  | .cget team x => execCget_keeps team x s t
  | .desc team x => execDesc_keeps team x s t
  | .tsetbase team x => execTsetbase_keeps team x s t
  | .taddbase team x => execTaddbase_keeps team x s t
  | .tsetdim team x => execTsetdim_keeps team x s t
  | .tsetstride team x => execTsetstride_keeps team x s t
  | .tsettype team x => execTsettype_keeps team x s t
  | .tgetbase team x => execTgetbase_keeps team x s t
  | .tflip team x => execTflip_keeps team x s t
  | .tcopy team x => execTcopy_keeps team x s t
  | .tfill team x => execTfill_keeps team x s t
  | .mma team x => execMma_keeps team x s t
  | .mmaDrv team x => execMmaDrv_keeps team x s t
  | .mmaAcs team x => execMmaAcs_keeps team x s t
  | .acsRead team x => execAcsRead_keeps team x s t
  | .acsZero team x => execAcsZero_keeps team x s t
  | .tileQueueDrain team core => execTileQueueDrain_keeps team core s t
  | .vadd team x => execVadd_keeps team x s t
  | .vsub team x => execVsub_keeps team x s t
  | .vmul team x => execVmul_keeps team x s t
  | .vdiv team x => execVdiv_keeps team x s t
  | .vmax team x => execVmax_keeps team x s t
  | .vmin team x => execVmin_keeps team x s t
  | .vfma team x => execVfma_keeps team x s t
  | .vand team x => execVand_keeps team x s t
  | .vor team x => execVor_keeps team x s t
  | .vxor team x => execVxor_keeps team x s t
  | .vshl team x => execVshl_keeps team x s t
  | .vshr team x => execVshr_keeps team x s t
  | .vneg team x => execVneg_keeps team x s t
  | .vabs team x => execVabs_keeps team x s t
  | .vsqrt team x => execVsqrt_keeps team x s t
  | .vrsqrt team x => execVrsqrt_keeps team x s t
  | .vrcp team x => execVrcp_keeps team x s t
  | .vexp team x => execVexp_keeps team x s t
  | .vlog team x => execVlog_keeps team x s t
  | .vtanh team x => execVtanh_keeps team x s t
  | .vsigmoid team x => execVsigmoid_keeps team x s t
  | .vgelu team x => execVgelu_keeps team x s t
  | .vsilu team x => execVsilu_keeps team x s t
  | .vrelu team x => execVrelu_keeps team x s t
  | .vlrelu team x => execVlrelu_keeps team x s t
  | .vcvt team x => execVcvt_keeps team x s t
  | .vcmpEq team x => execVcmpEq_keeps team x s t
  | .vcmpLt team x => execVcmpLt_keeps team x s t
  | .vcmpLe team x => execVcmpLe_keeps team x s t
  | .vsel team x => execVsel_keeps team x s t
  | .vrand team x => execVrand_keeps team x s t
  | .vdropout team x => execVdropout_keeps team x s t
  | .vredAdd team x => execVredAdd_keeps team x s t
  | .vredMax team x => execVredMax_keeps team x s t
  | .vredMin team x => execVredMin_keeps team x s t
  | .scan op team x => execScan_keeps op team x s t
  | .segscan op team x => execSegscan_keeps op team x s t
  | .segred op team x => execSegred_keeps op team x s t
  | .gatherRows team x => execGatherRows_keeps team x s t
  | .gatherStaged team x => execGatherStaged_keeps team x s t
  | .gatherEdge team x => execGatherEdge_keeps team x s t
  | .gatherRoute team x => execGatherRoute_keeps team x s t
  | .mergeBsr team x => execMergeBsr_keeps team x s t
  | .maskBind team x => execMaskBind_keeps team x s t
  | .sampleUniform team x => execSampleUniform_keeps team x s t
  | .sampleWeighted team x => execSampleWeighted_keeps team x s t
  | .sampleRecent team x => execSampleRecent_keeps team x s t
  | .sampleWalk team x => execSampleWalk_keeps team x s t
  | .parcelInfo team x => execParcelInfo_keeps team x s t
  | .parcelFree team x => execParcelFree_keeps team x s t
  | .tblPrefetch team x => execTblPrefetch_keeps team x s t
  | .tblRelease team x => execTblRelease_keeps team x s t
  | .tblVersion team x => execTblVersion_keeps team x s t
  | .updTensor team x => execUpdTensor_keeps team x s t
  | .updRows team x => execUpdRows_keeps team x s t
  | .updNorm team x => execUpdNorm_keeps team x s t
  | .signalAdd team x => execSignalAdd_keeps team x s t
  | .signalSub team x => execSignalSub_keeps team x s t
  | .syncInit team x => execSyncInit_keeps team x s t
  | .watchGe team x => execWatchGe_keeps team x s t
  | .watchEq team x => execWatchEq_keeps team x s t
  | .watchClaim team x => execWatchClaim_keeps team x s t
  | .fenceLocal team x => execFenceLocal_keeps team x s t
  | .fenceModule team x => execFenceModule_keeps team x s t
  | .fenceFabric team x => execFenceFabric_keeps team x s t
  | .commitArrive team x => execCommitArrive_keeps team x s t
  | .collRedscat team x => execCollRedscat_keeps team x s t
  | .collAllgather team x => execCollAllgather_keeps team x s t
  | .collAllreduce team x => execCollAllreduce_keeps team x s t
  | .collBcast team x => execCollBcast_keeps team x s t
  | .collHalo team x => execCollHalo_keeps team x s t
  | .collectiveComplete role number => execCollectiveComplete_keeps role number s t
  | .samplerTakeRequest team => execSamplerTakeRequest_keeps team s t
  | .parcelComplete team => execParcelComplete_keeps team s t
  | .stagingStart team => execStagingStart_keeps team s t
  | .stagingComplete team slot => execStagingComplete_keeps team slot s t
  | .updateRequestBegin team => execUpdateRequestBegin_keeps team s t
  | .updateRequestComplete team => execUpdateRequestComplete_keeps team s t
  | .placementWindowEnd team choice => execPlacementWindowEnd_keeps team choice s t
  | .migrationDrained team => execMigrationDrained_keeps team s t
  | .migrationSwapped team => execMigrationSwapped_keeps team s t
  | .tableReplaceFlip ctx table => execTableReplaceFlip_keeps ctx table s t
  | .timeFrame port frame => execTimeFrame_keeps port frame s t
  | .timeFrameSend => execTimeFrameSend_keeps s t
  | .lockLoss cause => execLockLoss_keeps cause s t
  | .masterTimeout => execMasterTimeout_keeps s t
  | .ppsEdge => execPpsEdge_keeps s t
  | .referenceLoss cause => execReferenceLoss_keeps cause s t
  | .roundBoundary => execRoundBoundary_keeps s t
  | .scheduleActivate => execScheduleActivate_keeps s t
  | .slotSend entry => execSlotSend_keeps entry s t
  | .barrierRelease index => execBarrierRelease_keeps index s t
  | .prefetchDeadline team slot => execPrefetchDeadline_keeps team slot s t
  | .snapshotStart ctx => execSnapshotStart_keeps ctx s t
  | .snapshotComplete ctx => execSnapshotComplete_keeps ctx s t
  | .frankingBoundary => execFrankingBoundary_keeps s t
  | .preemptionPoint ctx => execPreemptionPoint_keeps ctx s t
  | .quiesceTimeout ctx => execQuiesceTimeout_keeps ctx s t
  | .preemptSaveComplete ctx => execPreemptSaveComplete_keeps ctx s t
  | .resumeRestore ctx => execResumeRestore_keeps ctx s t
  | .frameForward port frame => execFrameForward_keeps port frame s t
  | .syncOperationFrame port frame => execSyncOperationFrame_keeps port frame s t
  | .syncReplyFrame port frame => execSyncReplyFrame_keeps port frame s t
  | .barrierArrival index => execBarrierArrival_keeps index s t
  | .fabricWriteFrame port frame => execFabricWriteFrame_keeps port frame s t
  | .fabricReadRequest port frame => execFabricReadRequest_keeps port frame s t
  | .fabricReadData port frame => execFabricReadData_keeps port frame s t
  | .mirrorWrite port frame => execMirrorWrite_keeps port frame s t
  | .mirrorWriteAck port frame => execMirrorWriteAck_keeps port frame s t
  | .divertedMailbagPart port frame => execDivertedMailbagPart_keeps port frame s t
  | .mailbagAcknowledgement port frame => execMailbagAcknowledgement_keeps port frame s t
  | .collectiveControl port frame => execCollectiveControl_keeps port frame s t
  | .returnedFrame port frame => execReturnedFrame_keeps port frame s t
  | .flowBreak src dest => execFlowBreak_keeps src dest s t
  | .mailbagArrive port bag corrected damaged => execMailbagArrive_keeps port bag corrected damaged s t
  | .mailbagResendTimeout channel chanSeq => execMailbagResendTimeout_keeps channel chanSeq s t
  | .roleAdvertisement port advert => execRoleAdvertisement_keeps port advert s t
  | .roleLossTimeout postcode => execRoleLossTimeout_keeps postcode s t
  | .autoTakeover postcode => execAutoTakeover_keeps postcode s t
  | .joinReleaseReceived postcode release => execJoinReleaseReceived_keeps postcode release s t
  | .takeoverCopyComplete copies failed => execTakeoverCopyComplete_keeps copies failed s t
  | .homeRelayWindowEnd index => execHomeRelayWindowEnd_keeps index s t
  | .snapshotRecordReceived postcode header streams => execSnapshotRecordReceived_keeps postcode header streams s t
  | .portPartnerDetect port => execPortPartnerDetect_keeps port s t
  | .trainingComplete port result => execTrainingComplete_keeps port result s t
  | .portPartnerLoss port => execPortPartnerLoss_keeps port s t
  | .routeChange postcode port => execRouteChange_keeps postcode port s t
  | .laneRetire port lane => execLaneRetire_keeps port lane s t
  | .swapComplete port => execSwapComplete_keeps port s t
  | .cartridgeFail cartridge => execCartridgeFail_keeps cartridge s t
  | .cartridgeInsert cartridge => execCartridgeInsert_keeps cartridge s t
  | .cartridgeReady cartridge => execCartridgeReady_keeps cartridge s t
  | .coreFault team core => execCoreFault_keeps team core s t
  | .clusterFault team => execClusterFault_keeps team s t
  | .recoveryAuditComplete team passed => execRecoveryAuditComplete_keeps team passed s t
  | .pseudoChannelFault stack => execPseudoChannelFault_keeps stack s t
  | .spareFillComplete stack => execSpareFillComplete_keeps stack s t
  | .stackFault stack cause => execStackFault_keeps stack cause s t
  | .journalRebuildComplete => execJournalRebuildComplete_keeps s t
  | .mcHeartbeatMiss core => execMcHeartbeatMiss_keeps core s t
  | .journalReplay ctx => execJournalReplay_keeps ctx s t
  | .faultInAssert heldNs => execFaultInAssert_keeps heldNs s t
  | .stormWindowEnd => execStormWindowEnd_keeps s t
  | .stuckTimeout source => execStuckTimeout_keeps source s t
  | .powerOn => execPowerOn_keeps s t
  | .pwrEnRise => execPwrEnRise_keeps s t
  | .pwrEnFall => execPwrEnFall_keeps s t
  | .modResetAssert => execModResetAssert_keeps s t
  | .modResetRelease => execModResetRelease_keeps s t
  | .perst => execPerst_keeps s t
  | .startupStepComplete retired failed => execStartupStepComplete_keeps retired failed s t
  | .supplyOutOfRange vin => execSupplyOutOfRange_keeps vin s t
  | .supplyUndervoltage => execSupplyUndervoltage_keeps s t
  | .supplyOvervoltage => execSupplyOvervoltage_keeps s t
  | .thermalTrip die => execThermalTrip_keeps die s t
  | .frequencyAdjust die mhz millivolts tj => execFrequencyAdjust_keeps die mhz millivolts tj s t
  | .droopDetect die => execDroopDetect_keeps die s t
  | .stretchEnd die => execStretchEnd_keeps die s t
  | .dozeEntry => execDozeEntry_keeps s t
  | .sleepEntry => execSleepEntry_keeps s t
  | .sleepRefusal => execSleepRefusal_keeps s t
  | .wake => execWake_keeps s t
  | .energyInterval dieMillijoules restMillijoules => execEnergyInterval_keeps dieMillijoules restMillijoules s t
  | .telemetryRefresh vin iin pin pinPeak temps hubTj => execTelemetryRefresh_keeps vin iin pin pinPeak temps hubTj s t
  | .referenceAcquire => execReferenceAcquire_keeps s t
  | .updNormComplete team => execUpdNormComplete_keeps team s t
  | .fabricWriteAck port frame => execFabricWriteAck_keeps port frame s t
  | .collectiveDataFrame port frame => execCollectiveDataFrame_keeps port frame s t
  | .releaseRelay index release => execReleaseRelay_keeps index release s t
  | .linkLevelResend port failed => execLinkLevelResend_keeps port failed s t
  | .dieLinkFault die => execDieLinkFault_keeps die s t
  | .railFault => execRailFault_keeps s t
  | .supplyInRange vin => execSupplyInRange_keeps vin s t
  | .tjLimitCrossing die tj => execTjLimitCrossing_keeps die tj s t
  | .faultInRelease => execFaultInRelease_keeps s t
  | .configurationWrite fn what => execConfigurationWrite_keeps fn what s t

/-- IDREV is made of the grade and METAL alone (R502). -/
theorem Keeps.readReg_idrev {s t : State} (k : Keeps s t) (who : Nat) : t.readReg who 0 = s.readReg who 0 := by
  change some t.idrev = some s.idrev
  rw [State.idrev, State.idrev, k.part, k.metal]

/-- Settles O3: what every command keeps (`exec_keeps`), and IDREV, which is made of the part and METAL. -/
theorem commandsKeepQueueAndPart : Obligations.CommandsKeepQueueAndPart := by
  intro c s t h
  have k := exec_keeps c s t h
  exact ⟨k.pending, k.part, k.metal, k.readReg_idrev⟩

end Sys2Proof.Machine
end

section
/-! SUPPORT. Tiles in CORE memory (spec/04 R116 to R118, spec/06 R175): what a memory reads as after cells were written to
it, and that a tile which was written reads back element by element. -/

namespace Sys2Proof.Machine

open Sys2Proof Sys2Proof.Stated

/-! ### Numbers and their bytes -/

theorem length_leBytes (n x : Nat) : (leBytes n x).length = n := by
  induction n generalizing x with
  | zero => rfl
  | succ n ih => simp [leBytes, ih]

theorem leNat_leBytes (n x : Nat) : leNat (leBytes n x) = x % 2 ^ (8 * n) := by
  induction n generalizing x with
  | zero => simp [leBytes, leNat, Nat.mod_one]
  | succ n ih =>
    rw [leBytes, leNat, ih, show 8 * (n + 1) = 8 + 8 * n by omega, Nat.pow_add, Nat.mod_mul]
    rfl

/-- The bytes of a list, taken one by one. -/
theorem map_getD_range (l : List Byte) : (List.range l.length).map (fun k => l.getD k 0) = l := by
  apply List.ext_getElem <;> simp +contextual

/-- A field below bit `n` is not changed by cutting the number off there. -/
theorem bits_mod {x lo w n : Nat} (h : lo + w ≤ n) : bits (x % 2 ^ n) lo w = bits x lo w := by
  obtain ⟨r, rfl⟩ := Nat.exists_eq_add_of_le h
  rw [bits, bits, Nat.pow_add, Nat.pow_add, Nat.mul_assoc, Nat.mod_mul_right_div_self,
    Nat.mod_mod_of_dvd _ (Nat.dvd_mul_right ..)]

/-- The number whose fields of `w` bits are `f 0`, `f 1`, up to `f (n - 1)`, each cut to `w` bits, above a start value. -/
def packed (w n : Nat) (f : Nat → Nat) (start : Nat) : Nat :=
  (List.range n).foldl (fun v k => v + f k % 2 ^ w * 2 ^ (w * k)) start

theorem packed_succ (w n : Nat) (f : Nat → Nat) (start : Nat) :
    packed w (n + 1) f start = packed w n f start + f n % 2 ^ w * 2 ^ (w * n) := by
  simp [packed, List.range_succ]

theorem packed_start (w n : Nat) (f : Nat → Nat) (start : Nat) : packed w n f start = start + packed w n f 0 := by
  induction n with
  | zero => rfl
  | succ n ih => rw [packed_succ, ih, packed_succ, Nat.add_assoc]

theorem packed_lt (w n : Nat) (f : Nat → Nat) : packed w n f 0 < 2 ^ (w * n) := by
  induction n with
  | zero => simp [packed]
  | succ n ih =>
    have top : f n % 2 ^ w + 1 ≤ 2 ^ w := Nat.mod_lt _ (Nat.two_pow_pos w)
    calc packed w (n + 1) f 0 = packed w n f 0 + f n % 2 ^ w * 2 ^ (w * n) := packed_succ ..
      _ < (f n % 2 ^ w + 1) * 2 ^ (w * n) := by rw [Nat.add_one_mul]; omega
      _ ≤ 2 ^ w * 2 ^ (w * n) := Nat.mul_le_mul_right _ top
      _ = 2 ^ (w * (n + 1)) := by rw [← Nat.pow_add, Nat.mul_succ, Nat.add_comm]

/-- A multiple of a higher power of 2 does not meet a field. -/
theorem bits_add_mul {lo w n : Nat} (h : lo + w ≤ n) (x c : Nat) : bits (x + c * 2 ^ n) lo w = bits x lo w := by
  rw [← bits_mod h, Nat.add_mul_mod_self_right, bits_mod h]

/-- Field `i` of a packed number is `f i`. -/
theorem bits_packed {w n i : Nat} (hi : i < n) (f : Nat → Nat) (c : Nat) :
    bits (packed w n f (c * 2 ^ (w * n))) (w * i) w = f i % 2 ^ w := by
  have inside {m : Nat} (h : i < m) : w * i + w ≤ w * m := by
    rw [← Nat.mul_succ]; exact Nat.mul_le_mul_left w h
  rw [packed_start, Nat.add_comm, bits_add_mul (inside hi)]
  induction n with
  | zero => omega
  | succ n ih =>
    rw [packed_succ]
    by_cases e : i = n
    · subst e
      rw [bits, Nat.add_mul_div_right _ _ (Nat.two_pow_pos _), Nat.div_eq_of_lt (packed_lt w i f), Nat.zero_add,
        Nat.mod_mod]
    · have lt : i < n := by omega
      rw [bits_add_mul (inside lt), ih lt]

/-! ### Cells written to a memory -/

/-- Writing cells leaves every byte at which none of them lies. -/
theorem memGet_cells_outside {a : Nat} (l : List (Nat × Byte)) (m : Memory) (h : ∀ c ∈ l, c.1 ≠ a) :
    memGet (l.foldl (fun m c => memSet m c.1 c.2) m) a = memGet m a := by
  induction l generalizing m with
  | nil => rfl
  | cons c l ih =>
    rw [List.foldl_cons, ih _ fun d hd => h d (List.mem_cons_of_mem _ hd),
      memGet_memSet_ne m (h c List.mem_cons_self).symm]

/-- A byte reads as the cell written there, where all cells at its address agree. -/
theorem memGet_cells_inside {a : Nat} {b : Byte} (l : List (Nat × Byte)) (m : Memory) (hm : (a, b) ∈ l)
    (h : ∀ c ∈ l, c.1 = a → c.2 = b) : memGet (l.foldl (fun m c => memSet m c.1 c.2) m) a = b := by
  induction l generalizing m with
  | nil => simp at hm
  | cons c l ih =>
    have rest : ∀ d ∈ l, d.1 = a → d.2 = b := fun d hd => h d (List.mem_cons_of_mem _ hd)
    rw [List.foldl_cons]
    by_cases hl : (a, b) ∈ l
    · exact ih _ hl rest
    · obtain rfl : (a, b) = c := (List.mem_cons.mp hm).resolve_right hl
      rw [memGet_cells_outside, memGet_memSet_self]
      intro d hd e
      exact hl (by rw [← e, ← rest d hd e]; exact hd)

/-! ### The lines of a tile -/

/-- The number that line `l` of a tile is written as: its elements, below what stays of its last byte. -/
def TileDesc.lineNumber (rd : Nat → Byte) (d : TileDesc) (code : Nat → Nat → Nat) (l : Nat) : Nat :=
  packed (elemBits d.tyN) d.lineLen (fun k => code (d.rowCol l k).1 (d.rowCol l k).2)
    (leNat ((List.range d.lineBytes).map fun k => rd (d.lineAddr l + k)) / 2 ^ (elemBits d.tyN * d.lineLen) *
      2 ^ (elemBits d.tyN * d.lineLen))

/-- Byte `k` of line `l` as a tile is written. -/
def TileDesc.lineByte (rd : Nat → Byte) (d : TileDesc) (code : Nat → Nat → Nat) (l k : Nat) : Byte :=
  (leBytes d.lineBytes (d.lineNumber rd code l)).getD k 0

/-- The cells of a tile are the bytes of its lines and, for block types, its scales. -/
theorem mem_tileCells (rd : Nat → Byte) (d : TileDesc) (code scale : Nat → Nat → Nat) (c : Nat × Byte) :
    c ∈ tileCells rd d code scale ↔
      (∃ l < d.lines, ∃ k < d.lineBytes, (d.lineAddr l + k, d.lineByte rd code l k) = c) ∨
      isBlockTy d.tyN = true ∧ ∃ l < d.lines, ∃ b < d.lineBlocks,
        (d.scaleBase.toNat + 4 * l + b, BitVec.ofNat 8 (scale l b)) = c := by
  have shape : tileCells rd d code scale =
      ((List.range d.lines).flatMap fun l =>
        (List.range d.lineBytes).map fun k => (d.lineAddr l + k, d.lineByte rd code l k)) ++
      (if isBlockTy d.tyN then
        (List.range d.lines).flatMap fun l =>
          (List.range d.lineBlocks).map fun b => (d.scaleBase.toNat + 4 * l + b, BitVec.ofNat 8 (scale l b))
      else []) := rfl
  rw [shape, List.mem_append]
  cases isBlockTy d.tyN <;> simp

/-- The elements of a line fit its bytes. -/
theorem TileDesc.lineBits_le (d : TileDesc) : elemBits d.tyN * d.lineLen ≤ 8 * d.lineBytes := by
  rw [TileDesc.lineBytes, ceilDiv, Nat.mul_comm d.lineLen]
  omega

/-- Row and column of a place of a line name that line and place. -/
theorem TileDesc.rowCol_lineOf (d : TileDesc) (i j : Nat) : d.rowCol (d.lineOf i j) (d.idxOf i j) = (i, j) := by
  unfold TileDesc.rowCol TileDesc.lineOf TileDesc.idxOf
  cases d.colMajor <;> rfl

theorem TileDesc.lineOf_lt {d : TileDesc} {i j : Nat} (hi : i < d.rows) (hj : j < d.cols) :
    d.lineOf i j < d.lines ∧ d.idxOf i j < d.lineLen := by
  unfold TileDesc.lineOf TileDesc.idxOf TileDesc.lines TileDesc.lineLen
  cases d.colMajor
  · exact ⟨hi, hj⟩
  · exact ⟨hj, hi⟩

/-- A memory that holds the written bytes of every line reads as the written elements. -/
theorem code_loadTile_written {rd old : Nat → Byte} {d : TileDesc} {code : Nat → Nat → Nat}
    (h : ∀ l < d.lines, ∀ k < d.lineBytes, rd (d.lineAddr l + k) = d.lineByte old code l k) {i j : Nat}
    (hi : i < d.rows) (hj : j < d.cols) : (loadTile rd d).code i j = code i j % 2 ^ elemBits d.tyN := by
  obtain ⟨hl, hk⟩ := TileDesc.lineOf_lt hi hj
  have line : leNat ((List.range d.lineBytes).map fun k => rd (d.lineAddr (d.lineOf i j) + k)) =
      d.lineNumber old code (d.lineOf i j) % 2 ^ (8 * d.lineBytes) := by
    have bytes : (List.range d.lineBytes).map (fun k => rd (d.lineAddr (d.lineOf i j) + k)) =
        leBytes d.lineBytes (d.lineNumber old code (d.lineOf i j)) := by
      rw [← map_getD_range (leBytes ..), length_leBytes]
      exact List.map_congr_left fun k hk => h _ hl k (List.mem_range.mp hk)
    rw [bytes, leNat_leBytes]
  have fits : elemBits d.tyN * d.idxOf i j + elemBits d.tyN ≤ 8 * d.lineBytes := by
    refine Nat.le_trans ?_ d.lineBits_le
    rw [← Nat.mul_succ]
    exact Nat.mul_le_mul_left _ hk
  have read : (loadTile rd d).code i j =
      bits (d.lineNumber old code (d.lineOf i j) % 2 ^ (8 * d.lineBytes)) (elemBits d.tyN * d.idxOf i j)
        (elemBits d.tyN) := by
    rw [← line]
    simp [TileData.code, loadTile, hl]
  rw [read, bits_mod fits, TileDesc.lineNumber, bits_packed hk, TileDesc.rowCol_lineOf]

/-! ### A tile written to CORE -/

/-- The bytes of a tile's lines lie in its first extent. -/
theorem TileDesc.lineAddr_inside (d : TileDesc) {l k : Nat} (hl : l < d.lines) (hk : k < d.lineBytes) :
    d.base.toNat ≤ d.lineAddr l + k ∧
      d.lineAddr l + k < d.base.toNat + ((d.lines - 1) * d.stride.toNat + d.lineBytes) := by
  have : l * d.stride.toNat ≤ (d.lines - 1) * d.stride.toNat := Nat.mul_le_mul_right _ (by omega)
  unfold TileDesc.lineAddr
  omega

/-- Where lines do not overlap, an address belongs to one byte of one line. -/
theorem TileDesc.lineAddr_inj {d : TileDesc} (h : d.lineBytes ≤ d.stride.toNat) {l l' k k' : Nat}
    (hk : k < d.lineBytes) (hk' : k' < d.lineBytes) (e : d.lineAddr l + k = d.lineAddr l' + k') : l = l' ∧ k = k' := by
  have before {i j : Nat} (hij : i < j) : i * d.stride.toNat + d.stride.toNat ≤ j * d.stride.toNat := by
    rw [← Nat.succ_mul]; exact Nat.mul_le_mul_right _ hij
  unfold TileDesc.lineAddr at e
  obtain lt | rfl | gt := Nat.lt_trichotomy l l'
  · have := before lt; omega
  · omega
  · have := before gt; omega

/-- Scales that do not meet the elements of their tile lie outside every line. -/
theorem TileDesc.scale_outside_lines {d : TileDesc}
    (h : d.extents.Pairwise fun a b => rangesMeet a b = false) (hb : isBlockTy d.tyN = true) {l l' k b : Nat}
    (hl : l < d.lines) (hk : k < d.lineBytes) (hl' : l' < d.lines) (hbl : b < d.lineBlocks) :
    d.scaleBase.toNat + 4 * l' + b ≠ d.lineAddr l + k := by
  have apart : rangesMeet (d.base.toNat, (d.lines - 1) * d.stride.toNat + d.lineBytes)
      (d.scaleBase.toNat, 4 * (d.lines - 1) + d.lineBlocks) = false := by
    rw [TileDesc.extents, if_pos hb] at h
    exact List.rel_of_pairwise_cons h List.mem_cons_self
  have inside := d.lineAddr_inside hl hk
  simp only [rangesMeet, Bool.and_eq_false_iff, decide_eq_false_iff_not] at apart
  omega

/-- A tile within CORE_BYTES has every byte of its lines there (R116). -/
theorem State.usable_line {s : State} {t : Nat} {d : TileDesc} (h : s.coreOutside t d = false) {l k : Nat}
    (hl : l < d.lines) (hk : k < d.lineBytes) : s.usable t 0 (d.lineAddr l + k) = true := by
  have last : s.usable t 0 (d.lineAddr l + d.lineBytes - 1) = true := by
    have line := List.any_eq_false.mp h l (List.mem_range.mpr hl)
    simp only [Bool.or_eq_true, Bool.not_eq_true', not_or, Bool.not_eq_false] at line
    exact line.1.2
  simp only [State.usable, if_true, decide_eq_true_eq] at last ⊢
  omega

/-- Cells of a tile that can be written whole, written to a memory, leave the written bytes in every line. -/
theorem memGet_tileCells {s : State} {t q : Nat} {x : Args} {d : TileDesc} (h : writable s t q x d) (rd : Nat → Byte)
    (code scale : Nat → Nat → Nat) (m : Memory) {l k : Nat} (hl : l < d.lines) (hk : k < d.lineBytes) :
    memGet (((tileCells rd d code scale).filter fun c => s.usable t 0 c.1).foldl (fun m c => memSet m c.1 c.2) m)
      (d.lineAddr l + k) = d.lineByte rd code l k := by
  obtain ⟨lines, inside, apart, -⟩ := h
  apply memGet_cells_inside
  · exact List.mem_filter.mpr ⟨(mem_tileCells ..).mpr (.inl ⟨l, hl, k, hk, rfl⟩), State.usable_line inside hl hk⟩
  · intro c hc e
    obtain ⟨l', -, k', hk', rfl⟩ | ⟨hb, l', hl', b, hbl, rfl⟩ := (mem_tileCells ..).mp (List.mem_filter.mp hc).1
    · obtain ⟨rfl, rfl⟩ := TileDesc.lineAddr_inj lines hk' hk e
      rfl
    · exact absurd e (TileDesc.scale_outside_lines apart hb hl hk hl' hbl)

end Sys2Proof.Machine
end

section
/-! SUPPORT. Writes of one core (spec/04 R121, R144, spec/05 R147): what a store, a status record, an instruction that one
core executes and the end of a gather leave in the team and in the core. -/

namespace Sys2Proof.Machine

open Sys2Proof Sys2Proof.Stated

/-! ### Stores and views -/

/-- The cells of a store that stay: in a byte that an unordered write of another holds, either value may (R121). -/
def State.keptCells (s : State) (a : Accessor) (p : Place) (cells : List (Nat × Byte)) : List (Nat × Byte) :=
  cells.filter fun c =>
    !((s.unfenced.filter fun e => e.place == p && e.open_ a).any fun e => e.cells.any fun o => o.1 == c.1) ||
      Config.choice s.free (choiceKey 65536 c.1 a)

theorem State.mem_of_mem_keptCells {s : State} {a : Accessor} {p : Place} {cells : List (Nat × Byte)} {c : Nat × Byte}
    (h : c ∈ s.keptCells a p cells) : c ∈ cells := (List.mem_filter.mp h).1

theorem State.openAt_settled {s : State} {p : Place} (h : ∀ e ∈ s.unfenced, e.place ≠ p) (a : Accessor) :
    (s.unfenced.filter fun e => e.place == p && e.open_ a) = [] :=
  List.filter_eq_nil_iff.mpr fun e he => by simp [h e he]

/-- A store at a place where nothing is unordered stays whole. -/
theorem State.keptCells_settled {s : State} {p : Place} (h : ∀ e ∈ s.unfenced, e.place ≠ p) (a : Accessor)
    (cells : List (Nat × Byte)) : s.keptCells a p cells = cells := by
  simp [State.keptCells, State.openAt_settled h]

/-- An access to a place where nothing is unordered sees its memory. -/
theorem State.view_settled {s : State} {p : Place} (h : ∀ e ∈ s.unfenced, e.place ≠ p) (a : Accessor) :
    s.view a p = s.memAt p := by
  rw [State.view, State.openAt_settled h]
  rfl

/-- A store in a core changes the core's memory, and no more of the team. -/
theorem State.team_store_core (s : State) (a : Accessor) (t q : Nat) (cells : List (Nat × Byte)) :
    (s.store a (.core t q) cells).team t = (s.team t).modCore q fun k =>
      { k with mem := (s.keptCells a (.core t q) cells).foldl (fun m c => memSet m c.1 c.2) k.mem } := by
  have written : (s.setMemAt (.core t q) ((s.keptCells a (.core t q) cells).foldl (fun m c => memSet m c.1 c.2)
      (s.memAt (.core t q)))).team t = (s.team t).modCore q fun k =>
        { k with mem := (s.keptCells a (.core t q) cells).foldl (fun m c => memSet m c.1 c.2) k.mem } :=
    State.team_modTeam_self ..
  unfold State.store
  dsimp only
  split
  · exact written
  · exact written

theorem State.core_store_core (s : State) (a : Accessor) (t q : Nat) (cells : List (Nat × Byte)) :
    (s.store a (.core t q) cells).core t q = { s.core t q with
      mem := (s.keptCells a (.core t q) cells).foldl (fun m c => memSet m c.1 c.2) (s.core t q).mem } := by
  rw [State.core, State.team_store_core, Team.core_modCore_self]
  rfl

/-- A store in CLUSTER changes the team's CLUSTER memory, and no more of the team. -/
theorem State.team_store_cluster (s : State) (a : Accessor) (t : Nat) (cells : List (Nat × Byte)) :
    (s.store a (.cluster t) cells).team t = { s.team t with
      cluster := (s.keptCells a (.cluster t) cells).foldl (fun m c => memSet m c.1 c.2) (s.team t).cluster } := by
  have written : (s.setMemAt (.cluster t) ((s.keptCells a (.cluster t) cells).foldl (fun m c => memSet m c.1 c.2)
      (s.memAt (.cluster t)))).team t = { s.team t with
        cluster := (s.keptCells a (.cluster t) cells).foldl (fun m c => memSet m c.1 c.2) (s.team t).cluster } :=
    State.team_modTeam_self ..
  unfold State.store
  dsimp only
  split
  · exact written
  · exact written

/-! ### The end of an instruction in a core -/

@[simp] theorem State.team_modCtx (s : State) (c : W32) (f : Ctx → Ctx) (t : Nat) : (s.modCtx c f).team t = s.team t := by
  unfold State.modCtx
  split <;> rfl

@[simp] theorem State.team_addEvents (s : State) (t : Nat) (e : Events) (r : Nat) :
    (s.addEvents t e).team r = s.team r := by
  unfold State.addEvents
  split
  · rfl
  · exact State.team_modCtx ..

/-- What counting events and writing the status record of an instruction leave of the team and of the core: the core's
number and the bytes of the record apart, everything. -/
structure FinishedIn (s u : State) (t q : Nat) (x : Args) : Prop where
  team : u.team t = { s.team t with cores := (u.team t).cores }
  core : u.core t q = { s.core t q with number := (u.core t q).number, mem := (u.core t q).mem }
  mem : ∀ a, ¬ inRecord s t q x a → memGet (u.core t q).mem a = memGet (s.core t q).mem a

theorem FinishedIn.of_team_eq {s u : State} {t q : Nat} {x : Args} (h : u.team t = s.team t) : FinishedIn s u t q x where
  team := by rw [h]
  core := by rw [State.core, State.core, h]
  mem _ _ := by rw [State.core, State.core, h]

/-- Writing the status record of an instruction changes the core's number and the bytes of the record (R144, R198). -/
theorem State.writeStatus_finishedIn (s : State) (t q : Nat) (w : LumfyWord) (e : Events) (b : Bool) :
    FinishedIn s (s.writeStatus t q w e b) t q w.args := by
  unfold State.writeStatus
  split
  · exact .of_team_eq rfl
  · rename_i p hp
    split
    · rename_i record
      dsimp only
      generalize (statusRecord e w.code w.args.ty b ((s.core t q).number + 1)) = bytes
      refine ⟨?_, ?_, fun a ha => ?_⟩
      · rw [State.team_store_core, State.modCore, State.team_modTeam_self]; rfl
      · rw [State.core_store_core, State.core_modCore_self]
      · rw [State.core_store_core, State.core_modCore_self]
        refine memGet_cells_outside _ _ fun c hc hca => ha ⟨p, by rw [recordRange, if_pos record, hp], ?_⟩
        obtain ⟨i, hi, rfl⟩ := List.mem_map.mp (State.mem_of_mem_keptCells hc)
        have := List.mem_range.mp hi
        simp only at hca
        omega
    · exact .of_team_eq rfl

/-- Completing an instruction changes its status record alone: the events are counted in the context (R197). -/
theorem State.finish_finishedIn (s : State) (t q : Nat) (w : LumfyWord) (e : Events) (b : Bool) :
    FinishedIn s (s.finish t q w e b) t q w.args := by
  have team := State.team_addEvents s t e t
  have core : (s.addEvents t e).core t q = s.core t q := congrArg (Team.core · q) team
  have h := State.writeStatus_finishedIn (s.addEvents t e) t q w e b
  refine ⟨by rw [← team]; exact h.team, by rw [← core]; exact h.core, fun a ha => ?_⟩
  rw [← core]
  refine h.mem a fun ⟨p, hp, inside⟩ => ha ⟨p, ?_, inside⟩
  rw [recordRange, ← core]
  exact hp

/-! ### An instruction that one core executes -/

/-- An instruction that one core executes, and that leaves the team's kernel as it is, acts there and moves the pc on. -/
theorem State.issue_single {s : State} {t q : Nat} {w : LumfyWord} (h : s.canIssue t w = true)
    (hm : (s.team t).masked w.args.pred = [q]) (f : State → Nat → State)
    (hk : ((f s.bumpFree q).team t).kernel = (s.team t).kernel) : s.issue t w f = (f s.bumpFree q).nextPc t := by
  obtain ⟨k, kernel, running, -⟩ := State.canIssue_kernel h
  have moved : (((f s.bumpFree q).nextPc t).team t).kernel = some { k with pc := k.pc + 1 } := by
    rw [State.nextPc, State.modKernel, State.team_modTeam_self, hk, kernel]
    rfl
  rw [State.issue, if_pos h, hm, List.foldl_cons, List.foldl_nil, State.settle, moved]
  simp only [running]
  exact if_neg Bool.false_ne_true

theorem State.team_nextPc (s : State) (t : Nat) :
    (s.nextPc t).team t = { s.team t with kernel := (s.team t).kernel.map fun k => { k with pc := k.pc + 1 } } :=
  State.team_modTeam_self ..

@[simp] theorem State.core_nextPc (s : State) (t q : Nat) : (s.nextPc t).core t q = s.core t q := by
  rw [State.core, State.team_nextPc]
  rfl

/-! ### The end of a gather-class instruction -/

/-- Whether a list of cells and a tile have no byte in common. -/
def apartFrom (cells : List (Nat × Byte)) (d : TileDesc) : Prop :=
  ∀ c ∈ cells, ∀ e ∈ d.extents, c.1 < e.1 ∨ e.1 + e.2 ≤ c.1

/-- A gather-class instruction that STRICT does not stop sets D's descriptor, writes its bytes and the others within
CORE_BYTES, and completes (R147). -/
theorem State.gatherDone_loose {s : State} {t q n : Nat} {w : LumfyWord} (loose : strictOf w.args = false)
    (hd : w.args.d = .treg n) (d : TileDesc) (cells extra : List (Nat × Byte)) (ev : Events) (outside : Bool) :
    s.gatherDone t q w d cells extra ev outside =
      (((s.modCore t q fun k => k.setT n d).store ⟨t, some q, .gm, some n⟩ (.core t q)
          (cells.filter fun c => s.usable t 0 c.1)).store ⟨t, some q, .gm, none⟩ (.core t q)
          (extra.filter fun c => s.usable t 0 c.1)).finish t q w
        (ev.withAddr (outside || extra.any fun c => !s.usable t 0 c.1)) := by
  simp only [State.gatherDone, loose, Bool.false_and, Bool.false_eq_true, if_false, hd, tregOf]

/-- A byte of a line of D lies outside the status record and outside cells that are apart from D. -/
theorem TileDesc.lineAddr_clear {s : State} {t q : Nat} {x : Args} {d : TileDesc} {extra : List (Nat × Byte)}
    (whole : writable s t q x d) (clear : apartFrom extra d) {l k : Nat} (hl : l < d.lines) (hk : k < d.lineBytes) :
    ¬ inRecord s t q x (d.lineAddr l + k) ∧ ∀ c ∈ extra, c.1 ≠ d.lineAddr l + k := by
  have inside := d.lineAddr_inside hl hk
  have first : (d.base.toNat, (d.lines - 1) * d.stride.toNat + d.lineBytes) ∈ d.extents := List.mem_cons_self
  obtain ⟨-, -, -, record⟩ := whole
  constructor
  · rintro ⟨p, hp, within⟩
    have apart := record p hp _ first
    simp only [rangesMeet, Bool.and_eq_false_iff, decide_eq_false_iff_not] at apart
    omega
  · intro c hc
    have apart := clear c hc _ first
    simp only at apart
    omega

/-- A gather-class instruction that STRICT does not stop puts the descriptor in D and its elements where D lies, whatever it
writes elsewhere (R147, R210). -/
theorem State.gatherDone_tile {s : State} {t q n : Nat} {w : LumfyWord} {d : TileDesc} (loose : strictOf w.args = false)
    (hd : w.args.d = .treg n) (settledCore : settled s t q) (whole : writable s t q w.args d)
    {extra : List (Nat × Byte)} (clear : apartFrom extra d) (code scale : Nat → Nat → Nat) (ev : Events) (outside : Bool) :
    let u := s.gatherDone t q w d (tileCells (memGet (s.core t q).mem) d code scale) extra ev outside
    (u.team t).kernel = (s.team t).kernel ∧ (u.core t q).getT n = d ∧
      ∀ i j, i < d.rows → j < d.cols → (tileOf u t q d).code i j = code i j % 2 ^ elemBits d.tyN := by
  intro u
  generalize hv : ((s.modCore t q fun k => k.setT n d).store ⟨t, some q, .gm, some n⟩ (.core t q)
    ((tileCells (memGet (s.core t q).mem) d code scale).filter fun c => s.usable t 0 c.1)).store ⟨t, some q, .gm, none⟩
      (.core t q) (extra.filter fun c => s.usable t 0 c.1) = v
  have done : FinishedIn v u t q w.args := by
    rw [← hv, show u = _ from State.gatherDone_loose loose hd ..]
    exact State.finish_finishedIn ..
  have kernel : (v.team t).kernel = (s.team t).kernel := by
    rw [← hv, State.team_store_core, Team.modCore_kernel, State.team_store_core, Team.modCore_kernel, State.kernel_modCore]
  have core : v.core t q = { (s.core t q).setT n d with mem := (v.core t q).mem } := by
    rw [← hv, State.core_store_core, State.core_store_core, State.core_modCore_self]
  have record (a : Nat) : inRecord v t q w.args a ↔ inRecord s t q w.args a := by
    rw [inRecord, inRecord, recordRange, recordRange, core]
    rfl
  refine ⟨?_, ?_, fun i j hi hj => code_loadTile_written (old := memGet (s.core t q).mem) (fun l hl k hk => ?_) hi hj⟩
  · rw [done.team]
    exact kernel
  · rw [done.core, core]
    exact Core.getT_setT_self ..
  · obtain ⟨notRecord, notExtra⟩ := TileDesc.lineAddr_clear whole clear hl hk
    rw [done.mem _ (fun h => notRecord ((record _).mp h)), ← hv, State.core_store_core, State.core_store_core,
      State.core_modCore_self]
    rw [memGet_cells_outside _ _ fun c hc =>
        notExtra c (List.mem_filter.mp (State.mem_of_mem_keptCells hc)).1,
      State.keptCells_settled (s := s.modCore t q _) settledCore]
    exact memGet_tileCells whole _ _ _ _ hl hk

end Sys2Proof.Machine
end

section
/-! SUPPORT. MASK.BIND and MERGE.BSR of one core (spec/07 R217 to R227), and the statement about them. -/

namespace Sys2Proof.Machine

open Sys2Proof Sys2Proof.Stated

/-! ### MASK.BIND (R219) -/

/-- Whether a team's slot holds the mask of a description already (R219). -/
def Team.holdsMask (k : Team) (at_ : Nat) (r : List Byte) : Bool :=
  match mapGet k.masks (mSlot r) with
  | some m => m.addr == at_ && m.generation == mGeneration r
  | none => false

theorem Team.holdsMask_iff (k : Team) (at_ : Nat) (r : List Byte) : k.holdsMask at_ r = true ↔
    ∃ y, mapGet k.masks (mSlot r) = some y ∧ y.addr = at_ ∧ y.generation = mGeneration r := by
  unfold Team.holdsMask
  cases mapGet k.masks (mSlot r) <;> simp

/-- A core gives D a value and completes its instruction. -/
def State.answered (s : State) (t q : Nat) (w : LumfyWord) (v : W64) (e : Events) : State :=
  (s.modCore t q fun k => k.putD w.args v).finish t q w e

/-- Giving D a value changes the acting core alone, and its register reads as the value. -/
theorem State.answered_shape (s : State) (t q : Nat) {w : LumfyWord} {n : Nat} (hd : w.args.d = .sreg n) (v : W64)
    (e : Events) :
    let u := s.answered t q w v e
    u.team t = { s.team t with cores := (u.team t).cores } ∧ (u.core t q).getS n = v := by
  intro u
  have done : FinishedIn (s.modCore t q fun k => k.putD w.args v) u t q w.args := State.finish_finishedIn ..
  have team : (s.modCore t q fun k => k.putD w.args v).team t = (s.team t).modCore q fun k => k.putD w.args v :=
    State.team_modTeam_self ..
  refine ⟨?_, ?_⟩
  · rw [done.team, team]
    rfl
  · rw [done.core, State.core_modCore_self, Core.putD, hd]
    exact Core.getS_setS_self ..

@[simp] theorem State.team_bumpFree (s : State) (t : Nat) : s.bumpFree.team t = s.team t := rfl

/-- The CLUSTER address of the description that MASK.BIND of a core names in A. -/
def State.bindAt (s : State) (t q : Nat) (x : Args) : Nat := ((s.core t q).value x false x.a).toNat

/-- The description that MASK.BIND of a core reads. -/
def State.bindRecord (s : State) (t q : Nat) (x : Args) : List Byte :=
  memRead (s.team t).cluster (s.bindAt t q x) 64

/-- The mask that MASK.BIND of a core builds. -/
def State.bindMask (s : State) (t q : Nat) (x : Args) : MaskSlot :=
  maskOfRecord s.stack (s.bindAt t q x) (s.bindRecord t q x) (x.imm.getLsbD 0) s.free

/-- The STATUS that MASK.BIND of a core writes. -/
def State.bindStatus (s : State) (t q : Nat) (x : Args) (cx : Ctx) : Nat :=
  s.maskStatus t cx s.stack (s.bindRecord t q x) (s.bindMask t q x)

/-- The state once MASK.BIND of a core has written STATUS. -/
def State.statusWritten (s : State) (t q : Nat) (x : Args) (cx : Ctx) : State :=
  s.store ⟨t, some q, .gm, none⟩ (.cluster t) (cellsAt (s.bindAt t q x + 3) (leBytes 1 (s.bindStatus t q x cx)))

/-- The state once MASK.BIND of a core has built its mask and written the bind area (R220). -/
def State.bound (s : State) (t q : Nat) (x : Args) (cx : Ctx) : State :=
  ((s.statusWritten t q x cx).modTeam t fun k =>
      { k with masks := mapPut k.masks (mSlot (s.bindRecord t q x)) (s.bindMask t q x) }).bumpFree.store
    ⟨t, some q, .gm, none⟩ (.cluster t)
    (cellsAt (s.bindMask t q x).bindArea ((s.bindMask t q x).area (s.bindMask t q x).areaFill (s.bindMask t q x).areaSize))

/-- The state once MASK.BIND of a core has emptied the slot of a mask that it refuses. -/
def State.unbound (s : State) (t q : Nat) (x : Args) (cx : Ctx) : State :=
  (s.statusWritten t q x cx).modTeam t fun k => { k with masks := mapDrop k.masks (mSlot (s.bindRecord t q x)) }

/-- MASK.BIND of a core, where no write of what it reads is unordered: its three outcomes. -/
theorem State.maskBindCore_settled {s : State} {t q : Nat} {x : Args} {cx : Ctx} (hctx : s.kernelCtx t = some cx)
    (aligned : s.bindAt t q x % 64 = 0) (inside : s.bindAt t q x + 64 ≤ s.clusterBytes t)
    (quiet : settledGather s t q) :
    s.maskBindCore t q ⟨0x289, x⟩ =
      if (s.team t).holdsMask (s.bindAt t q x) (s.bindRecord t q x) then
        s.answered t q ⟨0x289, x⟩ (BitVec.ofNat 64 (mSlot (s.bindRecord t q x))) { }
      else if s.bindStatus t q x cx = 0 then
        (s.bound t q x cx).answered t q ⟨0x289, x⟩ (BitVec.ofNat 64 (mSlot (s.bindRecord t q x)))
          { idxDrop := (s.bindMask t q x).idxDropped, capDrop := (s.bindMask t q x).capDropped }
      else (s.unbound t q x cx).answered t q ⟨0x289, x⟩ 0 evAddr := by
  have legal : ¬ (s.bindAt t q x % 64 ≠ 0 ∨ s.clusterBytes t < s.bindAt t q x + 64) := by omega
  have cluster (a : Accessor) : s.view a (.cluster t) = (s.team t).cluster :=
    State.view_settled (fun e he => (quiet e he).2.1) a
  have stack (a : Accessor) : s.view a .stack = s.stack := State.view_settled (fun e he => (quiet e he).2.2) a
  unfold State.maskBindCore
  simp only [hctx, cluster, stack]
  exact if_neg legal

theorem State.team_statusWritten {s : State} {t q : Nat} (quiet : settledGather s t q) (x : Args) (cx : Ctx) :
    (s.statusWritten t q x cx).team t = { s.team t with
      cluster := memSet (s.team t).cluster (s.bindAt t q x + 3) (BitVec.ofNat 8 (s.bindStatus t q x cx)) } := by
  rw [State.statusWritten, State.team_store_cluster, State.keptCells_settled fun e he => (quiet e he).2.1]
  rfl

theorem State.team_bound {s : State} {t q : Nat} (quiet : settledGather s t q) (x : Args) (cx : Ctx) :
    (s.bound t q x cx).team t = { s.team t with
      cluster := ((s.bound t q x cx).team t).cluster
      masks := mapPut (s.team t).masks (mSlot (s.bindRecord t q x)) (s.bindMask t q x) } := by
  rw [State.bound, State.team_store_cluster]
  generalize State.keptCells .. = kept
  rw [State.team_bumpFree, State.team_modTeam_self, State.team_statusWritten quiet]

theorem State.team_unbound {s : State} {t q : Nat} (quiet : settledGather s t q) (x : Args) (cx : Ctx) :
    (s.unbound t q x cx).team t = { s.team t with
      cluster := memSet (s.team t).cluster (s.bindAt t q x + 3) (BitVec.ofNat 8 (s.bindStatus t q x cx))
      masks := mapDrop (s.team t).masks (mSlot (s.bindRecord t q x)) } := by
  rw [State.unbound, State.team_modTeam_self, State.team_statusWritten quiet]

/-- What MASK.BIND of a core gives D, and what it leaves in the team's slots and in CLUSTER memory (R219). -/
theorem State.maskBindCore_outcome {s : State} {t q n : Nat} {x : Args} {cx : Ctx} (hctx : s.kernelCtx t = some cx)
    (aligned : s.bindAt t q x % 64 = 0) (inside : s.bindAt t q x + 64 ≤ s.clusterBytes t)
    (quiet : settledGather s t q) (hd : x.d = .sreg n) :
    let u := s.maskBindCore t q ⟨0x289, x⟩
    let slot := mSlot (s.bindRecord t q x)
    let held := (s.team t).holdsMask (s.bindAt t q x) (s.bindRecord t q x) = true
    (u.team t).kernel = (s.team t).kernel ∧
      (held → (u.core t q).getS n = BitVec.ofNat 64 slot ∧ (u.team t).masks = (s.team t).masks ∧
        (u.team t).cluster = (s.team t).cluster) ∧
      (¬ held → s.bindStatus t q x cx = 0 → (u.core t q).getS n = BitVec.ofNat 64 slot ∧
        (u.team t).masks = mapPut (s.team t).masks slot (s.bindMask t q x)) ∧
      (¬ held → s.bindStatus t q x cx ≠ 0 → (u.core t q).getS n = 0 ∧
        (u.team t).masks = mapDrop (s.team t).masks slot ∧
        (u.team t).cluster =
          memSet (s.team t).cluster (s.bindAt t q x + 3) (BitVec.ofNat 8 (s.bindStatus t q x cx))) := by
  intro u slot held
  have hu : u = _ := State.maskBindCore_settled hctx aligned inside quiet
  by_cases isHeld : held
  · rw [if_pos isHeld] at hu
    obtain ⟨team, value⟩ := s.answered_shape t q (w := ⟨0x289, x⟩) hd (BitVec.ofNat 64 slot) { }
    rw [← hu] at team value
    refine ⟨by rw [team], fun _ => ⟨value, by rw [team], by rw [team]⟩, fun h => absurd isHeld h, fun h => absurd isHeld h⟩
  · rw [if_neg isHeld] at hu
    by_cases sound : s.bindStatus t q x cx = 0
    · rw [if_pos sound] at hu
      obtain ⟨team, value⟩ := (s.bound t q x cx).answered_shape t q (w := ⟨0x289, x⟩) hd (BitVec.ofNat 64 slot)
        { idxDrop := (s.bindMask t q x).idxDropped, capDrop := (s.bindMask t q x).capDropped }
      rw [← hu, State.team_bound quiet] at team
      rw [← hu] at value
      exact ⟨by rw [team], fun h => absurd h isHeld, fun _ _ => ⟨value, by rw [team]⟩, fun _ h => absurd sound h⟩
    · rw [if_neg sound] at hu
      obtain ⟨team, value⟩ := (s.unbound t q x cx).answered_shape t q (w := ⟨0x289, x⟩) hd 0 evAddr
      rw [← hu, State.team_unbound quiet] at team
      rw [← hu] at value
      exact ⟨by rw [team], fun h => absurd h isHeld, fun _ h => absurd h sound,
        fun _ _ => ⟨value, by rw [team], by rw [team]⟩⟩

/-! ### MERGE.BSR (R224 to R227) -/

/-- A block cursor reads the same after a fresh number was taken, where no write of the core is unordered. -/
theorem State.blockCursorAt_bumpFree {s : State} {t q : Nat} (quiet : settled s t q) (a : Nat) :
    s.bumpFree.blockCursorAt t q a = s.blockCursorAt t q a := by
  unfold State.blockCursorAt
  rw [State.view_settled quiet, State.view_settled (s := s.bumpFree) quiet]
  rfl

/-- The chunk at a position of a piece takes its entries from the piece's union, at that position (R221). -/
theorem MaskSlot.union_of_chunkAt {m : MaskSlot} {dir : Bool} {piece chunk : Nat} {k : Chunk}
    (h : m.chunkAt dir piece chunk = some k) :
    ∃ u, chunk < m.chunksIn u ∧ k.union = (u.drop (m.chunkLen * chunk)).take m.chunkLen := by
  unfold MaskSlot.chunkAt at h
  dsimp only at h
  split at h
  · cases h
  · rename_i x _
    split at h
    · rename_i lt
      cases h
      exact ⟨x.2, lt, rfl⟩
    · cases h

/-- The chunk at which a cursor stands lies at a position of a piece (R224). -/
theorem MaskSlot.chunkAt_of_cursorChunk {m : MaskSlot} {c : BlockCursor} {q : Nat} {k : Chunk} {last : Bool}
    (h : m.cursorChunk c q = some (k, last)) : ∃ piece, m.chunkAt c.dir piece c.chunk = some k := by
  unfold MaskSlot.cursorChunk at h
  dsimp only at h
  split at h
  · cases h
  · split at h
    · cases h
    · rename_i e
      cases h
      exact ⟨_, e⟩

/-- A chunk at which a cursor stands has union entries, and its mask has a block size (R221). -/
theorem MaskSlot.cursorChunk_pos {m : MaskSlot} {c : BlockCursor} {q : Nat} {k : Chunk} {last : Bool}
    (h : m.cursorChunk c q = some (k, last)) : 0 < k.union.length * m.block := by
  obtain ⟨piece, hp⟩ := MaskSlot.chunkAt_of_cursorChunk h
  obtain ⟨u, lt, hu⟩ := MaskSlot.union_of_chunkAt hp
  rw [MaskSlot.chunksIn, ceilDiv] at lt
  have len : 0 < m.chunkLen := Nat.pos_of_ne_zero fun e => by simp [e] at lt
  have block : 0 < m.block := Nat.pos_of_ne_zero fun e => by simp [MaskSlot.chunkLen, e] at len
  have entries : m.chunkLen * c.chunk < u.length := by
    have := (Nat.le_div_iff_mul_le len).mp lt
    rw [Nat.succ_mul, Nat.mul_comm] at this
    omega
  have union : 0 < k.union.length := by
    rw [hu, List.length_take, List.length_drop]
    omega
  exact Nat.mul_pos union block

/-- D of a MERGE.BSR with its rows set (R225). -/
def mergedTile (d : TileDesc) (m : MaskSlot) (c : BlockCursor) (k : Chunk) : TileDesc :=
  withRows d (if c.part = 0 then k.union.length * m.block else 32)

theorem withRows_rows_le {d : TileDesc} {n : Nat} (h : 0 < n) : (withRows d n).rows ≤ n := by
  rw [withRows, if_neg (by omega), TileDesc.rows]
  have := Nat.mod_le (n - 1) 256
  simp only [BitVec.toNat_ofNat]
  omega

/-- The code of an element of D that MERGE.BSR produces: of a DENSE tile a row of the window, of VALUES a value, of SLOTMASK
whether the block is kept (R225). -/
def State.mergedCode (s : State) (t q : Nat) (b : TileDesc) (m : MaskSlot) (c : BlockCursor) (k : Chunk) (i j : Nat) : Nat :=
  if c.part = 0 then
    match m.windowRow c k i with
    | some row => (sourceRow (guarded (s.usable t 0) (s.core t q).mem) b.tyN b.cols b.colMajor b.base.toNat b.stride.toNat
        b.scaleBase.toNat row).1.getD j 0
    | none => 0
  else if c.part = 1 then (m.valueAt s.stack c.dir k i j).1
  else if ((m.blockOf c.dir k i j).1, (m.blockOf c.dir k i j).2.1) ∈ m.kept then 1 else 0

/-- An element of the rows that a DENSE production moves. -/
theorem rowsCode_map (n : Nat) (row : Nat → Option Nat) (src : Nat → List Nat × List Nat) {i : Nat} (hi : i < n) (j : Nat) :
    rowsCode ((List.range n).map fun i => (row i).map src) i j =
      match row i with
      | some r => (src r).1.getD j 0
      | none => 0 := by
  cases h : row i <;> simp [rowsCode, hi, h]

/-- MERGE.BSR of a core, where no write of what it reads is unordered, the bind area is as MASK.BIND left it and no tile is
null: D's elements are those of `State.mergedCode`. -/
theorem State.mergeCore_settled {s : State} {t q : Nat} {x : Args} {c : BlockCursor} {m : MaskSlot} {k : Chunk} {last : Bool}
    (quiet : settledGather s t q) (hc : s.blockCursorAt t q ((s.core t q).value x false x.a).toNat = some c)
    (hm : mapGet (s.team t).masks (x.imm.toNat % 256) = some m) (hdir : c.dir = true → m.transposed = true)
    (hk : m.cursorChunk c q = some (k, last)) (intact : m.recordsIntact (s.team t).cluster = true)
    (tiles : mergeNull x m c (k.union.length * m.block) ((s.core t q).tile x.d) ((s.core t q).tile x.b) = false) :
    let d1 := mergedTile ((s.core t q).tile x.d) m c k
    ∃ code scale ev outside,
      s.mergeCore t q ⟨0x288, x⟩ = s.gatherDone t q ⟨0x288, x⟩ d1 (tileCells (memGet (s.core t q).mem) d1 code scale)
        (blockCursorCells c k last (k.union.length * m.block)) ev outside ∧
      ∀ i j, i < d1.rows → code i j = s.mergedCode t q ((s.core t q).tile x.b) m c k i j := by
  have direction : (c.dir && !m.transposed) = false := by
    cases e : c.dir
    · rfl
    · simp [hdir e]
  have stack (a : Accessor) : s.view a .stack = s.stack := State.view_settled (fun e he => (quiet e he).2.2) a
  have mem (a : Accessor) : s.view a (.core t q) = (s.core t q).mem := State.view_settled (fun e he => (quiet e he).1) a
  unfold State.mergeCore mergedTile
  simp only [hc, hm, direction, State.readChunk, hk, intact, Bool.true_or, if_true, Bool.false_eq_true, if_false, tiles, stack]
  by_cases dense : c.part = 0
  · simp only [dense, if_true]
    refine ⟨_, _, _, _, rfl, fun i j hi => ?_⟩
    have row : i < k.union.length * m.block :=
      Nat.lt_of_lt_of_le hi (withRows_rows_le (MaskSlot.cursorChunk_pos hk))
    rw [State.mergedCode, if_pos dense, State.denseTile, mem]
    exact rowsCode_map _ _ _ row j
  · simp only [dense, if_false]
    refine ⟨_, _, _, _, rfl, fun i j _ => ?_⟩
    rw [State.mergedCode, if_neg dense]
    split
    · rfl
    · simp [natOf]

/-- MERGE.BSR that one core executes acts there and moves the pc on, once its window is not still draining (R207). -/
theorem execMergeBsr_single {s : State} {t q : Nat} {x : Args} (issues : s.canIssue t ⟨0x288, x⟩ = true)
    (hm : (s.team t).masked x.pred = [q]) (ready : ∀ o, x.b = .treg o → o ∉ (s.core t q).tileQueue)
    (hk : ((s.bumpFree.mergeCore t q ⟨0x288, x⟩).team t).kernel = (s.team t).kernel) :
    execMergeBsr t x s = .next ((s.bumpFree.mergeCore t q ⟨0x288, x⟩).nextPc t) := by
  have window : drained (s.core t q) .gm [x.b] = true := by
    unfold drained
    cases e : x.b with
    | treg o => simp [ready o e]
    | _ => rfl
  have unit : unitOf 0x288 = .gm := by decide
  rw [execMergeBsr, State.issueTiles, if_pos, State.issue_single issues hm _ hk]
  simp [hm, unit, window]

/-- What MASK.BIND does where one core acts (R219). -/
theorem execMaskBind_outcome {s : State} {t q n : Nat} {x : Args} {cx : Ctx} (hm : (s.team t).masked x.pred = [q])
    (hctx : s.kernelCtx t = some cx) (quiet : settledGather s t q) (issues : s.canIssue t ⟨0x289, x⟩ = true)
    (hd : x.d = .sreg n) (aligned : s.bindAt t q x % 64 = 0) (inside : s.bindAt t q x + 64 ≤ s.clusterBytes t) :
    let r := s.bindRecord t q x
    let m := s.bumpFree.bindMask t q x
    let status := s.bumpFree.bindStatus t q x cx
    let held := (s.team t).holdsMask (s.bindAt t q x) r = true
    ∃ u, execMaskBind t x s = .next u ∧
      (held → (u.core t q).getS n = BitVec.ofNat 64 (mSlot r) ∧ (u.team t).masks = (s.team t).masks ∧
        (u.team t).cluster = (s.team t).cluster) ∧
      (¬ held → status = 0 → (u.core t q).getS n = BitVec.ofNat 64 (mSlot r) ∧
        mapGet (u.team t).masks (mSlot r) = some m) ∧
      (¬ held → status ≠ 0 → (u.core t q).getS n = 0 ∧ mapGet (u.team t).masks (mSlot r) = none ∧
        memGet (u.team t).cluster (s.bindAt t q x + 3) = BitVec.ofNat 8 status) ∧
      ∀ j, j ≠ mSlot r → mapGet (u.team t).masks j = mapGet (s.team t).masks j := by
  intro r m status held
  obtain ⟨kernel, whenHeld, whenSound, whenRefused⟩ :=
    State.maskBindCore_outcome (s := s.bumpFree) hctx aligned inside quiet hd
  refine ⟨_, by rw [execMaskBind, State.issue_single issues hm _ kernel], ?_⟩
  rw [State.core_nextPc, State.team_nextPc]
  generalize s.bumpFree.maskBindCore t q ⟨0x289, x⟩ = v at *
  refine ⟨whenHeld, fun h e => ?_, fun h e => ?_, fun j hj => ?_⟩
  · obtain ⟨value, masks⟩ := whenSound h e
    exact ⟨value, by rw [masks]; exact mapGet_mapPut_self ..⟩
  · obtain ⟨value, masks, cluster⟩ := whenRefused h e
    exact ⟨value, by rw [masks]; exact mapGet_mapDrop_self .., by rw [cluster]; exact memGet_memSet_self ..⟩
  · by_cases h : held
    · obtain ⟨-, masks, -⟩ := whenHeld h
      exact congrArg (mapGet · j) masks
    · by_cases e : status = 0
      · obtain ⟨-, masks⟩ := whenSound h e
        exact (congrArg (mapGet · j) masks).trans (mapGet_mapPut_ne _ hj _)
      · obtain ⟨-, masks, -⟩ := whenRefused h e
        exact (congrArg (mapGet · j) masks).trans (mapGet_mapDrop_ne _ hj)

/-- What MERGE.BSR does where one core acts, while the bind area is as MASK.BIND left it (R220, R225). -/
theorem execMergeBsr_outcome {s : State} {t q n : Nat} {x : Args} {c : BlockCursor} {m : MaskSlot} {k : Chunk} {last : Bool}
    (hm : (s.team t).masked x.pred = [q]) (quiet : settledGather s t q) (issues : s.canIssue t ⟨0x288, x⟩ = true)
    (hd : x.d = .treg n) (ready : ∀ o, x.b = .treg o → o ∉ (s.core t q).tileQueue)
    (hc : s.blockCursorAt t q ((s.core t q).value x false x.a).toNat = some c)
    (hslot : mapGet (s.team t).masks (x.imm.toNat % 256) = some m) (hdir : c.dir = true → m.transposed = true)
    (hk : m.cursorChunk c q = some (k, last)) (intact : m.recordsIntact (s.team t).cluster = true)
    (loose : x.mod.getLsbD 6 = false) :
    let b := (s.core t q).tile x.b
    let d := (s.core t q).tile x.d
    let d1 := mergedTile d m c k
    mergeNull x m c (k.union.length * m.block) d b = false → writable s t q x d1 →
      apartFrom (blockCursorCells c k last (k.union.length * m.block)) d1 →
      ∃ u, execMergeBsr t x s = .next u ∧ (u.core t q).tile x.d = d1 ∧
        ∀ i j, i < d1.rows → j < d1.cols →
          (tileOf u t q d1).code i j = s.mergedCode t q b m c k i j % 2 ^ elemBits d1.tyN := by
  intro b d d1 tiles whole clear
  have core : settled s t q := fun e he => (quiet e he).1
  have cursor := (State.blockCursorAt_bumpFree core _).trans hc
  obtain ⟨code, scale, ev, outside, merged, codes⟩ :=
    State.mergeCore_settled (s := s.bumpFree) quiet cursor hslot hdir hk intact tiles
  obtain ⟨kernel, desc, elements⟩ := State.gatherDone_tile (s := s.bumpFree) (w := ⟨0x288, x⟩)
    (d := mergedTile ((s.bumpFree.core t q).tile x.d) m c k) loose hd core whole clear code scale ev outside
  rw [← merged] at kernel desc elements
  refine ⟨_, execMergeBsr_single issues hm ready kernel, ?_, fun i j hi hj => ?_⟩
  · rw [State.core_nextPc, hd]
    exact desc
  · rw [tileOf, State.core_nextPc]
    exact (elements i j hi hj).trans (congrArg (· % _) (codes i j hi))

/-- Settles O45: MASK.BIND by the three outcomes of `State.maskBindCore_settled`, MERGE.BSR by reading back the tile whose
cells the end of a gather writes. -/
theorem maskRows : Obligations.MaskRows := by
  intro t q x s cx hm hctx quiet
  constructor
  · intro n issues hd aligned inside
    obtain ⟨u, hu, whenHeld, whenSound, whenRefused, others⟩ :=
      execMaskBind_outcome hm hctx quiet issues hd aligned inside
    have held := (s.team t).holdsMask_iff (s.bindAt t q x) (s.bindRecord t q x)
    exact ⟨u, hu, fun h => whenHeld (held.mpr h), fun h => whenSound (h ∘ held.mp), fun h => whenRefused (h ∘ held.mp),
      others⟩
  · intro n y c ch last issues hd ready hc hy hdir hch intact loose b d kcols d1 tiles whole _ clear
    exact execMergeBsr_outcome hm quiet issues hd ready hc hy hdir hch intact loose tiles whole clear

end Sys2Proof.Machine
end
